-- ==== Sys2Proof/Word.lean ====
section
/-!
DEFINITION. Sys2Proof/Word.lean: the words of the SZ4880.
Registers are 32 bits wide (R12), memories are addressed by the byte (R32), device time is 64 bits wide (R306).
-/
namespace Sys2Proof

/-- One register word (R12). -/
abbrev Word := BitVec 32

/-- One byte of an addressed memory. -/
abbrev Byte := BitVec 8

/-- A 64-bit value: device time (R306), a counter (R140), a fault record's detail (R439). -/
abbrev Long := BitVec 64

/-- The contents of an Etch vector register: 1,024 bits (R209). -/
abbrev VecReg := BitVec 1024

/-- The contents of an Etch predicate register: one bit a byte lane (R209). -/
abbrev PredReg := BitVec 128

end Sys2Proof
end

