-- ==== Sys2Proof/Machine/Types.lean ====
section
/-!
DEFINITION. Sys2Proof/Machine/Types.lean: the operands of the commands, as plain data.
A command's operands are the numbers and values the spec's rule for it names, and what the outside brings (a packet, a
message, the outcome of a read).
-/
namespace Sys2Proof.Machine

/-- Who raises an event or makes an access: the sources of the table *Source indices* (R310), application cores and the
other Mesh endpoints of R467. -/
inductive Src where
  | tile (n : Nat) | core (n : Nat) | dma (n : Nat) | bru (slot : Nat) | port (p : Nat) | trig (p : Nat)
  | slot (i : Nat) | queue (q : Nat) | stroke (s : Nat) | mgmt (n : Nat) | mbox (c : Nat) | bridge (k : Nat)
  | net | aon | ddr (k : Nat) | app (n : Nat) | plate (n : Nat) | colour (n : Nat) | endpoint (n : Nat)
  deriving DecidableEq, Repr

/-- The 125 islands, each one reset domain (R19, R30). -/
inductive Domain where
  | tile (n : Nat) | core (n : Nat) | port (n : Nat) | plate (n : Nat) | colour (n : Nat) | stat | pcm | bru
  | stipple (side : Nat) | dma (k : Nat) | ddr (k : Nat) | bridge (k : Nat) | network | appCluster (k : Nat)
  | mgmt | smi | aon
  deriving DecidableEq, Repr

/-- What the header check of a CSI-2 packet found (R38, R47). -/
inductive HdrEcc where
  | clean | corrected | uncorrectable
  deriving DecidableEq, Repr

/-- What the ECC of a memory found on a read (R118, R212, R273). -/
inductive EccResult where
  | clean | corrected | uncorrectable
  deriving DecidableEq, Repr

/-- A CSI-2 long packet: its header, and its payload as samples of the data type's bit depth (bytes for embedded data). -/
structure LongPacket where
  port : Nat
  vc : Nat
  dt : Nat
  ecc : HdrEcc
  crcOk : Bool
  samples : List Nat
  deriving DecidableEq, Repr

/-- Where a memory or DMA access of the outside ended (R26, R265, R351, R353). -/
inductive Answer where
  | ok | resetInProgress | windowClosed | pageFault
  deriving DecidableEq, Repr

/-- An event as it reaches the fault collector (R439). -/
structure FaultEv where
  code : Nat
  status : Nat
  src : Nat
  ctx : Nat
  detail : Nat
  extra : Nat
  deriving DecidableEq, Repr

/-- Where an ACP message comes from: a network port and the sender's address, or a mailbox channel (R318, R338). -/
inductive Origin where
  | net (port addr : Nat)
  | mbox (chan : Nat)
  | route (device addr : Nat)
  deriving DecidableEq, Repr

/-- A sensor register that takes a parameter of one exposure (R54): `bits` bits of the converted value from bit `shift` on. -/
structure SensorReg where
  exposure : Nat
  reg : Nat
  shift : Nat
  bits : Nat
  deriving DecidableEq, Repr

/-- A parameter of a sensor: the sensor registers, the conversion and the latency in frames (R54). -/
structure SensorParam where
  regs : List SensorReg
  mul : Nat
  div : Nat
  latency : Nat
  deriving DecidableEq, Repr

/-- A sensor profile (R54): its content; the byte format is the profile compiler's and is not given. `routes` holds the virtual channel
and the data type of each exposure, of all of them when they are line-interleaved; `embLines` the positions of the embedded-data lines in
a frame; `frameTag` the register that sets the tag and the byte offset of its echo in a frame's embedded data. -/
structure SensorProfile where
  routes : List (Nat × Nat)
  width : Nat
  height : Nat
  exposures : Nat
  interleaved : Bool
  embDt : Option Nat
  embLines : List Nat
  lanes : Nat
  rateMbps : Nat
  contClock : Bool
  deskew : Bool
  laneMap : Nat
  invert : Nat
  frameTag : Option (Nat × Nat)
  bus : Nat
  i2c : Bool
  addr : Nat
  expo : SensorParam
  gain : SensorParam
  groupHold : Option Nat
  triggered : Bool
  trigPin : Nat
  lineNumbers : Bool
  period : Nat
  tol : Nat
  timeout : Nat
  pad : Nat
  deriving DecidableEq, Repr

/-- A program of a plan, a node of the flag graph (R197). Indices are logical. -/
inductive Prog where
  | tile (logical : Nat) | core (logical : Nat) | dma (index : Nat) | bru (index : Nat) | queue (q : Nat)
  deriving DecidableEq, Repr

/-- A flag declaration (R186 section 0x0007, R197, R305). -/
structure FlagDecl where
  flag : Nat
  waiters : List Prog
  signallers : List Prog
  barrier : Bool
  participants : List Prog
  deriving DecidableEq, Repr

/-- An affine need a + b·W + c·H (R190). -/
structure Affine where
  a : Nat
  b : Nat
  c : Nat
  deriving DecidableEq, Repr

/-- A segment of a string variant (R190): its first and last layer, the mapping mode (`ring` 0 for pipeline, else the number of its ring
group), the outer visit order (codes of R130, R194), its memory and cycle needs. -/
structure Segment where
  logical : Nat
  first : Nat
  last : Nat
  outer : Nat
  ring : Nat
  am : Affine
  wm : Affine
  pm : Affine
  imem : Affine
  cycles : Affine
  deriving DecidableEq, Repr

/-- A shape binding (R191): it rewrites the field [hi:lo] of one layer word of one record of a tile's program in one variant. -/
structure ShapeBinding where
  variant : Nat
  tile : Nat
  record : Nat
  word : Nat
  hi : Nat
  lo : Nat
  dim : Nat
  mul : Nat
  div : Nat
  off : Nat
  deriving DecidableEq, Repr

/-- A pointer list that Apgil writes for a tile (R195): its address in WM, the run-time dimension that counts its entries or a fixed
count, and the strides of an entry's four words. -/
structure PtrList where
  base : Nat
  dim : Option Nat
  count : Nat
  strides : List Nat
  deriving DecidableEq, Repr

/-- Which rows of the frame a LAYER record of a string's program reads and writes for an interior stripe (R98, R99): the record's place in
the program; the halo rows above and below the stripe that its input and its output still hold, in rows of each tensor; the rows of each
tensor that stand for 8 rows of the frame; and, when its fetch reads the Plate output ring, how many
stripes ahead of the one in work it reads. -/
structure RowEdge where
  record : Nat
  inHalo : Nat
  outHalo : Nat
  inRows : Nat
  outRows : Nat
  ring : Option Nat
  deriving DecidableEq, Repr

/-- The transfers of a tensor from DDR5 or SHM that Apgil lays out in the outer visit order of a segment (R194): the records of the program
that make them, one after the other; the tensor's I/O address; its pieces along N, C, H and W and the
bytes from one to the next; the local addresses the pieces go to in turn. -/
structure Pieces where
  seg : Nat
  records : List Nat
  base : Nat
  dims : List Nat
  strides : List Nat
  dsts : List Nat
  deriving DecidableEq, Repr

/-- A program of one logical tile in one variant: its record words, its WM image, its nonlinear tables, its pointer lists (R119,
R159, R195), the rows its records stand for in a string (R99), the transfers its layers fetch (R194). -/
structure TileProg where
  logical : Nat
  words : List Word
  wm : List (Nat × List Byte)
  nlf : List Word
  ptrs : List PtrList
  rows : List RowEdge := []
  pieces : List Pieces := []
  deriving DecidableEq, Repr

/-- A string variant with its energy entry (R190, R384, R387). The flags of string i of a stream: the stripe flag and the input credit of
its first tile, the delivery flag of its last, each plus i; between places k and k + 1 the hand-over flag and its credit (R97), each plus
8k + i. `energy` tells whether section 0x0005 has an entry for it (R196). -/
structure Variant where
  segs : List Segment
  tiles : List TileProg
  energy0 : Nat
  energyUnit : Nat
  perPixel : Bool
  inFlag : Nat
  inCredit : Nat
  outFlag : Nat
  handFlag : Nat
  handCredit : Nat
  energy : Bool
  buffers : Nat
  parkOff : Nat
  parkBank : Nat
  parkRow : Nat
  parkBytes : Nat
  deriving DecidableEq, Repr

/-- A DMA program of a plan with the request lines it is paced by (R186 section 0x0009, R255); `pre` marks one that loads what the tiles
need before they start (R202); `pieces` are the transfers its MOVEs make in visit order (R194). -/
structure DmaProg where
  words : List Word
  lines : List Nat
  pre : Bool := false
  pieces : List Pieces := []
  deriving DecidableEq, Repr

/-- An Etch image of a plan (R217). -/
structure EtchImage where
  logical : Nat
  bundles : List Byte
  segs : List (Nat × List Byte)
  entry : Nat
  deriving DecidableEq, Repr

/-- A network of a plan's manifest (R186 section 0x0001). -/
structure Network where
  index : Nat
  stroke : Bool
  maxW : Nat
  maxH : Nat
  maxN : Nat
  maxT : Nat
  outPlanes : Nat
  outBits : Nat
  deriving DecidableEq, Repr

/-- What a plan states of one allowed stripe height (R190): the receptive radius and the compute factor of R99 in thousandths. The factor is
Linhus's report: the cycle and energy entries it gives already hold it (R99, R190). -/
structure HeightEntry where
  h : Nat
  radius : Nat
  factor : Nat
  deriving DecidableEq, Repr

/-- The content of a plan package's sections 0x0001 to 0x0009 (R186); the spec gives the sections no byte format. -/
structure PlanContent where
  networks : List Network
  inlet : Bool
  heights : Nat
  radii : List HeightEntry
  fixed : Bool
  variants : List Variant
  decls : List FlagDecl
  bindings : List ShapeBinding
  dmas : List DmaProg
  cores : List EtchImage
  stippleFmts : List (Nat × Nat)
  shmBanks : Nat
  deriving DecidableEq, Repr

/-- One ACP message as it arrives: its bytes (R322, R323), whether MACsec protected it (R319), and the content of the
items whose bytes the spec does not lay out (sensor profile, plan sections). -/
structure AcpDatagram where
  origin : Origin
  macsec : Bool
  bytes : List Byte
  profile : Option SensorProfile
  plan : Option PlanContent
  deriving DecidableEq, Repr

/-- A request that has passed R331 as far as its command: the session it belongs to, its header fields and TLVs. -/
structure AcpReq where
  origin : Origin
  sess : Nat
  major : Nat
  minor : Nat
  typ : Nat
  ctx : Nat
  seq : Nat
  tlvs : List (Nat × List Byte)
  profile : Option SensorProfile
  plan : Option PlanContent
  deriving DecidableEq, Repr

/-- What a received Ethernet frame carries (R321). -/
inductive FrameKind where
  | acp (m : AcpDatagram) | internal | other
  deriving DecidableEq, Repr

/-- A received Ethernet frame with the identifier of its VLAN tag, when it has one (R317, R319, R321). -/
structure EthFrame where
  port : Nat
  macsecOk : Bool
  bytes : Nat
  dstMac : Nat
  vlan : Option Nat
  kind : FrameKind
  payload : List Byte
  deriving DecidableEq, Repr

/-- What a training or retrain of a Bridge link finds (R342 to R344): for each lane whether its eye passes here and at the
far end, the far end's versions and what its neighbour list reports. -/
structure TrainResult where
  lanes : List Bool
  peerWidth : Nat
  peerV1 : Bool
  peerV2 : Bool
  peerSystem : Nat
  peerDevice : Nat
  peerLink : Nat
  eyePass : Bool
  deriving DecidableEq, Repr

/-- A neighbour list entry of another device (R347): device, its neighbour, the link's width code. -/
structure Neighbour where
  device : Nat
  peer : Nat
  link : Nat
  width : Nat
  deriving DecidableEq, Repr

/-- A remote access arriving at the owner (R348, R351): the sending device and its endpoint, and the number of the request among those of
that endpoint to this device. -/
structure RemoteReq where
  link : Nat
  sender : Nat
  endpoint : Nat
  num : Nat
  exportId : Nat
  offset : Nat
  write : Bool
  data : List Byte
  bytes : Nat
  deriving DecidableEq, Repr

/-- What self-test at bring-up reports (R404): the blocks that fail, by group. -/
structure SelfTest where
  tiles : List Nat
  cores : List Nat
  ports : List Nat
  plates : List Nat
  colours : List Nat
  bru : Bool
  stipples : List Nat
  netPorts : List Nat
  appCores : List Nat
  mgmt : List Nat
  service : Bool
  sensorsOut : List Nat := []
  railsOut : List Nat := []
  deriving DecidableEq, Repr

/-- The header of a firmware image (R397) with what the checks of R398 that need cryptography found. -/
structure FwImage where
  headerOk : Bool
  keyOk : Bool
  sigOk : Bool
  digestOk : Bool
  minStepping : Nat
  release : Nat
  security : Nat
  handMin : Nat
  handOut : Nat
  length : Nat
  digest : Nat
  deriving DecidableEq, Repr

/-- JTAG instructions (R463). -/
inductive JtagInstr where
  | bypass | idcode | extest | samplePreload | otherScan | debug
  deriving DecidableEq, Repr

/-- How a granule is released (R287, R290, R291). -/
inductive ReleaseHow where
  | normal (keep : Bool) | cancelled
  deriving DecidableEq, Repr

end Sys2Proof.Machine
end

