-- ==== Sys2Proof/Syntax.lean ====
section
/-!
DEFINITION. Sys2Proof/Syntax.lean: the commands of the block, one constructor for each row of spec/opcode_table.json, in
the table's order. The operands are those the row's rule names.
-/
namespace Sys2Proof
open Machine

/-- The commands (spec/opcode_table.json, spec/95_what_each_step_holds.md). -/
inductive Instr where
  -- register and window accesses (00, 01)
  | registerWrite (src : Src) (addr : Nat) (value : Word)
  | counterClearWrite (src : Src) (addr : Nat) (value : Word)
  | misalignedRegisterAccess (src : Src) (addr size : Nat) (write : Bool)
  | absentWindowAccess (src : Src) (addr : Nat) (write : Bool)
  | unmappedWindowAccess (src : Src) (addr : Nat) (write : Bool)
  | pairLowWordRead (src : Src) (addr : Nat)
  | pairHighWordRead (src : Src) (addr : Nat)
  | resetEndpointRequest (src : Src) (addr : Nat) (write : Bool)
  -- islands and resets (01, 08, 16, 18)
  | slow (d : Domain)
  | slowClear (d : Domain)
  | segmentMoveSwitch (tile : Nat)
  | domainReset (d : Domain)
  | domainResetDone (d : Domain)
  | resetNAssert
  | resetNRelease
  | smiResetNEvent (asserted : Bool)
  | smiWatchdogFire
  -- camera intake (02)
  | csiFrameStart (port vc frameNo : Nat) (ecc : HdrEcc)
  | csiLineStart (port vc line : Nat) (ecc : HdrEcc)
  | csiLongPacket (p : LongPacket)
  | csiFrameEnd (port vc : Nat) (ecc : HdrEcc)
  | frameTimeout (port bank : Nat)
  | triggerFrameMissing (port bank : Nat)
  | externalTrigger (pin : Nat)
  | trigPulseEnd (pin : Nat)
  | sensorSettingsWrite (bus : Nat)
  | sensorWriteNack (bus : Nat)
  -- Plate, statistics, colour (03)
  | plateStripeTake (pipe : Nat)
  | plateStripeDone (pipe : Nat)
  | statRecordWrite (stream : Nat)
  | plCommit (src : Src) (stream : Nat) (value : Word)
  | clCommit (src : Src) (stream : Nat) (value : Word)
  | colourStripeTake (stage : Nat)
  | colourFrameEnd (stage : Nat)
  -- Strokes (04)
  | strokeLaunch (stream : Nat)
  | frameAdmit (stream : Nat)
  | stripeDispatch (stream : Nat)
  | resultRecordWrite (stream : Nat)
  | strokeBarrierComplete (stream : Nat)
  -- Graver tiles (05, 08)
  | layer (tile : Nat) (ecc : EccResult)
  | loop (tile : Nat)
  | endloop (tile : Nat)
  | wait (tile : Nat)
  | signal (tile : Nat)
  | rotate (tile : Nat)
  | rotateArrived (tile : Nat)
  | halt (tile : Nat)
  | haltComplete (tile : Nat)
  | fetchDone (tile : Nat) (ecc : EccResult)
  | outputWriteNack (tile addr : Nat)
  | fetchReadNack (tile : Nat)
  | fetchTranslationFault (tile : Nat) (resolved : Bool)
  | tileStart (src : Src) (tile : Nat)
  | tileCancel (src : Src) (tile : Nat)
  | tileStopDone (tile : Nat)
  | tileCounterClear (src : Src) (tile : Nat)
  | tileWatchdog (tile : Nat)
  | stringRestart (stream string : Nat)
  -- Box and Rank Unit (07)
  | bruSubmit (src : Src) (value : Word)
  | bruCancel (src : Src) (value : Word)
  | bruIterationStart
  | bruIterationDone
  | bruSlotRead (src : Src) (slot : Nat)
  -- Etch cores (09, 10)
  | bundleIssue (core : Nat) (ecc : EccResult)
  | etchStart (src : Src) (core : Nat)
  | etchCancel (src : Src) (core : Nat)
  | etchStopDone (core : Nat)
  | etchCounterClear (src : Src) (core : Nat)
  -- DMA (11)
  | dmaStart (src : Src) (chan : Nat)
  | dmaCancel (src : Src) (chan : Nat)
  | dmaResume (src : Src) (chan : Nat)
  | dmaAbort (src : Src) (chan : Nat)
  | dmaClear (src : Src) (chan : Nat)
  | move (chan : Nat)
  | burstIssue (cluster : Nat)
  | burstReadReturn (chan : Nat) (ecc : EccResult) (ans : Answer)
  | burstWriteAnswer (chan : Nat) (ans : Answer)
  | moveComplete (chan : Nat)
  | dmaLoop (chan : Nat)
  | dmaWait (chan : Nat)
  | dmaSignal (chan : Nat)
  | dmaProgramEnd (chan : Nat)
  | dmaTranslationFault (chan : Nat)
  | dmaStopDone (chan : Nat)
  -- memory system (12, 20)
  | patrolScrubRead (chan : Nat) (ecc : EccResult)
  | selfRefreshEntry (chan : Nat)
  | selfRefreshExit (chan : Nat)
  | ddrChannelFailure (chan : Nat)
  | shmModeChangeDone (slice : Nat)
  | shmBankPowerUp (bank : Nat)
  | iommuInvalidate (src : Src) (value : Word)
  | iommuInvalidateDone
  | granuleGrant (granule ctx : Nat) (keep : Bool)
  | granuleRelease (granule : Nat) (how : ReleaseHow)
  | granuleHoldExpiry (granule : Nat)
  | dirtyGranuleAccess (src : Src) (addr : Nat) (write : Bool)
  | scrubStart (granule : Nat)
  | scrubDone (granule : Nat)
  -- flags, queues, launches, device time (13)
  | flagUpdate (src : Src) (flag : Nat) (add : Bool) (value : Word)
  | flagWrite (src : Src) (flag : Nat) (value : Word)
  | flagRead (src : Src) (flag : Nat)
  | waitExpiry (waiter : Nat)
  | deadlockCheck (waiter : Nat)
  | queueEnable (src : Src) (queue : Nat) (value : Word)
  | queueEntryStart (queue : Nat)
  | launchSlotArm (src : Src) (slot : Nat) (value : Word)
  | launchSlotDisarm (src : Src) (slot : Nat) (value : Word)
  | launchSlotFire (slot : Nat)
  | contextCancelWrite (src : Src) (value : Word)
  | contextCancelApply (ctx : Nat)
  | timeSourceSelect (src : Src) (value : Word)
  | gptpSyncMessage (port : Nat) (offset : Int)
  | bridgeTimeMessage (link : Nat) (delay : Nat) (offset : Int)
  | timeSourceLost
  | deviceTimeStep
  -- network and ACP (14)
  | networkFrameReceive (f : EthFrame)
  | acpMessageReceive (m : AcpDatagram)
  | hello (r : AcpReq)
  | query (r : AcpReq)
  | setConfig (r : AcpReq)
  | topology (r : AcpReq)
  | attest (r : AcpReq)
  | openContext (r : AcpReq)
  | closeContext (r : AcpReq)
  | setEnergyBudget (r : AcpReq)
  | loadPackage (r : AcpReq)
  | unloadPackage (r : AcpReq)
  | createStream (r : AcpReq)
  | startStream (r : AcpReq)
  | stop (r : AcpReq)
  | cancel (r : AcpReq)
  | setSettings (r : AcpReq)
  | launchJob (r : AcpReq)
  | destroyStream (r : AcpReq)
  | snapshot (r : AcpReq)
  | installLicence (r : AcpReq)
  | fwUpdate (r : AcpReq)
  | resetPartition (r : AcpReq)
  | acpRouteForward (r : AcpReq)
  | sessionTimeout (sess : Nat)
  | transferAbandon (sess transfer : Nat)
  | mailboxClaim (src : Src) (chan : Nat)
  | mailboxRing (src : Src) (chan : Nat)
  | mailboxAck (src : Src) (chan : Nat)
  | mailboxTake (chan : Nat)
  | noticePlace (chan : Nat)
  -- Bridge (15)
  | linkTraining (link : Nat) (r : TrainResult)
  | linkRetrain (link : Nat) (r : TrainResult)
  | linkRetrainRequest (src : Src) (link : Nat) (value : Word)
  | routeUpdate (link device : Nat) (list : List Neighbour)
  | routeLossTimeout (device : Nat)
  | remoteAccess (a : RemoteReq)
  | flagWindowWrite (a : RemoteReq)
  | importTimeout (exportId : Nat)
  | windowClose (exportId : Nat)
  | windowCloseDone (exportId : Nat)
  -- SMI (16)
  | inletWrite (src : Src) (offset : Nat) (value : Word)
  | inletCommit (src : Src) (value : Word)
  | smiMessageTake
  | measure
  | fwChunk
  | fwCommit
  | smiFwDone
  | calInstall
  | paramSet
  | licence
  | logRead
  | keyStatement
  | smiBoot
  | sealChange (asserted : Bool)
  | vddSmiChange (inRange : Bool)
  -- energy and power (17)
  | energySample (power : List Nat)
  | energyWindow
  | launchHoldTimeout (job : Nat)
  | partitionEnable (src : Src) (part : Nat)
  | partitionDisable (src : Src) (part : Nat)
  | partitionPowerUpDone (part : Nat)
  | partitionPowerDownDone (part : Nat)
  | partitionIdleTimeout (part : Nat)
  | deviceIdleEntry
  | parkEntry
  | parkWake (f : EthFrame)
  | temperatureSample (temps : List Int)
  | thermalCapRelease
  -- bring-up and update (18)
  | recoveryBroadcast
  | recoveryImageStart (image : FwImage)
  | bringupStart (test : SelfTest)
  | readinessCheck
  | bootWatchdog
  | fwActivation
  | fwHandoverDone
  | fwRollback
  | probationEnd
  | fwRewriteDone
  | managementWatchdogFire (core : Nat)
  | managementCoreRestartDone (core : Nat)
  -- Archive flash (19)
  | flashTransaction
  | flashProgramDone
  | ringBlockReclaim (ring : Nat)
  -- electrical (21)
  | powerCut
  | referenceClockLoss
  | referenceClockRestored
  | avsVoltageSet (millivolts : Nat)
  | jtagInstruction (code : JtagInstr)
  -- fault collector (20) and the rows added at the table's end
  | faultEvent (ev : FaultEv)
  | faultRecordHandling
  | colourStripeDone (stage : Nat)
  | phyLockChange (port : Nat) (locked : Bool)
  | deskewSequence (port : Nat) (converged : Bool)
  | networkLinkChange (port : Nat) (up : Bool)
  | shmBankPowerDown (src : Src) (bank : Nat)
  | importRequest (sender exportId : Nat) (waitMs : Nat)
  | importGranted (exportId owner bytes : Nat) (flagGroup read write : Bool)
  deriving DecidableEq, Repr

end Sys2Proof
end

