-- ==== Sys2Proof/Machine/Bits.lean ====
section
/-!
DEFINITION. Sys2Proof/Machine/Bits.lean: bit ranges, sign extension, saturation and byte order (R11, R12, R466).
-/
namespace Sys2Proof.Machine

/-- Bits [hi:lo] of a word, as a number (R11: both bits included). -/
def fld {n : Nat} (w : BitVec n) (hi lo : Nat) : Nat := (w.toNat >>> lo) % 2 ^ (hi + 1 - lo)

/-- Bit i of a word. -/
def bitOf {n : Nat} (w : BitVec n) (i : Nat) : Bool := w.getLsbD i

/-- The word whose bits [hi:lo] are 1 and all others 0. -/
def maskOf (hi lo : Nat) : Word := BitVec.ofNat 32 ((2 ^ (hi + 1 - lo) - 1) * 2 ^ lo)

/-- The word with bits [hi:lo] replaced by `v`. -/
def setFld (w : Word) (hi lo v : Nat) : Word :=
  (w &&& ~~~ maskOf hi lo) ||| (BitVec.ofNat 32 (v * 2 ^ lo) &&& maskOf hi lo)

/-- The word with bit i set to `b`. -/
def setBit (w : Word) (i : Nat) (b : Bool) : Word := setFld w i i (if b then 1 else 0)

/-- 1 for true, 0 for false: a flag as the bit a register shows. -/
def b2n (b : Bool) : Nat := if b then 1 else 0

/-- The two's complement value of the low `bits` bits of `v`. -/
def sext (bits v : Nat) : Int :=
  let m := v % 2 ^ bits
  if m < 2 ^ (bits - 1) then (m : Int) else (m : Int) - (2 ^ bits : Nat)

/-- The low `bits` bits of an integer, as a number. -/
def wrapI (bits : Nat) (v : Int) : Nat := (v % ((2 ^ bits : Nat) : Int)).toNat

/-- `v` limited to [lo, hi]. -/
def clampI (lo hi v : Int) : Int := if v < lo then lo else if hi < v then hi else v

/-- `v` limited to the signed range of `bits` bits. -/
def satS (bits : Nat) (v : Int) : Int := clampI (-(2 ^ (bits - 1) : Nat)) ((2 ^ (bits - 1) : Nat) - 1) v

/-- `v` limited to the unsigned range of `bits` bits. -/
def satU (bits : Nat) (v : Int) : Int := clampI 0 ((2 ^ bits : Nat) - 1) v

/-- Arithmetic right shift: truncates towards minus infinity. -/
def sar (v : Int) (s : Nat) : Int := v / ((2 ^ s : Nat) : Int)

/-- The quotient rounded up. -/
def ceilDiv (a b : Nat) : Nat := (a + b - 1) / b

/-- `a` rounded up to a multiple of `b`. -/
def roundUp (a b : Nat) : Nat := ceilDiv a b * b

/-- A 32-bit counter that saturates at 0xFFFF_FFFF (R62). -/
def satInc (w : Word) : Word := if w.toNat = 0xFFFFFFFF then w else w + 1

/-- The number a little-endian byte string stands for (R12). -/
def leNat : List Byte → Nat
  | [] => 0
  | b :: t => b.toNat + 256 * leNat t

/-- The `k` little-endian bytes of a number. -/
def leBytes : Nat → Nat → List Byte
  | 0, _ => []
  | k + 1, n => BitVec.ofNat 8 n :: leBytes k (n / 256)

/-- The number a big-endian byte string stands for (R466). -/
def beNat (bs : List Byte) : Nat := bs.foldl (fun a b => a * 256 + b.toNat) 0

/-- The `k` big-endian bytes of a number (R466). -/
def beBytes (k n : Nat) : List Byte := (leBytes k n).reverse

/-- The `k` bytes of `bs` from offset `off`, missing ones read as 0. -/
def slice (bs : List Byte) (off k : Nat) : List Byte :=
  (List.range k).map (fun i => bs.getD (off + i) 0)

/-- The little-endian number in `k` bytes of `bs` at `off`. -/
def leAt (bs : List Byte) (off k : Nat) : Nat := leNat (slice bs off k)

/-- `bs` padded with zero bytes to `k` bytes, longer strings unchanged. -/
def padTo (k : Nat) (bs : List Byte) : List Byte := bs ++ List.replicate (k - bs.length) 0

/-- `l` with position `i` replaced. -/
def lset {α : Type} (l : List α) (i : Nat) (v : α) : List α := l.set i v

/-- The first number of [lo, lo + n) that satisfies `p`. -/
def findFrom (p : Nat → Bool) : Nat → Nat → Option Nat
  | 0, _ => none
  | n + 1, lo => if p lo then some lo else findFrom p n (lo + 1)

/-- The least number below `n` that satisfies `p`. -/
def findBelow (p : Nat → Bool) (n : Nat) : Option Nat := findFrom p n 0

/-- The element of least measure, the earliest of equal ones. -/
def minBy {α : Type} (m : α → Nat) : List α → Option α
  | [] => none
  | a :: t => match minBy m t with
    | none => some a
    | some b => if m b < m a then some b else some a

/-- Insertion into a list sorted by measure, behind equal elements. -/
def insertBy {α : Type} (m : α → Nat) (a : α) : List α → List α
  | [] => [a]
  | b :: t => if m a < m b then a :: b :: t else b :: insertBy m a t

/-- A stable sort by measure. -/
def sortBy {α : Type} (m : α → Nat) (l : List α) : List α := l.foldl (fun acc a => insertBy m a acc) []

/-- Whether two ranges overlap. -/
def overlap (a n b m : Nat) : Bool := decide (a < b + m) && decide (b < a + n)

end Sys2Proof.Machine
end

