-- ==== Sys2Proof/Machine/Crypto.lean ====
section
/-!
DEFINITION. Sys2Proof/Machine/Crypto.lean: the checkword and the algorithms the spec names without giving them: CRC-32C,
SHA-256 and ECDSA P-256 verification (PRESUMED from their public standards, log 8; byte orders as R466).
-/
namespace Sys2Proof.Machine

/-- One bit step of CRC-32C, reflected polynomial 0x82F63B78. -/
def crcStep (c : Word) : Word := if c.getLsbD 0 then (c >>> 1) ^^^ 0x82F63B78 else c >>> 1

/-- One byte of CRC-32C. -/
def crcByte (c : Word) (b : Byte) : Word :=
  crcStep (crcStep (crcStep (crcStep (crcStep (crcStep (crcStep (crcStep (c ^^^ b.setWidth 32))))))))

/-- CRC-32C of a byte string. -/
def crc32c (bs : List Byte) : Word := (bs.foldl crcByte 0xFFFFFFFF) ^^^ 0xFFFFFFFF

/-- CRC-32C of a string of words, each in little-endian order. -/
def crcWords (ws : List Word) : Word := crc32c (ws.flatMap (fun w => leBytes 4 w.toNat))

/-- The primes below 312: the first 64. -/
def shaPrimes : List Nat := (List.range 312).filter (fun p => decide (2 ≤ p) && (List.range 18).all (fun d => decide (d < 2) || decide (p ≤ d) || decide (p % d ≠ 0)))

/-- The greatest r below 2^n whose k-th power is at most x, bit by bit from the highest. -/
def natRoot (k x : Nat) : Nat → Nat → Nat
  | 0, r => r
  | n + 1, r => natRoot k x n (if (r + 2 ^ n) ^ k ≤ x then r + 2 ^ n else r)

/-- The first 32 bits of the fraction of the k-th root of a number. -/
def rootFraction (k p : Nat) : Word := BitVec.ofNat 32 (natRoot k (p * 2 ^ (32 * k)) 37 0)

/-- The round constants of SHA-256: fractions of the cube roots of the first 64 primes (log 8). -/
def shaK : List Word := shaPrimes.map (rootFraction 3)

/-- The initial hash value of SHA-256: fractions of the square roots of the first eight primes. -/
def shaInit : List Word := (shaPrimes.take 8).map (rootFraction 2)

def shaS0 (x : Word) : Word := x.rotateRight 7 ^^^ x.rotateRight 18 ^^^ (x >>> 3)
def shaS1 (x : Word) : Word := x.rotateRight 17 ^^^ x.rotateRight 19 ^^^ (x >>> 10)
def shaE0 (x : Word) : Word := x.rotateRight 2 ^^^ x.rotateRight 13 ^^^ x.rotateRight 22
def shaE1 (x : Word) : Word := x.rotateRight 6 ^^^ x.rotateRight 11 ^^^ x.rotateRight 25

/-- The message schedule, newest word first. -/
def shaExtend : Nat → List Word → List Word
  | 0, ws => ws
  | n + 1, ws => shaExtend n ((shaS1 (ws.getD 1 0) + ws.getD 6 0 + shaS0 (ws.getD 14 0) + ws.getD 15 0) :: ws)

/-- One round on the working variables a to h. -/
def shaRound (v : List Word) (kw : Word × Word) : List Word :=
  let a := v.getD 0 0; let b := v.getD 1 0; let c := v.getD 2 0; let d := v.getD 3 0
  let e := v.getD 4 0; let f := v.getD 5 0; let g := v.getD 6 0; let h := v.getD 7 0
  let t1 := h + shaE1 e + ((e &&& f) ^^^ (~~~e &&& g)) + kw.1 + kw.2
  let t2 := shaE0 a + ((a &&& b) ^^^ (a &&& c) ^^^ (b &&& c))
  [t1 + t2, a, b, c, d + t1, e, f, g]

/-- One block of 64 bytes. -/
def shaBlock (h : List Word) (block : List Byte) : List Word :=
  let ws := (List.range 16).map (fun i => BitVec.ofNat 32 (beNat (slice block (4 * i) 4)))
  let sched := (shaExtend 48 ws.reverse).reverse
  let v := (shaK.zip sched).foldl shaRound h
  (h.zip v).map (fun p => p.1 + p.2)

/-- The blocks of a padded message. -/
def shaBlocks : Nat → List Byte → List Word → List Word
  | 0, _, h => h
  | n + 1, bs, h => shaBlocks n (bs.drop 64) (shaBlock h (bs.take 64))

/-- SHA-256 of a byte string, the 32 bytes in output order (R466). -/
def sha256 (bs : List Byte) : List Byte :=
  let n := bs.length
  let padded := bs ++ [0x80] ++ List.replicate ((119 - n % 64) % 64) 0 ++ beBytes 8 (8 * n)
  (shaBlocks (padded.length / 64) padded shaInit).flatMap (fun w => beBytes 4 w.toNat)

/-! ### ECDSA P-256 -/

def p256p : Nat := 0xffffffff00000001000000000000000000000000ffffffffffffffffffffffff
def p256n : Nat := 0xffffffff00000000ffffffffffffffffbce6faada7179e84f3b9cac2fc632551
def p256b : Nat := 0x5ac635d8aa3a93e7b3ebbd55769886bc651d06b0cc53b0f63bce3c3e27d2604b
def p256gx : Nat := 0x6b17d1f2e12c4247f8bce6e563a440f277037d812deb33a0f4a13945d898c296
def p256gy : Nat := 0x4fe342e2fe1a7f9b8ee7eb4a7c0f9e162bce33576b315ececbb6406837bf51f5

/-- b^e mod m, over the bits of e from bit `k - 1` down. -/
def powMod (b m : Nat) : Nat → Nat → Nat
  | 0, _ => 1 % m
  | k + 1, e =>
    let r := powMod b m k (e / 2)
    let r2 := r * r % m
    if e % 2 = 1 then r2 * b % m else r2

/-- The inverse modulo a prime. -/
def invMod (a m : Nat) : Nat := powMod a m 256 (m - 2)

/-- A point of the curve; none is the point at infinity. -/
abbrev Point := Option (Nat × Nat)

/-- The sum of two points. -/
def ecAdd : Point → Point → Point
  | none, q => q
  | q, none => q
  | some (x1, y1), some (x2, y2) =>
    if x1 = x2 ∧ (y1 + y2) % p256p = 0 then none
    else
      let l :=
        if x1 = x2 then (3 * x1 * x1 + p256p - 3) % p256p * invMod (2 * y1 % p256p) p256p % p256p
        else (y2 + p256p - y1) % p256p * invMod ((x2 + p256p - x1) % p256p) p256p % p256p
      let x3 := (l * l + 2 * p256p - x1 - x2) % p256p
      some (x3, (l * ((x1 + p256p - x3) % p256p) + p256p - y1) % p256p)

/-- A point as x/z² and y/z³ (Jacobian coordinates), so that a multiple needs one inverse; z = 0 is the point at infinity. -/
structure JacPoint where
  x : Nat
  y : Nat
  z : Nat
  deriving DecidableEq, Repr

/-- Difference modulo the field's prime. -/
def fpSub (a b : Nat) : Nat := (a + (p256p - b % p256p)) % p256p

/-- A point doubled. -/
def jacDouble (q : JacPoint) : JacPoint :=
  let d := q.z * q.z % p256p; let g := q.y * q.y % p256p; let b := q.x * g % p256p
  let a := 3 * fpSub q.x d * (q.x + d) % p256p
  let x := fpSub (a * a) (8 * b)
  { x := x, y := fpSub (a * fpSub (4 * b) x) (8 * g * g), z := 2 * q.y * q.z % p256p }

/-- A point plus an affine one. -/
def jacAdd (q : JacPoint) (x2 y2 : Nat) : JacPoint :=
  if q.z = 0 then { x := x2, y := y2, z := 1 }
  else
    let zz := q.z * q.z % p256p
    let h := fpSub (x2 * zz) q.x; let r := fpSub (y2 * zz * q.z) q.y
    if h = 0 ∧ r = 0 then jacDouble q
    else if h = 0 then { x := 1, y := 1, z := 0 }
    else
      let hh := h * h % p256p; let hhh := hh * h % p256p; let v := q.x * hh % p256p
      let x := fpSub (fpSub (r * r) hhh) (2 * v)
      { x := x, y := fpSub (r * fpSub v x) (q.y * hhh), z := q.z * h % p256p }

/-- A multiple of an affine point, over the bits of the factor from bit `k - 1` down. -/
def jacMul (x y : Nat) : Nat → Nat → JacPoint
  | 0, _ => { x := 1, y := 1, z := 0 }
  | k + 1, e =>
    let r := jacDouble (jacMul x y k (e / 2))
    if e % 2 = 1 then jacAdd r x y else r

/-- A multiple of a point. -/
def ecMul (x y e : Nat) : Point :=
  let q := jacMul x y 256 e
  if q.z = 0 then none
  else
    let i := invMod q.z p256p
    let ii := i * i % p256p
    some (q.x * ii % p256p, q.y * (ii * i % p256p) % p256p)

/-- Whether a signature (r, s) over a SHA-256 digest verifies against a public key (x, y), all big-endian (R466). -/
def ecdsaVerify (key sig digest : List Byte) : Bool :=
  let x := beNat (slice key 0 32); let y := beNat (slice key 32 32)
  let r := beNat (slice sig 0 32); let s := beNat (slice sig 32 32)
  let onCurve := decide (x < p256p) && decide (y < p256p) &&
    decide ((y * y) % p256p = (x * x % p256p * x + (p256p - 3) * x + p256b) % p256p)
  if !onCurve || r = 0 || s = 0 || decide (p256n ≤ r) || decide (p256n ≤ s) then false
  else
    let e := beNat digest
    let w := invMod s p256n
    match ecAdd (ecMul p256gx p256gy (e * w % p256n)) (ecMul x y (r * w % p256n)) with
    | none => false
    | some (px, _) => px % p256n = r

end Sys2Proof.Machine
end

