-- ==== Sys2Proof/Config.lean ====
section
/-!
DEFINITION. Sys2Proof/Config.lean: the values the spec leaves open (free values) and what a part fixes.
Every constant without a body stands for whatever the hardware gives: nothing can be proved of its value (log 1).
-/
namespace Sys2Proof.Config
open Sys2Proof.Machine

/-- An open number: `purpose` says which place asks (log 1 lists them), `n` is the state's counter `free`. -/
opaque freeNat (purpose n : Nat) : Nat

/-- The source index a fault record shows for a requester that the table *Source indices* (R310) does not list. -/
opaque otherIndex (kind n : Nat) : Nat

/-- The order in which floating terms are added, open by R157: at turn `k` of the sum at `place`, which two terms are added. -/
opaque fpOrder (n : Nat) (place : List Nat) (k : Nat) : Nat

/-- What an encoded Stipple block holds where R181 and R182 state no value, as a function of the block (R180: the codec is
deterministic). -/
opaque stippleOpen (width fmt ratio : Nat) (block : List (Option Nat)) (i : Nat) : Nat

/-- The exponential of a fixed-point argument as the BRU forms it, in units of 2⁻⁴⁰: within the bound of R172 only. -/
opaque expRaw (x : Int) : Nat

/-- The 64 bytes of an ECDSA P-256 signature made with the key of the given role over a digest (its nonce is open). -/
opaque signature (role : Nat) (digest : List Byte) : List Byte

/-- The 64 bytes of the public key that belongs to the key of a role. -/
opaque publicKey (role : Nat) : List Byte

/-- X.509 certificates as the part carries them: role 0 the device's, 1 the intermediate's, 2 the SMI's. -/
opaque certificate (role : Nat) : List Byte

/-- The value replies give for items whose bytes the spec does not lay out (QUERY of an object). -/
opaque queryBytes (kind index n : Nat) : List Byte

/-- A sensor profile as the Linhus profile compiler writes it (R323): its byte format is not given. -/
opaque profileOf (bytes : List Byte) : Option SensorProfile

/-- The content of a plan package's sections (R186), whose byte formats are not given. -/
opaque planOf (bytes : List Byte) : Option PlanContent

end Sys2Proof.Config
end

