-- ==== Sys2Proof/Machine/Fp.lean ====
section
/-!
DEFINITION. Sys2Proof/Machine/Fp.lean: floating formats and FP32 arithmetic (R142 to R151). A finite value is exact:
mantissa × 2^exponent with its sign kept apart, so that signed zeros are honoured.
-/
namespace Sys2Proof.Machine

/-- A floating value. -/
inductive Fv where
  | nan
  | inf (neg : Bool)
  | fin (neg : Bool) (m : Nat) (e : Int)
  deriving DecidableEq, Repr

/-- The layout of a floating format (R142): exponent and mantissa bits, bias; `kind` 0 as IEEE 754, 1 E4M3 (no infinity, one
NaN code), 2 neither infinity nor NaN. -/
structure FpFmt where
  eb : Nat
  mb : Nat
  bias : Nat
  kind : Nat
  deriving DecidableEq, Repr

def fpE4M3 : FpFmt := { eb := 4, mb := 3, bias := 7, kind := 1 }
def fpE5M2 : FpFmt := { eb := 5, mb := 2, bias := 15, kind := 0 }
def fpBF16 : FpFmt := { eb := 8, mb := 7, bias := 127, kind := 0 }
def fpFP16 : FpFmt := { eb := 5, mb := 10, bias := 15, kind := 0 }
def fpE2M1 : FpFmt := { eb := 2, mb := 1, bias := 1, kind := 2 }
def fpFP32 : FpFmt := { eb := 8, mb := 23, bias := 127, kind := 0 }

/-- The value of a code of a format. -/
def fpDecode (f : FpFmt) (v : Nat) : Fv :=
  let man := v % 2 ^ f.mb
  let ex := v / 2 ^ f.mb % 2 ^ f.eb
  let neg := decide (v / 2 ^ (f.mb + f.eb) % 2 = 1)
  let top := decide (ex = 2 ^ f.eb - 1)
  if f.kind = 0 ∧ top = true then (if man = 0 then .inf neg else .nan)
  else if f.kind = 1 ∧ top = true ∧ man = 2 ^ f.mb - 1 then .nan
  else if ex = 0 then .fin neg man (1 - (f.bias : Int) - f.mb)
  else .fin neg (man + 2 ^ f.mb) ((ex : Int) - f.bias - f.mb)

/-- Rounding modes. -/
inductive Rnd where
  | even | zero
  deriving DecidableEq, Repr

/-- A magnitude m·2^e at the grid 2^g, rounded: the integer multiple of 2^g. -/
def toGrid (r : Rnd) (m : Nat) (e g : Int) : Nat :=
  if g ≤ e then m * 2 ^ (e - g).toNat
  else
    let k := (g - e).toNat
    let q := m / 2 ^ k
    let rem := m % 2 ^ k
    match r with
    | .zero => q
    | .even => if 2 * rem < 2 ^ k then q else if 2 ^ k < 2 * rem then q + 1 else q + q % 2

/-- The grid of a nonzero magnitude in a format: the weight of its last mantissa bit. -/
def gridOf (f : FpFmt) (m : Nat) (e : Int) : Int :=
  max (e + (Nat.log2 m : Nat) - (f.mb : Nat)) (1 - (f.bias : Int) - (f.mb : Nat))

/-- The largest finite magnitude of a format, as a multiple of its largest grid, and that grid. -/
def fpMax (f : FpFmt) : Nat × Int :=
  let topE : Int := (2 ^ f.eb - (if f.kind = 0 then 2 else 1) : Nat) - (f.bias : Int)
  (2 ^ (f.mb + 1) - (if f.kind = 1 then 2 else 1), topE - (f.mb : Nat))

/-- Whether m·2^e exceeds n·2^g. -/
def magGt (m : Nat) (e : Int) (n : Nat) (g : Int) : Bool :=
  let lo := min e g
  decide (n * 2 ^ (g - lo).toNat < m * 2 ^ (e - lo).toNat)

/-- A value rounded to a format; beyond its range infinity, or with `sat` the largest finite value (R150). -/
def fpRound (f : FpFmt) (r : Rnd) (sat : Bool) : Fv → Fv
  | .nan => .nan
  | .inf n => if sat then .fin n (fpMax f).1 (fpMax f).2 else .inf n
  | .fin n m e =>
    if m = 0 then .fin n 0 0
    else
      let g := gridOf f m e
      let q := toGrid r m e g
      if magGt q g (fpMax f).1 (fpMax f).2 then
        (if sat || decide (r = .zero) then .fin n (fpMax f).1 (fpMax f).2 else .inf n)
      else .fin n q g

/-- The code of a value that the format holds exactly; `nanCode` is written for NaN. -/
def fpEncode (f : FpFmt) (nanCode : Nat) (v : Fv) : Nat :=
  let sign (n : Bool) : Nat := if n then 2 ^ (f.mb + f.eb) else 0
  match v with
  | .nan => nanCode
  | .inf n => sign n + (2 ^ f.eb - 1) * 2 ^ f.mb
  | .fin n m e =>
    if m = 0 then sign n
    else
      let g := gridOf f m e
      let q := toGrid .zero m e g
      if q < 2 ^ f.mb then sign n + q
      else
        let ex := (g + (f.mb : Nat) + (f.bias : Int)).toNat
        sign n + ex * 2 ^ f.mb + q % 2 ^ f.mb

/-- The FP32 value of 32 bits, and the bits of an FP32 value; the NaN the device produces is 0x7FC0_0000 (R147). -/
def f32 (v : Nat) : Fv := fpDecode fpFP32 v
def f32Bits (v : Fv) : Nat := fpEncode fpFP32 0x7FC00000 v

/-- A signed integer as an exact value. -/
def fvInt (v : Int) : Fv := .fin (decide (v < 0)) v.natAbs 0

/-- The signed mantissa of a finite value at the exponent g ≤ e. -/
def signedAt (n : Bool) (m : Nat) (e g : Int) : Int :=
  if n then -((m * 2 ^ (e - g).toNat : Nat) : Int) else ((m * 2 ^ (e - g).toNat : Nat) : Int)

/-- Exact product (R143). -/
def fvMul : Fv → Fv → Fv
  | .nan, _ => .nan
  | _, .nan => .nan
  | .inf a, .inf b => .inf (a != b)
  | .inf a, .fin b m _ => if m = 0 then .nan else .inf (a != b)
  | .fin a m _, .inf b => if m = 0 then .nan else .inf (a != b)
  | .fin a m e, .fin b n g => .fin (a != b) (m * n) (e + g)

/-- Exact sum of two values. -/
def fvAdd : Fv → Fv → Fv
  | .nan, _ => .nan
  | _, .nan => .nan
  | .inf a, .inf b => if a = b then .inf a else .nan
  | .inf a, .fin _ _ _ => .inf a
  | .fin _ _ _, .inf b => .inf b
  | .fin a m e, .fin b n g =>
    if m = 0 ∧ n = 0 then .fin (a && b) 0 0
    else
      let lo := min e g
      let t := signedAt a m e lo + signedAt b n g lo
      .fin (decide (t < 0)) t.natAbs lo

/-- Negation. -/
def fvNeg : Fv → Fv
  | .nan => .nan
  | .inf n => .inf (!n)
  | .fin n m e => .fin (!n) m e

/-- FP32 operations that round towards zero (the epilogue and the BRU: R149, R171). -/
def fAddZ (a b : Fv) : Fv := fpRound fpFP32 .zero false (fvAdd a b)
def fSubZ (a b : Fv) : Fv := fAddZ a (fvNeg b)
def fMulZ (a b : Fv) : Fv := fpRound fpFP32 .zero false (fvMul a b)

/-- A value divided by a positive whole number, towards zero (R155). -/
def fDivNat (a : Fv) (k : Nat) : Fv :=
  match a with
  | .fin n m e => fpRound fpFP32 .zero false (.fin n (m * 2 ^ 200 / k) (e - 200))
  | v => v

/-- Order of two values; a NaN compares with nothing. -/
def fvLt : Fv → Fv → Bool
  | .nan, _ => false
  | _, .nan => false
  | .inf a, .inf b => a && !b
  | .inf a, .fin _ _ _ => a
  | .fin _ _ _, .inf b => !b
  | .fin a m e, .fin b n g => let lo := min e g; decide (signedAt a m e lo < signedAt b n g lo)

/-- Whether a value is NaN. -/
def isNan : Fv → Bool
  | .nan => true
  | _ => false

/-- Not less, both numbers. -/
def fvLe (a b : Fv) : Bool := !isNan a && !isNan b && !fvLt b a

/-- Limited to [lo, hi]; a NaN passes unchanged (R155). -/
def fvClamp (lo hi v : Fv) : Fv := if fvLt v lo then lo else if fvLt hi v then hi else v

/-- A value converted towards minus infinity to an integer range; NaN gives 0, infinities saturate (R149). -/
def fvFloorSat (bits : Nat) (v : Fv) : Int :=
  let m : Int := (2 ^ (bits - 1) : Nat)
  match v with
  | .nan => 0
  | .inf n => if n then -m else m - 1
  | .fin n k e =>
    let whole : Int := if 0 ≤ e then signedAt n k e 0
      else (if n then -((k : Nat) : Int) else ((k : Nat) : Int)) / ((2 ^ (-e).toNat : Nat) : Int)
    clampI (-m) (m - 1) whole

/-- The largest of two values as the device takes it: any NaN gives NaN (R167). -/
def fvMax (a b : Fv) : Fv := if isNan a || isNan b then .nan else if fvLt a b then b else a

/-! ### Sums in an open order (R145, R147, R155, R157) -/

/-- The exponent of the last set bit of a nonzero magnitude. -/
def lastBit : Nat → Nat → Int → Int
  | 0, _, e => e
  | fuel + 1, m, e => if m % 2 = 0 then lastBit fuel (m / 2) (e + 1) else e

/-- A finite value with its trailing zeros taken into the exponent. -/
def fvTight : Fv → Fv
  | .fin n m e => if m = 0 then .fin n 0 0 else (let g := lastBit (m.log2 + 1) m e; .fin n (m / 2 ^ (g - e).toNat) g)
  | v => v

/-- Whether a value is not a zero. -/
def fvNonzero : Fv → Bool
  | .fin _ m _ => decide (m ≠ 0)
  | _ => true

/-- The terms added pair by pair until one is left, each addition rounded: `order` says at each turn which two are added, and
so stands for every order and every grouping of the additions. -/
def sumInOrder (r : Rnd) (order : Nat → Nat) : Nat → List Fv → Fv
  | 0, ts => ts.headD (.fin false 0 0)
  | fuel + 1, ts =>
    match ts with
    | [] => .fin false 0 0
    | [a] => fpRound fpFP32 r false a
    | _ =>
      let i := order fuel % ts.length
      let rest := ts.eraseIdx i
      let j := order fuel / ts.length % rest.length
      sumInOrder r order fuel
        (fpRound fpFP32 r false (fvAdd (ts.getD i .nan) (rest.getD j .nan)) :: rest.eraseIdx j)

/-- The sum of several FP32 terms formed by additions that round, in the order `order`. Where all partial sums of every order
are FP32 values, the order does not matter and the sum is taken at once; a NaN, and infinities of both signs, give NaN in
every order. -/
def fpSumOf (r : Rnd) (order : Nat → Nat) (ts : List Fv) : Fv :=
  if ts.any isNan then .nan
  else if ts.any (fun t => t = .inf true) && ts.any (fun t => t = .inf false) then .nan
  else
    let nz := (ts.filter fvNonzero).map fvTight
    let fins := nz.filter (fun t => match t with | .fin _ _ _ => true | _ => false)
    let es : List Int := fins.map (fun t => match t with | .fin _ _ e => e | _ => 0)
    let lo : Int := es.foldl min (es.headD 0)
    let span : Nat := (fins.map (fun t => match t with | .fin n m e => (signedAt n m e lo).natAbs | _ => 0)).foldl (· + ·) 0
    let exact := decide (span < 2 ^ 24) && decide ((-149 : Int) ≤ lo) && !magGt span lo (fpMax fpFP32).1 (fpMax fpFP32).2
    if exact then
      match nz with
      | [] => ts.foldl fvAdd (ts.headD (.fin false 0 0))
      | a :: t => t.foldl fvAdd a
    else sumInOrder r order ts.length ts

end Sys2Proof.Machine
end

