-- ==== Sys2Proof/Machine/AddrMap.lean ====
section
/-!
DEFINITION. Sys2Proof/Machine/AddrMap.lean: the physical address map (R32 to R36, R88, R140, R269) and the register
tables of every block: which bits a write sets, which bits a written 1 clears, the reset word (R13).
-/
namespace Sys2Proof.Machine

/-- The control blocks of R34. -/
inductive Blk where
  | intake (p : Nat) | front | dma | flags | time | mbox | power | bru | bridge | network | iommu | faults | smi
  deriving DecidableEq, Repr

/-- Where an address lies (R32, R34). -/
inductive Loc where
  | ddr | shm (slice off : Nat) | tile (n off : Nat) | core (n off : Nat) | block (b : Blk) (off : Nat)
  | pcm (off : Nat) | aperture (off : Nat) | nowhere
  deriving DecidableEq, Repr

def ddrTop : Nat := 0x2000000000
def shmBase : Nat := 0x2000000000
def tileBase (n : Nat) : Nat := 0x2100000000 + n * 0x400000
def coreBase (n : Nat) : Nat := 0x2200000000 + n * 0x400000
def ctlBase : Nat := 0x2300000000
def intakeBase (p : Nat) : Nat := 0x2300000000 + p * 0x10000
def frontBase : Nat := 0x2300100000
def dmaBase : Nat := 0x2300300000
def flagBase : Nat := 0x2300400000
def timeBase : Nat := 0x2300500000
def mboxBase (c : Nat) : Nat := 0x2300600000 + c * 0x2000
def powerBase : Nat := 0x2300700000
def bruBase : Nat := 0x2300800000
def bridgeBase : Nat := 0x2300900000
def networkBase : Nat := 0x2300A00000
def iommuBase : Nat := 0x2300B00000
def faultBase : Nat := 0x2300C00000
def smiBase : Nat := 0x2300D00000
def pcmBase : Nat := 0x2301000000
def apertureBase : Nat := 0x2400000000

/-- Register addresses of the blocks. -/
def gtReg (n off : Nat) : Nat := tileBase n + 0x3F0000 + off
def ecReg (n off : Nat) : Nat := coreBase n + 0x3F0000 + off
def dmReg (chan off : Nat) : Nat := dmaBase + (chan / 32) * 0x10000 + (chan % 32) * 0x100 + off
def plReg (stream off : Nat) : Nat := frontBase + stream * 0x100 + off
def clReg (stream off : Nat) : Nat := frontBase + 0x4000 + stream * 0x100 + off
def slotReg (i off : Nat) : Nat := timeBase + 0x1000 + i * 0x20 + off
def queueReg (q off : Nat) : Nat := timeBase + 0x8000 + q * 0x20 + off
def winReg (w off : Nat) : Nat := bridgeBase + 0x8000 + w * 0x20 + off
def smReg (off : Nat) : Nat := smiBase + 0x200000 + off

/-- The place of an address in the map. -/
def locate (a : Nat) : Loc :=
  if a < ddrTop then .ddr
  else if a < 0x2004000000 then .shm ((a - shmBase) / 0x400000) ((a - shmBase) % 0x400000)
  else if a < 0x2100000000 then .nowhere
  else if a < 0x2112000000 then .tile ((a - 0x2100000000) / 0x400000) ((a - 0x2100000000) % 0x400000)
  else if a < 0x2200000000 then .nowhere
  else if a < 0x2202000000 then .core ((a - 0x2200000000) / 0x400000) ((a - 0x2200000000) % 0x400000)
  else if a < 0x2300000000 then .nowhere
  else if a < frontBase then .block (.intake ((a - ctlBase) / 0x10000)) ((a - ctlBase) % 0x10000)
  else if a < dmaBase then .block .front (a - frontBase)
  else if a < flagBase then .block .dma (a - dmaBase)
  else if a < timeBase then .block .flags (a - flagBase)
  else if a < 0x2300600000 then .block .time (a - timeBase)
  else if a < powerBase then .block .mbox (a - 0x2300600000)
  else if a < bruBase then .block .power (a - powerBase)
  else if a < bridgeBase then .block .bru (a - bruBase)
  else if a < networkBase then .block .bridge (a - bridgeBase)
  else if a < iommuBase then .block .network (a - networkBase)
  else if a < faultBase then .block .iommu (a - iommuBase)
  else if a < smiBase then .block .faults (a - faultBase)
  else if a < pcmBase then .block .smi (a - smiBase)
  else if a < 0x2302000000 then .pcm (a - pcmBase)
  else if a < apertureBase then .nowhere
  else if a < 0x3400000000 then .aperture (a - apertureBase)
  else .nowhere

/-- One register of a table: bits a write sets, bits a written 1 clears, the reset word, whether it is an RO counter with
the clearing write of R13, whether it is a word of a table memory (R88), held as bytes. -/
structure RegSpec where
  rw : Nat := 0
  w1c : Nat := 0
  reset : Nat := 0
  counter : Bool := false
  table : Bool := false
  deriving DecidableEq, Repr

/-- Port registers (R62). -/
def intakeSpec (off : Nat) : Option RegSpec :=
  match off with
  | 0x0000 => some { rw := 0xFFF37, reset := 0x20000 }
  | 0x0004 => some { w1c := 0x3C }
  | 0x0008 => some { rw := 0xFFF1F, reset := 0xE414 }
  | 0x0010 => some { rw := 0xFFFF3FFF, reset := 0x4BB81000 }
  | 0x0014 => some { rw := 0xFFFF }
  | 0x0018 => some { rw := 0xFFFFFF, reset := 0xC350 }
  | 0x001C => some { rw := 0xFFFFFFFF }
  | 0x0020 => some { rw := 0xFFFF }
  | 0x0024 => some { rw := 0xFFFFFFFF }
  | 0x0028 => some { rw := 0xFFFF }
  | 0x002C => some { rw := 0xFFFF, reset := 0x64 }
  | 0x0030 => some {}
  | 0x0034 => some { rw := 0x9F }
  | 0x0038 => some { rw := 0xF }
  | 0x0200 => some { rw := 0xFFFFF7 }
  | o =>
    if 0x40 ≤ o ∧ o < 0x80 ∧ o % 4 = 0 then some { rw := 0xFFFFF }
    else if 0x100 ≤ o ∧ o ≤ 0x118 ∧ o % 4 = 0 then some { counter := true }
    else none

/-- Offsets of the banked port registers (R62). -/
def intakeBanked (off : Nat) : Bool :=
  off = 0x00 || off = 0x04 || off = 0x10 || off = 0x14 || off = 0x18 || off = 0x1C || off = 0x20 || off = 0x24
    || off = 0x2C || off = 0x34

/-- Per-stream Plate registers (R88). -/
def plateSpec (o : Nat) : Option RegSpec :=
  match o with
  | 0x00 => some { rw := 0xF1FF, reset := 2 }
  | 0x04 => some {}
  | 0x08 => some { w1c := 6 }
  | 0x30 => some { rw := 0xFFFFFF, reset := 0xFFFFF }
  | 0x34 => some { rw := 0xFFFFFF, reset := 0xFFFFF }
  | 0x38 => some { rw := 0xFFFFF, reset := 0x100 }
  | 0x3C => some { rw := 0xFFFFF, reset := 0x100 }
  | 0x40 => some { rw := 0x1FFFFF }
  | 0x44 => some { rw := 0x3FFFFF }
  | 0x48 => some { rw := 0x3FF, reset := 0x90 }
  | 0x50 => some { rw := 0xFFFFFFFF, reset := 0xFFFF8200 }
  | 0x54 => some { rw := 0x1FFF1FFF, reset := 0x400040 }
  | 0x58 => some { rw := 0xFFFFFFC0 }
  | 0x5C => some { rw := 0xFF }
  | 0x60 => some { rw := 0x1FFF, reset := 1 }
  | 0x64 => some {}
  | 0x68 => some {}
  | 0x6C => some { rw := 0xFFFF }
  | 0x80 => some { counter := true }
  | 0x84 => some { counter := true }
  | 0x88 => some { counter := true }
  | o => if 0x10 ≤ o ∧ o < 0x28 ∧ o % 4 = 0 then some { rw := 0xFFFFFFFF } else none

/-- Per-stream colour registers (R88). -/
def colourSpec (o : Nat) : Option RegSpec :=
  match o with
  | 0x00 => some { rw := 0x1FFF, reset := 0x280 }
  | 0x04 => some {}
  | 0x08 => some { w1c := 6 }
  | 0x10 => some { rw := 0xFFFFFFFF, reset := 0x10001000 }
  | 0x14 => some { rw := 0xFFFF, reset := 0x1000 }
  | 0x60 => some { rw := 0xFFFFFF, reset := 0x10000 }
  | 0x64 => some { rw := 0xFFFFFF, reset := 0x10000 }
  | 0x68 => some { rw := 0x3FFF3FFF }
  | o =>
    if 0x20 ≤ o ∧ o < 0x50 ∧ o % 4 = 0 then
      some { rw := 0xFFFF, reset := if o = 0x20 ∨ o = 0x34 ∨ o = 0x48 then 0x1000 else 0 }
    else none

/-- The Plate, colour and statistics block (R88). -/
def frontSpec (off : Nat) : Option RegSpec :=
  if off < 0x2000 then plateSpec (off % 0x100)
  else if off < 0x2010 then (if off % 4 = 0 then some {} else none)
  else if 0x4000 ≤ off ∧ off < 0x6000 then colourSpec (off % 0x100)
  else if off = 0x6000 ∨ off = 0x7000 then some {}
  else if 0x10000 ≤ off ∧ off < 0x50000 then
    let o := off % 0x1000
    if o / 0x500 < 3 ∧ o % 0x500 ≤ 0x400 ∧ o % 4 = 0 then some { rw := 0xFFFFF, table := true } else none
  else if 0x80000 ≤ off ∧ off < 0x100000 then
    if off % 0x2000 < 0x1800 ∧ off % 4 = 0 then some { rw := 0xFFFFFFFF, table := true } else none
  else if 0x100000 ≤ off ∧ off < 0x200000 then
    let o := off % 0x4000
    if o < 65 * 132 ∧ o % 4 = 0 then
      some { rw := if o % 132 = 128 then 0xFFFF else 0xFFFFFFFF, table := true }
    else none
  else none

/-- DMA channel, cluster and line registers (R269). A line's credit register follows its binding (DEDUCED, log 9). -/
def dmaSpec (off : Nat) : Option RegSpec :=
  if off < 0x40000 then
    let o := off % 0x10000
    if o < 0x2000 then
      match o % 0x100 with
      | 0x00 => some { rw := 0x20 }
      | 0x04 => some { w1c := 0x60000 }
      | 0x08 => some { rw := 0xFFFFFFC0 }
      | 0x0C => some { rw := 0xFF }
      | 0x10 => some { rw := 0x3FF3F }
      | 0x14 => some { rw := 0x7F, reset := 0x40 }
      | 0x18 => some { rw := 0xFFFFFF, reset := 0x2710 }
      | r => if (0x1C ≤ r ∧ r ≤ 0x34 ∨ 0x40 ≤ r ∧ r ≤ 0x4C) ∧ r % 4 = 0 then some {} else none
    else if o = 0x8000 then some {}
    else none
  else if off < 0x40800 then
    if off % 8 = 0 then some { rw := 0xFF } else if off % 8 = 4 then some {} else none
  else none

/-- Tile registers (R140, R153). -/
def tileSpec (o : Nat) : Option RegSpec :=
  match o with
  | 0x0000 => some { rw := 0xC }
  | 0x0004 => some { w1c := 0x160000 }
  | 0x0008 => some { rw := 0x3FFF }
  | 0x000C => some {}
  | 0x0010 => some { rw := 0x7FFF3F, reset := 0x7F0000 }
  | 0x0014 => some { rw := 0xFFFFFF, reset := 0x2710 }
  | 0x0018 => some { reset := 0xF }
  | 0x001C => some { reset := 0x200 }
  | 0x0180 => some { rw := 2 }
  | o =>
    if o % 4 ≠ 0 then none
    else if 0x80 ≤ o ∧ o < 0x158 then some {}
    else if 0x800 ≤ o ∧ o < 0x1000 then some { rw := if o % 16 = 12 then 0x3F else 0xFFFFFFFF }
    else none

/-- Core registers (R224). -/
def coreSpec (o : Nat) : Option RegSpec :=
  match o with
  | 0x0000 => some { rw := 4 }
  | 0x0004 => some { w1c := 0x60000 }
  | 0x0008 => some { rw := 0x1FFF }
  | 0x000C => some {}
  | 0x0010 => some { rw := 0xF003F, reset := 0xF0000 }
  | 0x0014 => some { rw := 0xFFFFFF, reset := 0x2710 }
  | 0x0018 => some { reset := 3 }
  | 0x0180 => some { rw := 2 }
  | o =>
    if o % 4 ≠ 0 then none
    else if 0x40 ≤ o ∧ o < 0x60 ∨ 0x100 ≤ o ∧ o < 0x140 then some {}
    else none

/-- Device-time and launch registers (R316). -/
def timeSpec (off : Nat) : Option RegSpec :=
  if off < 0x1000 then
    match off with
    | 0x00 => some {}
    | 0x04 => some {}
    | 0x08 => some { rw := 3 }
    | 0x0C => some {}
    | 0x10 => some { rw := 0xFFFFFFFF }
    | 0x20 => some {}
    | _ => none
  else if off < 0x3000 then
    match off % 0x20 with
    | 0x00 => some { rw := 0xFFFFFFFF }
    | 0x04 => some { rw := 0xFFFFFFFF }
    | 0x08 => some { rw := 0x2007FFFF }
    | 0x0C => some { rw := 0xFFFFFFFF }
    | 0x10 => some { rw := 0xFFFFFFFF }
    | 0x14 => some { w1c := 6 }
    | _ => none
  else if 0x8000 ≤ off ∧ off < 0xC000 then
    match off % 0x20 with
    | 0x00 => some { rw := 0xFFFFFFC0 }
    | 0x04 => some { rw := 0xFF }
    | 0x08 => some { rw := 0x803F1FFF, reset := 1 }
    | 0x0C => some { rw := 0xFFFFFFFF }
    | 0x10 => some {}
    | 0x14 => some {}
    | 0x18 => some { rw := 0xFFFFFF, reset := 0x2710 }
    | _ => none
  else none

/-- Power and energy registers (R394). -/
def powerSpec (off : Nat) : Option RegSpec :=
  if off % 4 ≠ 0 then none
  else if off < 0xC0 then
    some { rw := 1, reset := if off = 172 ∨ off = 180 ∨ off = 184 ∨ off = 188 then 1 else 0 }
  else if 0x100 ≤ off ∧ off < 0x1C0 then some {}
  else if 0x200 ≤ off ∧ off < 0x2D0 then some {}
  else if 0x400 ≤ off ∧ off < 0x600 then some {}
  else if 0x600 ≤ off ∧ off < 0x700 then some { rw := 0xF03FF, reset := 0x303E8 }
  else if 0x700 ≤ off ∧ off < 0x800 then some {}
  else if off = 0x800 then some { rw := 0x1FFFF, reset := 0x186A0 }
  else if 0x900 ≤ off ∧ off < 0x960 then some {}
  else if off = 0xA00 then some {}
  else none

/-- BRU and Stipple registers (R179, R185). -/
def bruSpec (off : Nat) : Option RegSpec :=
  match off with
  | 0x0000 => some { rw := 0xFFFFFFC0 }
  | 0x0004 => some { rw := 0xFF }
  | 0x0008 => some {}
  | 0x0010 => some { w1c := 0x80 }
  | 0x0014 => some { rw := 0xFFFFFF, reset := 0x2710 }
  | 0x0020 => some { counter := true }
  | 0x0024 => some { counter := true }
  | 0x8000 => some {}
  | 0x8010 => some { counter := true }
  | 0x8014 => some { counter := true }
  | 0x8018 => some { counter := true }
  | 0x801C => some { counter := true }
  | o => if 0x100 ≤ o ∧ o < 0x200 ∧ o % 4 = 0 then some {} else none

/-- Bridge registers (R358). -/
def bridgeSpec (off : Nat) : Option RegSpec :=
  if off < 0x400 then
    match off % 0x100 with
    | 0x00 => some { rw := 2 }
    | 0x04 => some {}
    | 0x10 => some {}
    | 0x14 => some {}
    | 0x18 => some {}
    | 0x1C => some {}
    | _ => none
  else if 0x8000 ≤ off ∧ off < 0xA000 then
    match off % 0x20 with
    | 0x00 => some { rw := 0x3FFF000F }
    | 0x04 => some { rw := 0x7FFF }
    | 0x08 => some { rw := 0xFFFF }
    | 0x0C => some { rw := 0xFFFFFFFF }
    | _ => none
  else if off = 0xF000 then some { reset := 0x3FFF }
  else none

/-- IOMMU registers (R286). -/
def iommuSpec (off : Nat) : Option RegSpec :=
  match off with
  | 0x00 => some { rw := 1 }
  | 0x08 => some { rw := 0xFFFFF000 }
  | 0x0C => some { rw := 0xFF }
  | 0x10 => some {}
  | 0x14 => some { rw := 0xFFFFFFF }
  | 0x18 => some {}
  | 0x20 => some {}
  | _ => none

/-- Fault collector registers (R443). -/
def faultSpec (off : Nat) : Option RegSpec :=
  if off = 0x08 then some { rw := 0xFFFFFFFF }
  else if off = 0x00 ∨ off = 0x04 ∨ off = 0x0C then some {}
  else if 0x100 ≤ off ∧ off < 0x280 ∧ off % 4 = 0 then some {}
  else if 0x10000 ≤ off ∧ off < 0x30000 ∧ off % 4 = 0 then some {}
  else none

/-- SMI registers and window (R362, R379). -/
def smiSpec (off : Nat) : Option RegSpec :=
  if off < 0x40000 ∧ off % 4 = 0 then some { table := true }
  else if 0x100000 ≤ off ∧ off < 0x141000 ∧ off % 4 = 0 then some { table := true }
  else match off with
    | 0x200000 => some { reset := 1 }
    | 0x200004 => some {}
    | 0x200008 => some {}
    | 0x20000C => some { w1c := 3 }
    | 0x200010 => some { rw := 0x7F }
    | 0x200020 => some {}
    | 0x200024 => some {}
    | 0x200028 => some {}
    | _ => none

/-- Mailbox registers and buffers (R338). -/
def mboxSpec (off : Nat) : Option RegSpec :=
  if 0x20000 ≤ off then none
  else
    let o := off % 0x2000
    if o < 0x1000 ∧ o % 4 = 0 then some { rw := 0xFFFFFFFF, table := true }
    else match o with
      | 0x1000 => some {}
      | 0x1004 => some { w1c := 8 }
      | 0x1008 => some { rw := 0xFF }
      | _ => none

/-- The register at a place, none where the place holds no register (R35). -/
def regSpec : Loc → Option RegSpec
  | .tile _ off => if 0x3F0000 ≤ off then tileSpec (off - 0x3F0000) else none
  | .core _ off => if 0x3F0000 ≤ off then coreSpec (off - 0x3F0000) else none
  | .pcm off => if off % 4 = 0 then some { rw := 0xFFFFFFFF, table := true } else none
  | .block (.intake _) off => intakeSpec off
  | .block .front off => frontSpec off
  | .block .dma off => dmaSpec off
  | .block .flags off => if off < 0x40000 ∧ off % 4 = 0 then some { rw := 0xFFFFFFFF } else none
  | .block .time off => timeSpec off
  | .block .mbox off => mboxSpec off
  | .block .power off => powerSpec off
  | .block .bru off => bruSpec off
  | .block .bridge off => bridgeSpec off
  | .block .network _ => none
  | .block .iommu off => iommuSpec off
  | .block .faults off => faultSpec off
  | .block .smi off => smiSpec off
  | .ddr => none
  | .shm _ _ => none
  | .aperture _ => none
  | .nowhere => none

/-- The reset word of the register at a physical address (R13). -/
def regReset (a : Nat) : Word :=
  match regSpec (locate a) with
  | some r => BitVec.ofNat 32 r.reset
  | none => 0

/-- The key of a banked port register in the register file (R62): above the 40-bit map. -/
def bankKey (p k off : Nat) : Nat := 2 ^ 40 + (p * 16 + k) * 0x1000 + off

/-- The reset word of a key of the register file. -/
def keyReset (key : Nat) : Word :=
  if key < 2 ^ 40 then regReset key else regReset (intakeBase 0 + (key - 2 ^ 40) % 0x1000)

/-- Whether a place lies in a register window: the windows R12 binds to full aligned 32-bit accesses. -/
def inRegWindow : Loc → Bool
  | .tile _ off => decide (0x3F0000 ≤ off)
  | .core _ off => decide (0x3F0000 ≤ off)
  | .pcm _ => true
  | .block .smi off => decide (0x140000 ≤ off)
  | .block .mbox off => decide (0x1000 ≤ off % 0x2000)
  | .block _ _ => true
  | .ddr => false
  | .shm _ _ => false
  | .aperture _ => false
  | .nowhere => false

end Sys2Proof.Machine
end

