-- ==== Sys2Proof/Machine/Tbl.lean ====
section
/-!
DEFINITION. Sys2Proof/Machine/Tbl.lean: sparse tables as plain data.
A table is a list of (key, value) pairs; a key it does not list has the default its owner names.
Its canonical form has strictly rising keys and lists no default, so that equal contents are equal data.
-/
namespace Sys2Proof.Machine

/-- A sparse table of values by natural key. -/
abbrev Tbl (α : Type) := List (Nat × α)

/-- The value at `k`, `d` where the table lists none. -/
def tget {α : Type} (d : α) : Tbl α → Nat → α
  | [], _ => d
  | (a, v) :: t, k => if k = a then v else tget d t k

/-- The table with `v` at `k`; writing the default removes the entry. -/
def tset {α : Type} [DecidableEq α] (d : α) : Tbl α → Nat → α → Tbl α
  | [], k, v => if v = d then [] else [(k, v)]
  | (a, w) :: t, k, v =>
    if k = a then (if v = d then tset d t k d else (k, v) :: t)
    else if v = d then (a, w) :: tset d t k d
    else if k < a then (k, v) :: (a, w) :: t
    else (a, w) :: tset d t k v

/-- Every key of the table is at least `lo`, keys rise strictly, and no entry equals its default. -/
def twfFrom {α : Type} [DecidableEq α] (d : Nat → α) (lo : Nat) : Tbl α → Bool
  | [] => true
  | (a, v) :: t => decide (lo ≤ a) && decide (v ≠ d a) && twfFrom d (a + 1) t

/-- The canonical form, for a default that may depend on the key. -/
def twf {α : Type} [DecidableEq α] (d : Nat → α) (t : Tbl α) : Bool := twfFrom d 0 t

end Sys2Proof.Machine
end

