-- ==== Sys2Proof/Machine/Mem.lean ====
section
/-!
DEFINITION. Sys2Proof/Machine/Mem.lean: the bytes of the addressed memories (R12, R32), as one list of (physical
address, byte) in canonical form: addresses strictly rising, no entry equal to 0, which an unlisted byte reads as
(DESIGN CHOICE, log 2).
-/
namespace Sys2Proof.Machine

/-- The bytes of the addressed memories. -/
abbrev Memory := List Host.Cell

/-- The canonical form of a memory. -/
abbrev Memory.wf (m : Memory) : Bool := twf (fun _ => (0 : BitVec 8)) m

/-- The byte at an address. -/
def memByte (m : Memory) (a : Nat) : Byte := tget (0 : BitVec 8) m a

/-- The memory with a byte written. -/
def memPut (m : Memory) (a : Nat) (b : Byte) : Memory := tset (0 : BitVec 8) m a b

/-- The `n` bytes from an address on. -/
def memBytes (m : Memory) (a n : Nat) : List Byte := (List.range n).map (fun i => memByte m (a + i))

/-- The little-endian number in the `n` bytes from an address on (R12). -/
def memNum (m : Memory) (a n : Nat) : Nat := leNat (memBytes m a n)

/-- The cells of a byte string from an address on, zero bytes left out. -/
def memCells : Nat → List Byte → Memory
  | _, [] => []
  | a, b :: t => if b = 0 then memCells (a + 1) t else (a, b) :: memCells (a + 1) t

/-- The memory with a byte string written from an address on. -/
def memStore (m : Memory) (a : Nat) (bs : List Byte) : Memory :=
  m.filter (fun c => c.1 < a) ++ memCells a bs ++ m.filter (fun c => a + bs.length ≤ c.1)

/-- The memory with `n` bytes from an address on cleared (R293: a scrub writes zeros). -/
def memClear (m : Memory) (a n : Nat) : Memory := m.filter (fun c => c.1 < a || a + n ≤ c.1)

/-- The memory with scattered bytes written in order. -/
def memScatter : Memory → List (Nat × List Byte) → Memory
  | m, [] => m
  | m, (a, bs) :: t => memScatter (memStore m a bs) t

end Sys2Proof.Machine
end

