-- ==== Sys2Proof/Machine/State.lean ====
section
/-!
DEFINITION. Sys2Proof/Machine/State.lean: everything the spec gives the SZ4880 to hold, as plain data.

Register words (RW fields, W1C and other sticky bits, 32-bit counters) live in ONE sparse table `regs`, keyed by physical
address (R32 to R34), a register's reset word being what an unlisted key reads as (Sys2Proof.Machine.regReset).
Bytes of the addressed memories (DDR5, SHM, tile and core memories, Plate and colour tables, PCM, mailbox buffers, SMI
window) live in ONE list `mem` of (address, byte). What a block does on its own is typed below, block by block.
-/
namespace Sys2Proof.Machine

/-! ### Engines -/

/-- States of a Graver tile (R137) and of an Etch core (R218). -/
inductive EngState where
  | idle | running | waiting | stopping | done | error | resetting
  deriving DecidableEq, Repr

/-- States of a DMA channel (R268). -/
inductive ChanState where
  | idle | running | waiting | faulted | stopping | done | error | resetting
  deriving DecidableEq, Repr

/-- An active loop of a tile or DMA program (R121, R251): its level, the word after its step words, the word after its body
(0 for a tile, whose ENDLOOP ends it), its count, the iteration in work and its step words. -/
structure LoopFrame where
  level : Nat
  body : Nat
  stop : Nat
  count : Nat
  iter : Nat
  steps : List (Nat × Int)
  deriving DecidableEq, Repr

/-- A fetch of a tile's fetch unit (R136): source, local destination, rows, bytes issued, whether a translation fault stopped it,
whether it was translated before the invalidation in progress (R286), the tags its bursts hold (at most 32 for a tile), and for a fetch
from a Plate output ring the ring's address and bytes, at whose end it goes on at the ring's start (R95). -/
structure Fetch where
  src : Nat
  dst : Nat
  wm : Bool
  row : Nat
  rows : Nat
  stride : Nat
  issued : Nat
  faulted : Bool
  stale : Bool := false
  tags : Nat := 0
  ring : Option (Nat × Nat) := none
  deriving DecidableEq, Repr

/-- A ROTATE whose transfer has not arrived (R124): the next tile's logical index, WM source, destination, bytes. -/
structure Rotation where
  next : Nat
  src : Nat
  dst : Nat
  bytes : Nat
  deriving DecidableEq, Repr

/-- A Graver tile beside its register words and memories (R114 to R141). `stall` is the stall it counts now: cause and start (R110). -/
structure Tile where
  st : EngState := .idle
  code : Nat := 0
  fault : Bool := false
  pc : Nat := 0
  loops : List LoopFrame := []
  layer : List Word := []
  ran : Nat := 0
  ranFull : Nat := 0
  haltAt : Bool := false
  stall : Option (Nat × Nat) := none
  fetch : List Fetch := []
  ringCredits : Nat := 0
  rotOut : List Rotation := []
  rotDue : List (Nat × Nat) := []
  cnt : Tbl Nat := []
  touched : List Nat := []
  lastRecord : Nat := 0
  deriving DecidableEq, Repr

/-- An active hardware loop of an Etch core (R231): index of its LOOP bundle, its end bundle, remaining count. -/
structure EtchLoop where
  start : Nat
  stop : Nat
  remaining : Nat
  deriving DecidableEq, Repr

/-- An Etch core beside its register words and memories (R209 to R224, R231, R244). `sc` is keyed by the scalar register
numbers of R226, `acc` by 64·accumulator + lane, `ready` by register and holds the cycle from which a reader may issue. -/
structure Core where
  st : EngState := .idle
  code : Nat := 0
  fault : Bool := false
  pc : Nat := 0
  sc : Tbl Word := []
  vec : Tbl VecReg := []
  pred : Tbl PredReg := []
  acc : Tbl (BitVec 48) := []
  loops : List EtchLoop := []
  events : Tbl Nat := []
  cnt : Tbl Nat := []
  cycle : Nat := 0
  ready : Tbl Nat := []
  satSeen : Bool := false
  haltAt : Bool := false
  met : Bool := false
  waitEv : Option Nat := none
  waitFrom : Nat := 0
  stall : Option (Nat × Nat) := none
  touched : List Nat := []
  deriving DecidableEq, Repr

/-- A burst in flight (R246, R253, R254, R286): its position in the MOVE, the physical pieces it reads and writes as
(address, bytes), whether its data has returned and its write been issued, whether its MOVE has completed, whether it was translated
before the invalidation in progress, whether its write met an island held in reset, which answers it (R26), and the I/O pages it was translated
through. -/
structure Burst where
  pos : List Nat
  reads : List (Nat × Nat)
  writes : List (Nat × Nat)
  got : Bool
  old : Bool
  stale : Bool := false
  nack : Bool := false
  pages : List Nat := []
  deriving DecidableEq, Repr

/-- The MOVE a channel is running (R252): its sixteen words with the steps of the active loops added to src, dst and the
event target, the position of the next burst, whether it runs descending (R261), whether every burst has been issued, how
many writes have been acknowledged, whether a write was answered under R26, how many bursts are re-executed (R263), and in
codec mode the element format. -/
structure MoveWork where
  words : List Word
  src : Nat
  dst : Nat
  target : Nat
  cur : List Nat
  down : Bool
  issuedAll : Bool
  nacked : Bool
  redo : Nat
  fmt : Nat
  deriving DecidableEq, Repr

/-- A DMA channel beside its register words (R246 to R270). -/
structure Chan where
  st : ChanState := .idle
  code : Nat := 0
  fault : Bool := false
  pc : Nat := 0
  pos : List Nat := []
  faultAddr : Nat := 0
  faultWrite : Bool := false
  faultFetch : Bool := false
  bytes : Nat := 0
  loops : List LoopFrame := []
  move : Option MoveWork := none
  bursts : List Burst := []
  moves : Nat := 0
  movesFull : Nat := 0
  resuming : Bool := false
  waitFrom : Nat := 0
  deriving DecidableEq, Repr

/-- States of a BRU job slot (R179). -/
inductive BruState where
  | free | waiting | running | done | error
  deriving DecidableEq, Repr

/-- A BRU job slot (R169): its descriptor's 32 words and address, the iteration in work, when its wait was met. -/
structure BruSlot where
  st : BruState := .free
  code : Nat := 0
  done : Nat := 0
  desc : List Word := []
  addr : Nat := 0
  iter : Nat := 0
  metAt : Option Nat := none
  ended : Bool := false
  deriving DecidableEq, Repr

/-- The Box and Rank Unit (R169 to R179): its slots, the running slot, and the output of the running iteration that has not
been written yet (address, bytes without the completion time). -/
structure Bru where
  slots : Tbl BruSlot := []
  running : Option Nat := none
  out : List (Nat × List Byte) := []
  status : Nat := 0
  deriving DecidableEq, Repr

/-! ### Camera intake -/

/-- A stored line with its descriptor (R42, R45, R46). -/
structure Line where
  bank : Nat
  frame : Nat
  exposure : Nat
  row : Nat
  bits : Nat
  stamp : Nat
  flags : Nat
  padded : Bool
  samples : List Nat
  deriving DecidableEq, Repr

/-- A frame of a stream between frame start and close (R45 to R50). `placed` counts the rows placed for each exposure,
`interleave` the packets of line-interleaved rows, `baseLine` is the first line start's number, `lineNo` holds the last line start's
number of each virtual channel, `emb` the embedded data received and `embN` its lines. -/
structure InFrame where
  seq : Nat
  csiNo : Nat
  start : Nat
  flags : Nat
  placed : List Nat
  interleave : Nat
  baseLine : Option Nat
  lineNo : List (Nat × Nat) := []
  padRows : Nat
  tag : Option Nat
  emb : List Nat := []
  embN : Nat := 0
  ended : List Nat := []
  deriving DecidableEq, Repr

/-- What a port keeps for one stream bank (R49, R50, R62). `armed` holds from the Stroke's start to its end (R93). -/
structure Bank where
  armed : Bool := false
  first : Bool := true
  nextSeq : Nat := 0
  lastSeq : Nat := 0
  lastStart : Nat := 0
  frame : Option InFrame := none
  trigs : List (Nat × Nat) := []
  lines : List Line := []
  deriving DecidableEq, Repr

/-- A settings set on its way to the sensor (R57 to R59). -/
structure SetJob where
  ident : Nat
  target : Nat
  values : List (Nat × Nat)
  shifted : Bool
  expoIssued : Bool
  gainIssued : Bool
  status : Nat
  deriving DecidableEq, Repr

/-- A write made on a sensor-control bus (R55 to R57): the sensor's address, its register, the value. -/
structure SensorWrite where
  addr : Nat
  reg : Nat
  value : Nat
  deriving DecidableEq, Repr

/-- A sensor-control bus (R55, R56): its mode, the writes made for the last settings set of one blanking with their retries, the stream,
target and identifier of that set, whether its last write has been retried. -/
structure SensorBus where
  i2c : Bool := false
  made : List SensorWrite := []
  last : Option (Nat × Nat × Nat) := none
  retried : Bool := false
  deriving DecidableEq, Repr

/-! ### Plate, statistics, colour -/

/-- The parameters of a stream latched for its frames or waiting to be (R83): register words by offset. -/
structure Params where
  words : Tbl Word := []
  deriving DecidableEq, Repr

/-- A pending copy (R83): the words, whether it names a frame, the frame, the time of the commit, and the copy it replaced in the same event
tick, which a frame start of that tick still latches. -/
structure PendCopy where
  words : Tbl Word
  atFrame : Bool
  target : Nat
  tick : Nat := 0
  older : Option (Tbl Word × Bool × Nat) := none
  deriving DecidableEq, Repr

/-- A stripe in a Plate pipeline (R52): stream, frame sequence number, intake stripe. -/
structure PlateJob where
  stream : Nat
  frame : Nat
  stripe : Nat
  port : Nat
  bank : Nat
  started : Nat
  deriving DecidableEq, Repr

/-- Statistics collected for one frame (R75, R76): histogram bins, zone sums, pixels counted. -/
structure StatAcc where
  pixels : Nat := 0
  histExp : Tbl Nat := []
  histOut : Tbl Nat := []
  wb : Tbl Nat := []
  focus : Tbl Nat := []
  deriving DecidableEq, Repr

/-- A stripe in a colour stage (R78, R101): stream, stripe number counted across frames, marker or data. -/
structure ColourJob where
  stream : Nat
  stripe : Nat
  frame : Nat
  index : Nat
  marker : Bool
  deriving DecidableEq, Repr

/-! ### Strokes -/

/-- A frame a Stroke carries (R104 to R107). -/
structure FrameRec where
  seq : Nat
  csiNo : Nat
  start : Nat
  close : Option Nat := none
  flags : Nat := 0
  ident : Nat := 0
  padRows : Nat := 0
  dropped : Nat := 0
  plateStart : Option Nat := none
  platedRows : Nat := 0
  colourEnd : Option Nat := none
  admitted : Bool := false
  corrected : Nat := 0
  recorded : Bool := false
  deferredAt : Option Nat := none
  cancelled : Bool := false
  statDone : Bool := false
  waitFrom : Option Nat := none
  timedOut : Bool := false
  plate : Tbl Word := []
  stat : StatAcc := {}
  droppedStripes : List Nat := []
  platedNext : Nat := 0
  stamps : Tbl Nat := []
  deriving DecidableEq, Repr

/-- A row of the Plate output ring (R95, R102). -/
structure RingRow where
  frame : Nat
  row : Nat
  slot : Nat
  missing : Bool
  ready : Bool
  deriving DecidableEq, Repr

/-- A finished stripe in a park buffer of a tile (R100). -/
structure Park where
  stripe : Nat
  buf : Nat
  tile : Nat
  deriving DecidableEq, Repr

/-- A string of a Stroke (R89, R96, R97, R103): the variant it runs, its physical tiles in order, stripes in flight and parked; `passed`
holds for each place how many of the stripes in flight its tile has handed on, `creditAt` since when the first tile holds a free input
credit; `remap` the failed tiles with their replacements, `toVariant` the variant the string takes at its restart (R203, R206). -/
structure Strg where
  index : Nat
  variant : Nat := 0
  tiles : List Nat
  dispatch : Bool
  inFlight : List Nat
  passed : List Nat := []
  parked : List Park
  credits : Nat
  creditAt : Nat := 0
  remap : List (Nat × Nat)
  toVariant : Option (Nat × List Nat) := none
  deriving DecidableEq, Repr

/-- Phases of a stream's Stroke (R90, R93, R111, R112). -/
inductive StrokePhase where
  | created | launching | running | stopping | ended
  deriving DecidableEq, Repr

/-- A stream and its Stroke (R89 to R113). `desc` holds the 64 words of the Stroke descriptor (R91), `options` the LAUNCH_OPTS of its
START_STREAM, `startReply` the request whose reply, with its TLVs, waits until the partitions
it needs are on (R389), `replan` the height, variant and tiles its strings take once they are empty (R206), `chans` the channels that run
the programs which load its tiles before they start (R202). -/
structure Stream where
  ctx : Nat
  sess : Nat
  desc : List Word
  profile : SensorProfile
  bank : Nat
  rate : Nat
  options : Nat
  network : Nat := 0
  startReply : Option (Nat × Nat × List (Nat × List Byte)) := none
  phase : StrokePhase := .created
  variant : Nat := 0
  halo : Nat := 0
  start : Nat := 0
  stopAt : Nat := 0
  stopReq : List (Nat × Nat) := []
  cut : Bool := false
  drain : Bool := false
  drainNext : Option Bool := none
  frames : List FrameRec := []
  framesBegun : Nat := 0
  ring : List RingRow := []
  ringNext : Nat := 0
  strings : List Strg := []
  nextStripe : Nat := 0
  markers : List Nat := []
  head : Nat := 0
  written : Nat := 0
  lost : Nat := 0
  late : Nat := 0
  deferredN : Nat := 0
  completed : Nat := 0
  lastSeq : Nat := 0
  lastRec : Nat := 0
  flagsOr : Nat := 0
  measured : Nat := 0
  measuredAt : Nat := 0
  reserveLeft : Nat := 0
  estimated : Nat := 0
  reserved : Nat := 0
  shmBanks : List Nat := []
  setsDone : List (Nat × Nat) := []
  sets : List SetJob := []
  colourFrame : Option Nat := none
  rsRow : List (List Nat) := []
  rsNext : Nat := 0
  replan : Option (Nat × Nat × List (List Nat)) := none
  chans : List Nat := []
  deriving DecidableEq, Repr

/-! ### Flags, waits, launches, device time -/

/-- An entry of the wait table (R300). `who` is the waiter's source index. -/
structure WaitEntry where
  who : Nat
  flag : Nat
  eq : Bool
  value : Word
  start : Nat
  expiry : Nat
  granted : Bool
  deriving DecidableEq, Repr

/-- A flag update held for a later tick (R297). -/
structure FlagUpd where
  src : Nat
  ctx : Option Nat
  flag : Nat
  add : Bool
  value : Word
  deriving DecidableEq, Repr

/-- Owner and sharers of a flag group (R295); group 0 is Apgil's. -/
structure Group where
  owner : Option Nat := none
  sharers : List Nat := []
  deriving DecidableEq, Repr

/-- A launch slot (R311): armed, next time, occurrences fired. Its registers are register words. -/
structure Slot where
  armed : Bool := false
  next : Nat := 0
  fired : Nat := 0
  deriving DecidableEq, Repr

/-- A hardware queue (R303, R304): WAITING and STOPPED as `DT_Q_STATUS` shows them. -/
inductive QueueState where
  | idle | waiting | stopped
  deriving DecidableEq, Repr

/-- A hardware queue beside its register words. -/
structure Queue where
  st : QueueState := .idle
  code : Nat := 0
  head : Nat := 0
  condMet : Bool := false
  waitFrom : Option Nat := none
  deriving DecidableEq, Repr

/-- States of device time's servo (R316). -/
inductive SyncState where
  | free | acquiring | locked | holdover | stepPending
  deriving DecidableEq, Repr

/-- Device time and the launch block (R306 to R309). `up` counts the nanoseconds of the event ticks since reset, which no step
of device time moves: intervals and timeouts are measured on it. `frac` is the rate trim not yet a whole nanosecond, in 10⁻⁹ ns. -/
structure Clock where
  now : Nat := 0
  up : Nat := 0
  frac : Int := 0
  sync : SyncState := .free
  offset : Int := 0
  pendingStep : Option Int := none
  cancels : List (Nat × Nat) := []
  updates : Nat := 0
  deriving DecidableEq, Repr

/-- A deadlock check that is due (R301): the timed-out waiter, its context, the flag it waited on (none for an event or a
credit). -/
structure Check where
  who : Nat
  ctx : Option Nat
  flag : Option Nat
  deriving DecidableEq, Repr

/-! ### Memory system -/

/-- States of a granule (R287). -/
inductive GranState where
  | clean | owned | dirty | scrubbing | off
  deriving DecidableEq, Repr

/-- Why a granule is held (R290, R291). -/
inductive Hold where
  | keep (ctx since : Nat)
  | snapshot (ctx : Nat) (until' : Nat)
  deriving DecidableEq, Repr

/-- A granule (R287): 64 KiB of a tile or core memory, or one SHM bank. `dirtyAt` orders the scrub (R294). -/
structure Granule where
  st : GranState := .off
  owner : Option Nat := none
  hold : Option Hold := none
  dirtyAt : Nat := 0
  grantWait : Option Nat := none
  deriving DecidableEq, Repr

/-- SHM slice modes (R278). -/
inductive ShmMode where
  | scratch | cacheApp | cacheEng | cacheAll
  deriving DecidableEq, Repr

/-- A line a cache slice holds (R280): the number of its 64 B line of DDR5, and whether it is dirty. Its bytes are those `mem` holds
at that address, since every DDR5 access of any requester goes through the slice (R279; log 48). -/
structure CacheLine where
  line : Nat
  dirty : Bool
  deriving DecidableEq, Repr

/-- An SHM slice: its mode, a mode change in progress (R281), the lines it holds as a cache (R280). -/
structure ShmSlice where
  mode : ShmMode := .scratch
  target : Option ShmMode := none
  lines : List CacheLine := []
  deriving DecidableEq, Repr

/-- A DDR5 channel (R274 to R277, R445). `fast` is the doubled refresh above 85 °C. -/
structure DdrChan where
  selfRefresh : Bool := false
  failed : Bool := false
  patrol : Nat := 0
  patrolHours : Nat := 24
  fast : Bool := false
  rows : Tbl (List Nat) := []
  rowsKept : List Nat := []
  uncorr : List Nat := []
  deriving DecidableEq, Repr

/-- An invalidation in progress (R286). -/
structure Inval where
  ctx : Nat
  all : Bool
  page : Nat
  pages : Nat
  deriving DecidableEq, Repr

/-! ### Fault collector -/

/-- A merge window of one source and code (R440). -/
structure Merge where
  src : Nat
  code : Nat
  since : Nat
  count : Nat
  deriving DecidableEq, Repr

/-- The fault collector (R439 to R443): ring slots as the eight words of their records, counters, merges; events that have reached it, each
with its device time and the ticks' time: `tick` those of this event tick in the order of R441, `held` those of earlier ticks. -/
structure Collector where
  wr : Nat := 0
  rd : Nat := 0
  lost : Nat := 0
  fatal : Bool := false
  ring : Tbl (List Word) := []
  counts : Tbl Nat := []
  merges : List Merge := []
  held : List (FaultEv × Nat × Nat) := []
  tick : List (FaultEv × Nat × Nat) := []
  deriving DecidableEq, Repr

/-! ### Host interface -/

/-- An ACP message the device has sent (R322): where to, its header fields and TLVs. -/
structure Sent where
  sess : Nat
  kind : Nat
  status : Nat
  typ : Nat
  ctx : Nat
  seq : Nat
  tlvs : List (Nat × List Byte)
  dest : Origin := .net 0 0
  deriving DecidableEq, Repr

/-- A gate of a session for one code and source (R443). -/
structure Gate where
  code : Nat
  src : Nat
  sentAt : Nat
  count : Nat
  deriving DecidableEq, Repr

/-- A transfer of chunks (R336): the command it belongs to, its length once known, what has come, the last chunk's time. -/
structure Transfer where
  ident : Nat
  typ : Nat
  ctx : Nat
  length : Option Nat
  chunks : List (Nat × List Byte)
  last : Nat
  deriving DecidableEq, Repr

/-- A session (R328 to R332). -/
structure Session where
  origin : Origin
  hostId : Nat
  major : Nat
  minor : Nat
  mgmtOnly : Bool
  timeout : Nat
  lastReq : Nat
  open' : Bool
  replies : List (Nat × Sent) := []
  executing : List AcpReq := []
  begun : List Nat := []
  noticeSeq : Nat := 0
  notices : List Sent := []
  gates : List Gate := []
  transfers : List Transfer := []
  deriving DecidableEq, Repr

/-- An execution context (R334, R382, R383). -/
structure Context where
  sess : Nat
  consent : Bool := false
  holdMs : Nat := 0
  pendingBudget : Option (Nat × Nat × Bool) := none
  variants : Bool := true
  explicit : Bool := false
  balance : Int := 0
  charged : Nat := 0
  reserved : Nat := 0
  notices : List Sent := []
  noticesLost : Nat := 0
  dbg : Bool := false
  deriving DecidableEq, Repr

/-- A loaded plan package (R186, R188, R384): `kfac` holds, per variant, the last measured and estimated pairs. -/
structure Package where
  ident : Nat
  ctx : Nat
  content : PlanContent
  kfac : Tbl (List (Nat × Nat)) := []
  low : List Nat := []
  tilesMin : Nat := 0
  deriving DecidableEq, Repr

/-- States of a job (R386); `placed` while its engines' partitions power up or their granules are scrubbed (R288, R389). -/
inductive JobState where
  | held | placed | running | ended
  deriving DecidableEq, Repr

/-- A job (R334, R386 to R388). `first` are the tiles of its first string, which run it; the other strings' tiles are held (log 32).
`mapped` are the pages its launch mapped (R196), `loading` holds while the programs that load its tiles run (R202), `turns` are the
images, by index, that wait for their turn on a core (R446). -/
structure Job where
  ctx : Nat
  plan : Nat
  network : Nat
  variant : Nat
  req : AcpReq
  st : JobState
  shape : List Nat
  estimate : Nat
  corrected : Nat
  measured : Nat
  heldAt : Nat
  energyShort : Bool
  tiles : List Nat
  cores : List Nat
  chans : List Nat
  keep : Bool
  drain : Bool
  launchAt : Nat
  first : List Nat
  mapped : List Nat := []
  loading : Bool := false
  turns : List (Nat × Nat) := []
  deriving DecidableEq, Repr

/-- States of a mailbox channel (R338). -/
inductive MboxState where
  | free | claimed | request | busy | reply | notice
  deriving DecidableEq, Repr

/-- A mailbox channel (R338). -/
structure Mailbox where
  st : MboxState := .free
  queued : List Sent := []
  ring : List AcpDatagram := []
  rung : Option AcpDatagram := none
  deriving DecidableEq, Repr

/-- A network port (R317 to R319). -/
structure NetPort where
  up : Bool := false
  macsec : Bool := false
  cipher : Nat := 0
  cak : List Byte := []
  gptp : Bool := false
  retired : Bool := false
  dropMacsec : Nat := 0
  dropOther : Nat := 0
  dropSecure : Nat := 0
  deriving DecidableEq, Repr

/-- A receive filter of an application ring (R321). -/
structure RxFilter where
  ring : Nat
  mac : Nat
  vlan : Nat
  deriving DecidableEq, Repr

/-- The network island and Apgil's command objects. `held` are datagrams that wait while the device is parked, `hellos` the
requests to open a session that have been accepted, `pages` the DDR5 ranges Apgil has given out: context (64 for its own tables),
first address, bytes; `resetReplies`, `cycleReplies` and `licReply` the requests whose replies wait for a domain reset, a partition
cycle and the SMI's answer to a licence. -/
structure HostSide where
  ports : Tbl NetPort := []
  ipv4 : Nat := 0
  ipv6 : Nat := 0
  acpSecure : Bool := false
  gptpDomain : Nat := 0
  gptpPriority : Nat := 255
  sessions : Tbl (Option Session) := []
  contexts : Tbl (Option Context) := []
  packages : List Package := []
  jobs : Tbl (Option Job) := []
  nextJob : Nat := 0
  strokeIds : Nat := 0
  mboxes : Tbl Mailbox := []
  planKeys : List (Nat × List Byte) := []
  defBudget : Nat := 1000
  defCap : Nat := 4
  defVariants : Bool := true
  rings : Tbl (List (List Byte)) := []
  filters : List RxFilter := []
  dropped : Nat := 0
  held : List AcpDatagram := []
  hellos : List AcpReq := []
  pages : List (Nat × Nat × Nat) := []
  resetReplies : List (Domain × Nat × Nat × Nat × Nat) := []
  cycleReplies : List (Nat × Nat × Nat × Nat × Nat) := []
  licReply : Option (Nat × Nat × Nat × Nat) := none
  deriving DecidableEq, Repr

/-! ### Bridge -/

/-- States of a Bridge link (R358). -/
inductive LinkState where
  | down | training | up | mgmtOnly | failed
  deriving DecidableEq, Repr

/-- A Bridge link (R340 to R344). -/
structure Link where
  st : LinkState := .down
  width : Nat := 0
  version : Nat := 0
  attempts : Nat := 0
  peer : Nat := 0
  peerLink : Nat := 0
  peerSystem : Nat := 0
  missing : Bool := false
  hops : Option Nat := none
  delay : Nat := 0
  deriving DecidableEq, Repr

/-- States of a remote window (R353, R358). -/
inductive WinState where
  | closed | open' | closing
  deriving DecidableEq, Repr

/-- A window of a sender (R350): its state, the context whose translation maps it, the I/O address, the request (session, sequence
number) that asked for it. Its registers are words. -/
structure Window where
  st : WinState := .closed
  ctx : Nat := 0
  xlate : Nat := 0
  io : Nat := 0
  req : Nat × Nat := (0, 0)
  deriving DecidableEq, Repr

/-- An export of this device (R350, R353): the object (kind, number) it ends with, and the SHM granules it holds back from a scrub
while it closes. For a flag group `base` is its number. -/
structure ExportBuf where
  ident : Nat
  ctx : Nat
  xlate : Nat
  base : Nat
  bytes : Nat
  flagGroup : Bool
  read : Bool
  write : Bool
  obj : Nat × Nat
  granules : List Nat
  closedAt : Option Nat
  deriving DecidableEq, Repr

/-- An import that waits for its owner's answer (R350). -/
structure ImportWait where
  ident : Nat
  owner : Nat
  ctx : Nat
  xlate : Nat
  io : Nat
  until' : Nat
  sess : Nat
  seq : Nat
  deriving DecidableEq, Repr

/-- The expected topology record (R345). -/
structure TopoRec where
  device : Nat
  system : Nat
  master : Nat
  takeTime : Bool
  seq : Nat
  links : List (Nat × Bool × Nat × Nat)
  deriving DecidableEq, Repr

/-- A request of an endpoint of this device that its link has not acknowledged (R341, R348): its number among those of the endpoint to that
device, the link it was last sent by (none: held for want of a route), the export and offset it writes, the bytes. -/
structure OutReq where
  src : Src
  dest : Nat
  num : Nat
  link : Option Nat
  exportId : Nat
  offset : Nat
  data : List Byte
  deriving DecidableEq, Repr

/-- The Bridge partition and what Apgil keeps about the system. At an owner `asked` holds sender, export and expiry of requests whose
export has not appeared, `answers` the answers given: sender, export, status; `remote` the answers of the last remote access that came:
sender, status, data; `expect` the number that the next request of a sending endpoint must have, `early` requests that came before it
(R348). At a sender `nums` holds the numbers given, `out` the requests not acknowledged. -/
structure Bridge where
  links : Tbl Link := []
  windows : Tbl Window := []
  exports : List ExportBuf := []
  imports : List ImportWait := []
  asked : List (Nat × Nat × Nat) := []
  answers : List (Nat × Nat × Nat) := []
  remote : List (Nat × Nat × List Byte) := []
  record : Option TopoRec := none
  written : Option TopoRec := none
  neighbours : List Neighbour := []
  lostSince : Tbl Nat := []
  relayed : List (Nat × AcpReq) := []
  expect : Tbl Nat := []
  early : List RemoteReq := []
  nums : Tbl Nat := []
  out : List OutReq := []
  deriving DecidableEq, Repr

/-! ### Sealed Measurement Island -/

/-- States of the SMI (R379). -/
inductive SmiState where
  | off | boot | running | recovery | halted
  deriving DecidableEq, Repr

/-- A camera of the calibration store (R366). -/
structure Camera where
  index : Nat
  ident : Nat
  rot : List Int
  trans : List Int
  rho : Nat
  deriving DecidableEq, Repr

/-- A calibration slot (R376). -/
structure CalSlot where
  setId : Nat
  digest : Nat
  cameras : List Camera
  deriving DecidableEq, Repr

/-- A Proof log entry (R377); `torn` marks a voided slot (R434). -/
structure LogEntry where
  kind : Nat
  seq : Nat
  event : Nat
  boot : Nat
  time : Nat
  digest : Nat
  param : Nat
  torn : Bool
  sig : List Byte
  deriving DecidableEq, Repr

/-- Legally relevant parameters (R366): the volume's corners, e, q_max, minimum dimension, d. -/
structure SmiParams where
  lo : List Int := [0, 0, 0]
  hi : List Int := [0, 0, 0]
  e : Nat := 0
  qmax : Nat := 0
  minDim : Nat := 0
  d : Nat := 0
  deriving DecidableEq, Repr

/-- The SMI (R360 to R379, R433). `clock` counts the nanoseconds of its own 200 MHz island since VDD_SMI came into range; `keyHash`,
`licKeyHash`, `serial` and `otpEvents` lie in its own OTP; `work` is the message in its working memory. -/
structure Smi where
  st : SmiState := .boot
  inReset : Bool := false
  vdd : Bool := true
  sealed : Bool := false
  legal : Bool := false
  committed : Nat := 0
  queue : List (Nat × Nat) := []
  work : Option (List Byte) := none
  outWr : Nat := 0
  boots : Nat := 0
  event : Nat := 0
  keyHash : Option Nat := none
  otpEvents : Nat := 0
  fwDigest : Nat := 0
  fwSecurity : Nat := 0
  imageDigest : Nat := 0
  fwPending : Option (Nat × Nat) := none
  staged : List (Nat × List Byte) := []
  slotA : Option CalSlot := none
  slotB : Option CalSlot := none
  active : Bool := false
  params : SmiParams := {}
  log : List LogEntry := []
  torn : Bool := false
  refusals : Nat := 0
  refusedAt : Option Nat := none
  clock : Nat := 0
  licKeyHash : Nat := 0
  serial : Nat := 0
  deriving DecidableEq, Repr

/-! ### Power, energy, boot, flash, pins -/

/-- States of a partition (R389). -/
inductive PartState where
  | off | poweringUp | on | poweringDown | enablePending
  deriving DecidableEq, Repr

/-- A power partition (R389, R394). -/
structure Partition where
  st : PartState := .off
  cycles : Nat := 0
  disableNext : Bool := false
  idleSince : Option Nat := none
  deriving DecidableEq, Repr

/-- Device power states (R391). -/
inductive PowerState where
  | active | idle | parked
  deriving DecidableEq, Repr

/-- What a source has moved or processed since the last sample, for the split of a sensor's energy (R381): sensor, source index,
context, bytes or samples. -/
structure Use where
  sensor : Nat
  src : Nat
  ctx : Option Nat
  amount : Nat
  deriving DecidableEq, Repr

/-- The power controller and the ledger (R380 to R394). `windows` counts 10 ms windows, `windowEnergy` the µJ of the window so far,
`overhead` the µJ charged to no account. -/
structure Power where
  parts : Tbl Partition := []
  sensors : Tbl Nat := []
  temps : Tbl Int := []
  level : Nat := 0
  tripped : Bool := false
  below100 : Option Nat := none
  below105 : Option Nat := none
  windows : Nat := 0
  windowEnergy : Nat := 0
  uses : List Use := []
  overhead : Nat := 0
  tempOut : List Nat := []
  railOut : List Nat := []
  held : Bool := false
  heldReserved : Bool := false
  state : PowerState := .active
  idleSince : Option Nat := none
  noContextSince : Option Nat := none
  deriving DecidableEq, Repr

/-- Device states (R395). -/
inductive DevState where
  | reset | bootRom | recovery | bringup | ready
  deriving DecidableEq, Repr

/-- Why the device booted (R444, R461). -/
inductive BootReason where
  | resetN | powerCut | watchdogs | bootWatchdog | reference
  deriving DecidableEq, Repr

/-- Phases of a live firmware update (R411 to R416). -/
inductive UpdPhase where
  | none | staged | handover | probation | rewrite
  deriving DecidableEq, Repr

/-- Fuses (R408); fixed for a part. -/
structure Fuses where
  grade : Nat := 0
  present : List Nat := List.range 72
  failedTiles : List Nat := []
  serial : Nat := 0
  macBase : Nat := 0
  repair : List Byte := []
  entropy : Nat := 0
  fwKeyHash : Nat := 0
  licKeyHash : Nat := 0
  otpRollback : Nat := 0
  deriving DecidableEq, Repr

/-- A management core (R444). -/
structure MgmtCore where
  running : Bool := false
  restarting : Bool := false
  firedAt : Option Nat := none
  retired : Bool := false
  deriving DecidableEq, Repr

/-- A copy of the command objects written before a restart (R391, R412), with the launch slots armed and the queues enabled then, and the
modes of the SHM slices. -/
structure HandOver where
  host : HostSide
  streams : Tbl (Option Stream)
  groups : Tbl Group
  armed : List Nat := []
  enabled : List Nat := []
  modes : List (Nat × ShmMode) := []
  deriving DecidableEq, Repr

/-- The always-on island's and Apgil's boot and update state (R395 to R417, R444). `appEntry` is the entry address Apgil has set for each
application core, `appPc` the address at which it last started (R30; log 67). -/
structure Boot where
  st : DevState := .reset
  reason : BootReason := .resetN
  recovery : Nat := 0
  releasedAt : Nat := 0
  image : Option FwImage := none
  old : Option FwImage := none
  staged : Option FwImage := none
  flashImage : Option FwImage := none
  fromRecovery : Bool := false
  phase : UpdPhase := .none
  activateAt : Nat := 0
  probationEnd : Nat := 0
  handOver : Option HandOver := none
  park : Option HandOver := none
  testsDone : Bool := false
  checked : Bool := false
  failedCheck : Nat := 0
  serviceFailed : Bool := false
  mgmt : Tbl MgmtCore := []
  appOffline : List Nat := []
  appEntry : Tbl Nat := []
  appPc : Tbl Nat := []
  queuedNotices : List Sent := []
  deriving DecidableEq, Repr

/-- Retired engines that the retirement map does not list, and the map (R404, R405): retired now, times retired. `untested`
holds tiles that must pass a test before they are bound again (R203, R208). -/
structure Retire where
  tiles : Tbl (Bool × Nat) := []
  cores : Tbl (Bool × Nat) := []
  cause : Tbl Nat := []
  others : List Domain := []
  netPorts : List Nat := []
  untested : List Nat := []
  inService : List Nat := []
  deriving DecidableEq, Repr

/-- A record of the Archive flash (R419). -/
structure FlashRec where
  typ : Nat
  inst : Nat
  seq : Nat
  time : Nat
  payload : List Byte
  done : Bool
  deriving DecidableEq, Repr

/-- A transaction (R421): its records, and the request whose reply waits for the commit (session, sequence number, command,
context). -/
structure FlashTx where
  recs : List FlashRec
  reply : Option (Nat × Nat × Nat × Nat)
  deriving DecidableEq, Repr

/-- An operation of the flash controller (R426, R427): a page program or block erase, the SMI's or Apgil's. -/
structure FlashOp where
  smi : Bool
  erase : Bool
  block : Nat
  deriving DecidableEq, Repr

/-- The Archive flash and its controller (R418 to R430). `written` holds the times and record bytes of the last 24 h, `freeing` the rings whose
oldest block waits for its transaction before it is erased; `step` tells how far the first waiting transaction is. -/
structure Flash where
  journal : List FlashRec := []
  home : List FlashRec := []
  nextSeq : Nat := 1
  waiting : List FlashTx := []
  step : Nat := 0
  erases : Tbl Nat := []
  remap : Tbl Nat := []
  reserveUsed : Nat := 0
  written : List (Nat × Nat) := []
  running : Option FlashOp := none
  suspended : Option FlashOp := none
  opsSmi : List FlashOp := []
  opsMain : List FlashOp := []
  freeing : List Nat := []
  deriving DecidableEq, Repr

/-- Pins and references (R451 to R463). -/
structure Pins where
  resetN : Bool := false
  pwrGood : Bool := true
  smiResetN : Bool := true
  sealIn : Bool := false
  refClock : Bool := true
  avs : Nat := 750
  jtag : JtagInstr := .bypass
  trig : Tbl Nat := []
  deriving DecidableEq, Repr

/-- The answer a requester got to its last access (R4, R26, R35, R467). -/
structure BusAnswer where
  src : Src
  status : Nat
  data : Word
  deriving DecidableEq, Repr

/-- A slow tile that still finishes stripes of its string after its segment has moved (R203): the tile that took the segment, the stripes
it has yet to pass on, those of them that wait in its input buffers. -/
structure Leaving where
  slow : Nat
  spare : Nat
  left : Nat
  wait : Nat
  deriving DecidableEq, Repr

/-- The machine. `pending` is the queue of waiting commands; `free` numbers the free values (log 1): both are the model's. `endsTaken` holds
the frame ends (port, virtual channel, bank) of this event tick that took effect before a frame start queued ahead of them (R46); `moves`
the moves of a slow tile's segment being loaded, with the tile that takes it, and `leaving` the slow tiles that have been moved from (R203). -/
structure State where
  pending : List Instr := []
  free : Nat := 0
  regs : Tbl Word := []
  mem : List Host.Cell := []
  ddrBytes : Nat := 2 ^ 37
  clk : Clock := {}
  bus : Option BusAnswer := none
  latches : List (Src × Nat × Word) := []
  slow : List Domain := []
  resetting : List Domain := []
  moves : List (Nat × Nat) := []
  leaving : List Leaving := []
  ports : Tbl Bool := []
  banks : Tbl Bank := []
  endsTaken : List (Nat × Nat × Nat) := []
  buses : Tbl SensorBus := []
  plates : Tbl (Option PlateJob) := []
  plPend : Tbl (Option PendCopy) := []
  plLatch : Tbl (Tbl Word) := []
  clPend : Tbl (Option PendCopy) := []
  clLatch : Tbl (Tbl Word) := []
  colours : Tbl (Option ColourJob) := []
  streams : Tbl (Option Stream) := []
  tiles : Tbl Tile := []
  cores : Tbl Core := []
  chans : Tbl Chan := []
  turn : Tbl Nat := []
  pulses : List (Nat × Nat) := []
  bru : Bru := {}
  flags : Tbl Word := []
  groups : Tbl Group := []
  waits : List WaitEntry := []
  updates : List FlagUpd := []
  checks : List Check := []
  slots : Tbl Slot := []
  queues : Tbl Queue := []
  granules : Tbl Granule := []
  shm : Tbl ShmSlice := []
  ddr : Tbl DdrChan := []
  poison : List Nat := []
  shmOff : List Nat := []
  inval : Option Inval := none
  fc : Collector := {}
  host : HostSide := {}
  sent : List Sent := []
  bridge : Bridge := {}
  smi : Smi := {}
  power : Power := {}
  boot : Boot := {}
  retire : Retire := {}
  fuses : Fuses := {}
  flash : Flash := {}
  pins : Pins := {}
  licences : List Nat := []
  dbgOpen : Bool := false
  deriving DecidableEq, Repr

/-- Reasons for which the machine would stop. No rule of the spec stops the block: every fault of the spec is an effect on
State (an event in the fault collector, a status code), so no meaning answers with one. -/
inductive Fault where
  /-- Raised by no meaning; the form of Host.Core asks for a type of faults. Safe: it is never answered. -/
  | none
  deriving DecidableEq, Repr

/-- Reasons for which a command would be refused. -/
inductive Refusal where
  /-- An arm of `exec` without a meaning, by the mnemonic of its row. Safe: nothing is claimed of it. -/
  | notModelled (mnemonic : String)
  deriving DecidableEq, Repr

/-- The machine right after reset: RESET_N is asserted, every partition is off, every register holds its reset value, no
flag is set, nothing is stored, no command waits (R13, R299, R394, R395). Values the spec leaves open: notes/assumptions 1 to 6. -/
def State.reset : State := {}

end Sys2Proof.Machine
end

