-- ==== Sys2Proof/Machine/Ops.lean ====
section
/-!
DEFINITION. Sys2Proof/Machine/Ops.lean: the named operations over registers, memories, objects and the fault collector
that every meaning is made of.
-/
namespace Sys2Proof.Machine

/-! ### Registers -/

/-- The register word held under a key. -/
def word (s : State) (key : Nat) : Word := tget (keyReset key) s.regs key

/-- The state with a register word written. -/
def setWord (s : State) (key : Nat) (v : Word) : State := { s with regs := tset (keyReset key) s.regs key v }

/-- Bits [hi:lo] of a register. -/
def wfld (s : State) (key hi lo : Nat) : Nat := fld (word s key) hi lo

/-- Bit i of a register. -/
def wbit (s : State) (key i : Nat) : Bool := bitOf (word s key) i

/-- A register field replaced. -/
def setWfld (s : State) (key hi lo v : Nat) : State := setWord s key (setFld (word s key) hi lo v)

/-- A register bit replaced. -/
def setWbit (s : State) (key i : Nat) (b : Bool) : State := setWord s key (setBit (word s key) i b)

/-- A saturating 32-bit counter incremented (R62). -/
def bump (s : State) (key : Nat) : State := setWord s key (satInc (word s key))

/-- Every register of an address range at its reset word. -/
def clearRegs (s : State) (lo n : Nat) : State :=
  { s with regs := s.regs.filter (fun c => c.1 < lo || lo + n ≤ c.1) }

/-- A banked word of port p, bank k (R62). -/
def inWord (s : State) (p k off : Nat) : Word := word s (bankKey p k off)

/-- A field of a banked word. -/
def inFld (s : State) (p k off hi lo : Nat) : Nat := fld (inWord s p k off) hi lo

/-! ### Memories -/

/-- The byte at a physical address. -/
def byteAt (s : State) (a : Nat) : Byte := memByte s.mem a

/-- The bytes from a physical address on. -/
def bytesAt (s : State) (a n : Nat) : List Byte := memBytes s.mem a n

/-- The little-endian number in n bytes at a physical address. -/
def numAt (s : State) (a n : Nat) : Nat := memNum s.mem a n

/-- The 32-bit word at a physical address. -/
def wordAt (s : State) (a : Nat) : Word := BitVec.ofNat 32 (numAt s a 4)

/-- Bytes written at a physical address. -/
def store (s : State) (a : Nat) (bs : List Byte) : State := { s with mem := memStore s.mem a bs }

/-- Scattered bytes written. -/
def storeAll (s : State) (ws : List (Nat × List Byte)) : State := { s with mem := memScatter s.mem ws }

/-- An address range filled with zeros. -/
def clearMem (s : State) (a n : Nat) : State := { s with mem := memClear s.mem a n }

/-! ### Objects by number -/

def tileOf (s : State) (n : Nat) : Tile := tget {} s.tiles n
def setTile (s : State) (n : Nat) (t : Tile) : State := { s with tiles := tset {} s.tiles n t }
def coreOf (s : State) (n : Nat) : Core := tget {} s.cores n
def setCore (s : State) (n : Nat) (c : Core) : State := { s with cores := tset {} s.cores n c }
def chanOf (s : State) (n : Nat) : Chan := tget {} s.chans n
def setChan (s : State) (n : Nat) (c : Chan) : State := { s with chans := tset {} s.chans n c }
def bankOf (s : State) (p k : Nat) : Bank := tget {} s.banks (p * 16 + k)
def setBank (s : State) (p k : Nat) (b : Bank) : State := { s with banks := tset {} s.banks (p * 16 + k) b }
def busOf (s : State) (b : Nat) : SensorBus := tget {} s.buses b
def setBus (s : State) (b : Nat) (x : SensorBus) : State := { s with buses := tset {} s.buses b x }
def streamOf (s : State) (n : Nat) : Option Stream := tget none s.streams n
def setStream (s : State) (n : Nat) (x : Option Stream) : State := { s with streams := tset none s.streams n x }
def bruSlotOf (s : State) (j : Nat) : BruSlot := tget {} s.bru.slots j
def setBruSlot (s : State) (j : Nat) (b : BruSlot) : State :=
  { s with bru := { s.bru with slots := tset {} s.bru.slots j b } }
def queueOf (s : State) (q : Nat) : Queue := tget {} s.queues q
def setQueue (s : State) (q : Nat) (x : Queue) : State := { s with queues := tset {} s.queues q x }
def slotOf (s : State) (i : Nat) : Slot := tget {} s.slots i
def setSlot (s : State) (i : Nat) (x : Slot) : State := { s with slots := tset {} s.slots i x }
def groupOf (s : State) (g : Nat) : Group := tget {} s.groups g
def setGroup (s : State) (g : Nat) (x : Group) : State := { s with groups := tset {} s.groups g x }
def granOf (s : State) (g : Nat) : Granule := tget {} s.granules g
def setGran (s : State) (g : Nat) (x : Granule) : State := { s with granules := tset {} s.granules g x }
def shmOf (s : State) (n : Nat) : ShmSlice := tget {} s.shm n
def setShm (s : State) (n : Nat) (x : ShmSlice) : State := { s with shm := tset {} s.shm n x }
def ddrOf (s : State) (k : Nat) : DdrChan := tget {} s.ddr k
def setDdr (s : State) (k : Nat) (x : DdrChan) : State := { s with ddr := tset {} s.ddr k x }
def partOf (s : State) (p : Nat) : Partition := tget {} s.power.parts p
def setPart (s : State) (p : Nat) (x : Partition) : State :=
  { s with power := { s.power with parts := tset {} s.power.parts p x } }
def linkOf (s : State) (k : Nat) : Link := tget {} s.bridge.links k
def setLink (s : State) (k : Nat) (x : Link) : State :=
  { s with bridge := { s.bridge with links := tset {} s.bridge.links k x } }
def windowOf (s : State) (w : Nat) : Window := tget {} s.bridge.windows w
def setWindow (s : State) (w : Nat) (x : Window) : State :=
  { s with bridge := { s.bridge with windows := tset {} s.bridge.windows w x } }
def sessionOf (s : State) (n : Nat) : Option Session := tget none s.host.sessions n
def setSession (s : State) (n : Nat) (x : Option Session) : State :=
  { s with host := { s.host with sessions := tset none s.host.sessions n x } }
def contextOf (s : State) (c : Nat) : Option Context := tget none s.host.contexts c
def setContext (s : State) (c : Nat) (x : Option Context) : State :=
  { s with host := { s.host with contexts := tset none s.host.contexts c x } }
def jobOf (s : State) (j : Nat) : Option Job := tget none s.host.jobs j
def setJob (s : State) (j : Nat) (x : Option Job) : State :=
  { s with host := { s.host with jobs := tset none s.host.jobs j x } }
def mboxOf (s : State) (c : Nat) : Mailbox := tget {} s.host.mboxes c
def setMbox (s : State) (c : Nat) (x : Mailbox) : State :=
  { s with host := { s.host with mboxes := tset {} s.host.mboxes c x } }
def portOf (s : State) (p : Nat) : NetPort := tget {} s.host.ports p
def setPort (s : State) (p : Nat) (x : NetPort) : State :=
  { s with host := { s.host with ports := tset {} s.host.ports p x } }

/-- The numbers of the streams that exist. -/
def streamList (s : State) : List Nat := s.streams.filterMap (fun p => p.2.map (fun _ => p.1))

/-- The numbers of the open contexts. -/
def contextList (s : State) : List Nat := s.host.contexts.filterMap (fun p => p.2.map (fun _ => p.1))

/-- The numbers of the sessions kept. -/
def sessionList (s : State) : List Nat := s.host.sessions.filterMap (fun p => p.2.map (fun _ => p.1))

/-- The numbers of the jobs. -/
def jobList (s : State) : List Nat := s.host.jobs.filterMap (fun p => p.2.map (fun _ => p.1))

/-- Every object of a list treated in turn. -/
def forAll {α : Type} (l : List α) (f : State → α → State) (s : State) : State := l.foldl f s

/-! ### Free values -/

/-- A free number, a new one at every use (log 1). -/
def freshNat (purpose : Nat) (s : State) : Nat × State :=
  (Config.freeNat purpose s.free, { s with free := s.free + 1 })

/-! ### Grade and what is in service -/

/-- Enabled Graver tiles of the grade (R2): 0 SZ4880-P, 1 SZ4880-S, 2 SZ4880-L. -/
def gradeTiles (s : State) : Nat := if s.fuses.grade = 0 then 64 else if s.fuses.grade = 1 then 48 else 32
def gradeCores (s : State) : Nat := if s.fuses.grade = 0 then 8 else if s.fuses.grade = 1 then 6 else 4
def gradePorts (s : State) : Nat := if s.fuses.grade = 0 then 16 else if s.fuses.grade = 1 then 12 else 8
def gradeLinks (s : State) : Nat := if s.fuses.grade = 0 then 4 else if s.fuses.grade = 1 then 2 else 0
def gradeNets (s : State) : Nat := if s.fuses.grade = 2 then 2 else 4

/-- Whether a tile is present on the part (R406). -/
def tilePresent (s : State) (n : Nat) : Bool := decide (n ∈ s.fuses.present)

/-- Whether a tile is retired (R405) or failed at manufacture. -/
def tileRetired (s : State) (n : Nat) : Bool :=
  (tget (false, 0) s.retire.tiles n).1 || decide (n ∈ s.fuses.failedTiles)

/-- Whether a core is retired (R405). -/
def coreRetired (s : State) (n : Nat) : Bool := (tget (false, 0) s.retire.cores n).1

/-- Whether a tile is in service (R406). -/
def tileInService (s : State) (n : Nat) : Bool := decide (n ∈ s.retire.inService)

/-- Whether a core is in service (R2, R404). -/
def coreInService (s : State) (n : Nat) : Bool := decide (n < gradeCores s) && !coreRetired s n

/-- Spare tiles: present, neither in service nor retired (R3), and not waiting for a test (R203, R208). -/
def isSpare (s : State) (n : Nat) : Bool :=
  tilePresent s n && !tileRetired s n && !tileInService s n && !decide (n ∈ s.retire.untested)

/-! ### Partitions and reset domains -/

/-- The partition of an island (R28, R380). -/
def partitionOf : Domain → Nat
  | .tile n => n / 4
  | .core n => 18 + n
  | .port n => 26 + n / 4
  | .plate n => 30 + n / 2
  | .colour n => 30 + n
  | .stat => 30
  | .pcm => 30
  | .bru => 44
  | .stipple _ => 44
  | .dma k => 32 + k
  | .ddr k => 36 + k
  | .bridge _ => 42
  | .network => 43
  | .appCluster k => 40 + k
  | .mgmt => 45
  | .smi => 46
  | .aon => 47

/-- Whether a partition is on. -/
def partOn (s : State) (p : Nat) : Bool := decide ((partOf s p).st = .on)

/-- Whether the endpoint of an island is held in reset (R26): its domain is being reset, its partition is off or in a
transition; the SMI by its own supply and reset, the always-on island never. -/
def heldInReset (s : State) : Domain → Bool
  | .aon => false
  | .smi => s.smi.inReset || !s.smi.vdd
  | d => decide (d ∈ s.resetting) || !partOn s (partitionOf d)

/-- The island whose endpoint an address reaches (R24). The tables name no island for shared blocks; the model's choices are (log 9): the
Plate and colour block answers for image-front group 0, the request lines for DMA cluster 0, the Bridge windows and the aperture for
controller 0, the launch slots and queue registers of the `DT_` block for the always-on island, all Stipple registers for the read side. -/
def locDomain (a : Nat) : Loc → Option Domain
  | .ddr => some (.ddr (a / 256 % 4))
  | .shm sl _ => some (.ddr (sl / 4))
  | .tile n _ => some (.tile n)
  | .core n _ => some (.core n)
  | .block (.intake p) _ => some (.port p)
  | .block .front _ => some .stat
  | .block .dma off => some (.dma (if off < 0x40000 then off / 0x10000 else 0))
  | .block .flags _ => some .network
  | .block .time _ => some .aon
  | .block .mbox _ => some .mgmt
  | .block .power _ => some .aon
  | .block .bru off => some (if off < 0x8000 then .bru else .stipple 0)
  | .block .bridge off => some (.bridge (if off < 0x400 then off / 0x100 else 0))
  | .block .network _ => some .network
  | .block .iommu _ => some .mgmt
  | .block .faults _ => some .mgmt
  | .block .smi _ => some .smi
  | .pcm _ => some .pcm
  | .aperture _ => some (.bridge 0)
  | .nowhere => none

/-! ### Sources -/

/-- The source index of the table *Source indices* (R310); a requester the table does not list has an open one. -/
def srcIndex : Src → Nat
  | .tile n => n
  | .core n => 72 + n
  | .dma n => 80 + n
  | .bru j => 208 + j
  | .port p => 272 + p
  | .trig p => 288 + p
  | .slot i => 304 + i
  | .queue q => 560 + q
  | .stroke s => 1072 + s
  | .mgmt n => 1104 + n
  | .mbox c => 1106 + c
  | .bridge k => 1122 + k
  | .net => 1126
  | .aon => 1127
  | .ddr k => 1128 + k
  | .app n => Config.otherIndex 0 n
  | .plate n => Config.otherIndex 1 n
  | .colour n => Config.otherIndex 2 n
  | .endpoint n => Config.otherIndex 3 n

/-- The source index of Apgil itself (R439). -/
def apgilIndex : Nat := 0xFFFF

/-- The context field of a record without one (R439). -/
def noCtx : Nat := 0xFF

/-- Whether a source is Apgil: the management cores run it (R298, R444). -/
def isApgil : Src → Bool
  | .mgmt _ => true
  | _ => false

/-- The context a tile is bound to (R141). -/
def tileCtx (s : State) (n : Nat) : Option Nat :=
  if wfld s (gtReg n 0x10) 22 16 = 0x7F then none else some (wfld s (gtReg n 0x10) 5 0)

/-- The context a core is bound to (R223). -/
def coreCtx (s : State) (n : Nat) : Option Nat :=
  if wfld s (ecReg n 0x10) 19 16 = 0xF then none else some (wfld s (ecReg n 0x10) 5 0)

/-- The context a channel is bound to (R270). -/
def chanCtx (s : State) (c : Nat) : Option Nat :=
  if wbit s (dmReg c 0x10) 17 then some (wfld s (dmReg c 0x10) 5 0) else none

/-- A word of a BRU slot's descriptor (R169), by its byte offset. -/
def bruWord (b : BruSlot) (off : Nat) : Word := b.desc.getD (off / 4) 0

/-- The context of a BRU job (R169). -/
def bruCtx (s : State) (j : Nat) : Option Nat :=
  if (bruSlotOf s j).desc = [] then none else some (fld (bruWord (bruSlotOf s j) 4) 5 0)

/-- The execution context of a source's binding (R289). -/
def srcCtx (s : State) : Src → Option Nat
  | .tile n => tileCtx s n
  | .core n => coreCtx s n
  | .dma c => chanCtx s c
  | .bru j => bruCtx s j
  | .queue q => some (wfld s (queueReg q 8) 21 16)
  | .slot i => some (wfld s (slotReg i 8) 18 13)
  | .stroke n => (streamOf s n).map (fun x => x.ctx)
  | _ => none

/-- The source of a source index that can wait on a flag (R300). -/
def waiterSrc (i : Nat) : Src :=
  if i < 72 then .tile i
  else if i < 80 then .core (i - 72)
  else if i < 208 then .dma (i - 80)
  else if i < 272 then .bru (i - 208)
  else if i < 560 then .endpoint i
  else if i < 1072 then .queue (i - 560)
  else .stroke (i - 1072)

/-! ### Fault collector (R437 to R442) -/

/-- The class of an event code (R438): 0 INFO, 1 DEGRADED, 2 ERROR, 3 FATAL. -/
def eventClass (code : Nat) : Nat :=
  if code = 0x603 ∨ code = 0x604 then 3
  else if code ∈ [0x107, 0x202, 0x204, 0x205, 0x206, 0x208, 0x301, 0x302, 0x304, 0x309, 0x401, 0x402] then 2
  else if code ∈ [0x207, 0x303, 0x305, 0x306, 0x307, 0x308, 0x503, 0x504, 0x601, 0x602, 0x605] then 1
  else 0

/-- The index of a code's counter `FC_CNT[i]` (R443). -/
def codeIndex (code : Nat) : Nat := 16 * (code / 256 - 1) + (code % 256 - 1)

/-- The eight words of a fault record (R439). -/
def recordWords (n now repeats : Nat) (e : FaultEv) : List Word :=
  let extra := if e.code = 0x401 then e.extra else repeats
  [BitVec.ofNat 32 (e.code + eventClass e.code * 2 ^ 16 + e.status * 2 ^ 24), BitVec.ofNat 32 n,
   BitVec.ofNat 32 now, BitVec.ofNat 32 (now / 2 ^ 32),
   BitVec.ofNat 32 (e.src % 2 ^ 16 + e.ctx * 2 ^ 16), BitVec.ofNat 32 e.detail, BitVec.ofNat 32 (e.detail / 2 ^ 32),
   BitVec.ofNat 32 extra]

/-- Whether an event is never merged (R440). -/
def neverMerged (e : FaultEv) : Bool := e.code = 0x401 || (e.code = 0x204 && e.detail / 2 ^ 48 % 2 = 0)

/-- The merge window of a source and code that is open (R440), by the ticks' time. -/
def openMerge (c : Collector) (up : Nat) (e : FaultEv) : Option Merge :=
  c.merges.find? (fun m => m.src = e.src && m.code = e.code && up < m.since + 1000000)

/-- One event recorded or dropped (R439, R442), with the merged repeats it carries (R440). -/
def recordEvent (c : Collector) (now up : Nat) (e : FaultEv) : Collector :=
  let full := (c.wr + 2 ^ 32 - c.rd) % 2 ^ 32
  let fatal := decide (eventClass e.code = 3)
  if (if fatal then decide (4096 ≤ full) else decide (4032 ≤ full)) then { c with lost := min (c.lost + 1) 0xFFFFFFFF }
  else
    let old := c.merges.find? (fun m => m.src = e.src && m.code = e.code)
    let repeats := match old with | some m => m.count | none => 0
    let rest := c.merges.filter (fun m => !(m.src = e.src && m.code = e.code))
    { c with ring := tset [] c.ring (c.wr % 4096) (recordWords c.wr now repeats e),
             wr := (c.wr + 1) % 2 ^ 32,
             fatal := c.fatal || fatal,
             merges := if e.code = 0x401 then c.merges
                       else rest ++ [{ src := e.src, code := e.code, since := up, count := 0 }] }

/-- Events recorded in order, as many as given; the rest is held. A merged event takes no record (R440, R441). -/
def recordHeld : Nat → Collector → List (FaultEv × Nat × Nat) → Collector
  | _, c, [] => { c with held := [] }
  | n, c, x :: t =>
    match (if neverMerged x.1 then none else openMerge c x.2.2 x.1) with
    | some m => recordHeld n { c with merges := c.merges.map (fun y => if y = m then { y with count := y.count + 1 } else y) } t
    | none => match n with
      | 0 => { c with held := x :: t }
      | k + 1 => recordHeld k (recordEvent c x.2.1 x.2.2 x.1) t

/-- The order of the events of one tick (R441): class, FATAL first, then source index. -/
def evKey (e : FaultEv) : Nat := (3 - eventClass e.code) * 0x10000 + e.src

/-- One event as it reaches the collector: counted in every case, and put among the events of this tick, which are merged or recorded when
the tick ends (R440 to R442). -/
def collect (c : Collector) (now up : Nat) (e : FaultEv) : Collector :=
  { c with counts := tset 0 c.counts (codeIndex e.code) (min (tget 0 c.counts (codeIndex e.code) + 1) 0xFFFFFFFF)
           tick := insertBy (fun (x : FaultEv × Nat × Nat) => evKey x.1) (e, now, up) c.tick }

/-- An event raised in the fault collector. The collector keeps recording while its partition is on (R28, R439). -/
def raise (s : State) (e : FaultEv) : State := { s with fc := collect s.fc s.clk.now s.clk.up e }

/-- An event with the usual fields. -/
def raiseEv (s : State) (code status src : Nat) (ctx : Option Nat) (detail : Nat) : State :=
  raise s { code := code, status := status, src := src, ctx := ctx.getD noCtx, detail := detail, extra := 0 }

/-- An event whose detail the spec calls event-specific and does not give: the detail is an open value (log 1). -/
def raiseOpen (s : State) (code status src : Nat) (ctx : Option Nat) : State :=
  let r := freshNat 50 s
  raiseEv r.2 code status src ctx (r.1 % 2 ^ 64)

/-- Several events of one tick. -/
def raiseAll (s : State) (es : List FaultEv) : State := es.foldl raise s

/-- An access or memory event of a source at an address (R439: the detail is the address). -/
def raiseAt (s : State) (code status : Nat) (src : Src) (a : Nat) : State :=
  raiseEv s code status (srcIndex src) (srcCtx s src) a

/-- ACCESS_DENIED (R438). -/
def denied (s : State) (src : Src) (a : Nat) : State := raiseAt s 0x104 0 src a

/-! ### Flags (R295 to R299) -/

/-- The value of a flag. -/
def flagOf (s : State) (f : Nat) : Word := tget 0 s.flags f

/-- The state with a flag's value replaced. -/
def setFlag (s : State) (f : Nat) (v : Word) : State := { s with flags := tset 0 s.flags f v }

/-- Whether a context owns or shares the group of a flag; Apgil (none) always may (R298). -/
def flagAllowed (s : State) (ctx : Option Nat) (f : Nat) : Bool :=
  match ctx with
  | none => true
  | some c => decide ((groupOf s (f / 64)).owner = some c) || decide (c ∈ (groupOf s (f / 64)).sharers)

/-- Whether a value meets a condition (R296): equal, or (flag − v) mod 2³² below 2³¹. -/
def condMet (eq : Bool) (flag v : Word) : Bool := if eq then flag = v else decide ((flag - v).toNat < 2 ^ 31)

/-- Counter i of a tile or core raised, unless its counters are frozen (R140, R224). -/
def cntAdd (t : Tbl Nat) (frozen : Bool) (i v : Nat) : Tbl Nat :=
  if frozen then t else tset 0 t i ((tget 0 t i + v) % 2 ^ 64)

/-- Whether the counters of a tile are frozen. -/
def tileFrozen (s : State) (n : Nat) : Bool := wbit s (gtReg n 0x180) 1

/-- Whether the counters of a core are frozen. -/
def coreFrozen (s : State) (n : Nat) : Bool := wbit s (ecReg n 0x180) 1

/-- The stall a tile counts ends (R110): the cycles since it began, of 2 ns, are added to the counter of its cause. -/
def stallEnd (s : State) (n : Nat) : State :=
  let t := tileOf s n
  match t.stall with
  | some (c, since) =>
    setTile s n { t with stall := none, cnt := cntAdd t.cnt (tileFrozen s n) c ((s.clk.up - since) / 2) }
  | none => s

/-- A tile stalls from now on for a cause; the stall it counted before ends when its cause was another (R110). -/
def stallOn (s : State) (n c : Nat) : State :=
  match (tileOf s n).stall with
  | some (d, _) => if d = c then s else setTile (stallEnd s n) n { tileOf (stallEnd s n) n with stall := some (c, s.clk.up) }
  | none => setTile s n { tileOf s n with stall := some (c, s.clk.up) }

/-- Whether a tile or core is at work. -/
def engBusy (st : EngState) : Bool := decide (st = .running) || decide (st = .waiting)

/-- What a core has waited for ends (R215, R224): its cycles, of 2 ns, go to the counter of the cause, and results that were on
their way have come nearer. A pulse held at its source (R255) is cause 8, which no counter counts. -/
def coreStallEnd (s : State) (n : Nat) : State :=
  let c := coreOf s n
  match c.stall with
  | some (k, since) =>
    let len := (s.clk.up - since) / 2
    setCore s n { c with stall := none, cycle := c.cycle + len, cnt := if k < 8 then cntAdd c.cnt (coreFrozen s n) k len else c.cnt }
  | none => s

/-- A core waits from now on for a cause (R224); what it waited for before ends when it was another. -/
def coreStallOn (s : State) (n k : Nat) : State :=
  match (coreOf s n).stall with
  | some (d, _) =>
    if d = k then s
    else setCore (coreStallEnd s n) n { coreOf (coreStallEnd s n) n with stall := some (k, s.clk.up) }
  | none => setCore s n { coreOf s n with stall := some (k, s.clk.up) }

/-- The program counter after an instruction: loops whose body ends there go round or are left (R251). -/
def dmaNext : Nat → Chan → Nat → Chan
  | 0, x, pc => { x with pc := pc }
  | fuel + 1, x, pc =>
    match x.loops with
    | f :: t =>
      if pc = f.stop then
        if f.iter + 1 < f.count then { x with pc := f.body, loops := { f with iter := f.iter + 1 } :: t }
        else dmaNext fuel { x with loops := t } pc
      else { x with pc := pc }
    | [] => { x with pc := pc }

/-- The next state of a waiter whose wait is met (R122, R137, R218, R220, R268, R169, R304, R104). -/
def wake (s : State) (who : Nat) : State :=
  match waiterSrc who with
  | .tile n =>
    let t := tileOf s n
    if t.st = .waiting then
      setTile (stallEnd s n) n { tileOf (stallEnd s n) n with st := .running, pc := t.pc + 2, lastRecord := s.clk.up }
    else s
  | .core n =>
    let c := coreOf s n
    if c.st = .waiting then
      setCore (coreStallEnd s n) n { coreOf (coreStallEnd s n) n with st := .running, met := true }
    else s
  | .dma n =>
    let c := chanOf s n
    if c.st = .waiting then setChan s n { dmaNext 5 c (c.pc + 2) with st := .running } else s
  | .bru j => setBruSlot s j { bruSlotOf s j with metAt := some s.clk.up }
  | .queue q => setQueue s q { queueOf s q with condMet := true }
  | _ => s

/-- Whether a registered wait is met by a value of a flag: a disallowed wait never is (R298). -/
def waitMet (s : State) (w : WaitEntry) : Bool := w.granted && condMet w.eq (flagOf s w.flag) w.value

/-- Every registered wait on a flag compared with its value; the ones met are withdrawn and their waiters go on (R297). -/
def meetWaits (s : State) (f : Nat) : State :=
  let met := s.waits.filter (fun w => w.flag = f && waitMet s w)
  let s1 := { s with waits := s.waits.filter (fun w => !(w.flag = f && waitMet s w)) }
  met.foldl (fun s w => wake s w.who) s1

/-- One update applied by the flag store: checked against its context, applied, compared with the waits (R296 to R298). -/
def applyUpdate (s : State) (u : FlagUpd) : State :=
  if flagAllowed s u.ctx u.flag then
    let s1 := setFlag s u.flag (if u.add then flagOf s u.flag + u.value else u.value)
    meetWaits { s1 with clk := { s1.clk with updates := s1.clk.updates + 1 } } u.flag
  else raiseEv s 0x104 0 u.src (u.ctx.bind (fun c => if c < 64 then some c else none)) (flagBase + 4 * u.flag)

/-- An update that reaches the flag store: applied in this tick when fewer than 8 were, else held in order (R297); lost while
the flag store's partition is off (R299). -/
def flagUpdateOp (s : State) (u : FlagUpd) : State :=
  if heldInReset s .network then s
  else if s.clk.updates < 8 ∧ s.updates = [] then applyUpdate s u else { s with updates := s.updates ++ [u] }

/-- An update by an engine, under the context of its binding. An unbound engine holds no group (R298): context 64. -/
def signalFlag (s : State) (src : Src) (f : Nat) (add : Bool) (v : Word) : State :=
  flagUpdateOp s { src := srcIndex src, ctx := if isApgil src then none else some ((srcCtx s src).getD 64),
                   flag := f % 65536, add := add, value := v }

/-- An update by Apgil. -/
def apgilFlag (s : State) (f : Nat) (add : Bool) (v : Word) : State :=
  flagUpdateOp s { src := apgilIndex, ctx := none, flag := f % 65536, add := add, value := v }

/-- A flag that Apgil sets to a starting value and sees set before it goes on (R97, R104, R204): the ticks this takes within its
request are not modelled (log 7). -/
def apgilSet (s : State) (f : Nat) (v : Word) : State :=
  if heldInReset s .network then s else meetWaits (setFlag s (f % 65536) v) (f % 65536)

/-- A wait entered in the wait table (R300), with its timeout in µs; none when the condition already holds. -/
def startWait (s : State) (who : Nat) (ctx : Option Nat) (f : Nat) (eq : Bool) (v : Word) (us : Nat) : Option State :=
  let w : WaitEntry := { who := who, flag := f % 65536, eq := eq, value := v, start := s.clk.up,
                         expiry := s.clk.up + us * 1000, granted := flagAllowed s ctx (f % 65536) }
  if waitMet s w then none
  else some { s with waits := s.waits.filter (fun x => x.who ≠ who) ++ [w] }

/-- The waits of an entity withdrawn (R302). -/
def withdrawWait (s : State) (who : Nat) : State := { s with waits := s.waits.filter (fun x => x.who ≠ who) }

/-- Bytes or samples of a source noted for a sensor (R381). -/
def noteUse (s : State) (sensor src : Nat) (ctx : Option Nat) (n : Nat) : State :=
  let same (u : Use) : Bool := decide (u.sensor = sensor) && decide (u.src = src) && decide (u.ctx = ctx)
  let l := if s.power.uses.any same then s.power.uses.map (fun u => if same u then { u with amount := u.amount + n } else u)
           else s.power.uses ++ [{ sensor := sensor, src := src, ctx := ctx, amount := n }]
  { s with power := { s.power with uses := l } }

/-- Bytes moved between a unit and DDR5, noted for the unit's sensor and for the DDR5 sensors (kept under 49). -/
def noteBytes (s : State) (sensor src : Nat) (ctx : Option Nat) (n : Nat) : State :=
  noteUse (noteUse s sensor src ctx n) 49 src ctx n

/-- Whether the power controller withholds issue from the engines of a context in this window (R392). -/
def withheld (s : State) (ctx : Option Nat) : Bool :=
  s.power.held && (s.power.heldReserved ||
    (match ctx.bind (contextOf s) with | some c => decide (c.reserved = 0) | none => true))

/-! ### Names of status values (R14) -/

def stOK : Nat := 0x00
def stEMPTY : Nat := 0x01
def stCANCELLED : Nat := 0x02
def stVERSION : Nat := 0x10
def stBUSY : Nat := 0x11
def stPENDING : Nat := 0x12
def stUNLICENSED : Nat := 0x20
def stABSENT : Nat := 0x21
def stRETIRED : Nat := 0x22
def stSHAPE : Nat := 0x30
def stALIGN : Nat := 0x31
def stSMALL : Nat := 0x32
def stCOUNT : Nat := 0x33
def stCYCLE : Nat := 0x34
def stOVERLAP : Nat := 0x35
def stTIMEOUT : Nat := 0x40
def stDEADLOCK : Nat := 0x41
def stDEADLINE : Nat := 0x42
def stENERGY : Nat := 0x43
def stPAGE : Nat := 0x50
def stWINDOW : Nat := 0x51
def stRESET : Nat := 0x52
def stDEGRADED : Nat := 0x60
def stTOPOLOGY : Nat := 0x61
def stSEALED : Nat := 0x70
def stCHECK : Nat := 0x71
def stSIGN : Nat := 0x72

/-- The outcome of a meaning: always a next state (Faults, INVENTORY.md). -/
abbrev Out := Host.Outcome State Fault Refusal

end Sys2Proof.Machine
end

