-- ==== Sys2Proof/Machine/Access.lean ====
section
/-!
DEFINITION. Sys2Proof/Machine/Access.lean: what an access meets (R4, R12, R26, R27, R35, R36, R278, R282, R289), the
granules of the scratchpads (R287), and the IOMMU's translation (R283 to R285).
-/
namespace Sys2Proof.Machine

/-! ### Granules -/

/-- The number of the granule a place lies in (R287): 64 for each tile, 32 for each core, 16 for each SHM slice. -/
def granuleAt : Loc → Option Nat
  | .tile n off => if off < 0x390000 then some (n * 64 + off / 0x10000) else none
  | .core n off => if off < 0x140000 then some (4608 + n * 32 + off / 0x10000) else none
  | .shm sl off => some (8192 + sl * 16 + off / 0x40000)
  | _ => none

/-- First address and size of a granule. -/
def granuleRange (g : Nat) : Nat × Nat :=
  if g < 4608 then (tileBase (g / 64) + g % 64 * 0x10000, 0x10000)
  else if g < 8192 then (coreBase ((g - 4608) / 32) + (g - 4608) % 32 * 0x10000, 0x10000)
  else (shmBase + (g - 8192) * 0x40000, 0x40000)

/-- Whether a number names a granule. -/
def granuleExists (g : Nat) : Bool :=
  if g < 4608 then decide (g % 64 < 57)
  else if g < 4864 then decide ((g - 4608) % 32 < 20)
  else decide (8192 ≤ g) && decide (g < 8448)

/-- The granules of a tile, a core, an SHM slice. -/
def tileGranules (n : Nat) : List Nat := (List.range 57).map (fun i => n * 64 + i)
def coreGranules (n : Nat) : List Nat := (List.range 20).map (fun i => 4608 + n * 32 + i)
def sliceGranules (sl : Nat) : List Nat := (List.range 16).map (fun i => 8192 + sl * 16 + i)

/-- The island a granule lies in: the tile's, the core's, the slice's DDR5 controller. -/
def granuleDomain (g : Nat) : Domain :=
  if g < 4608 then .tile (g / 64) else if g < 8192 then .core ((g - 4608) / 32) else .ddr ((g - 8192) / 64)

/-- A granule marked DIRTY (R287); the order of R294 is the time. A granule that is OFF stays so. -/
def markDirty (s : State) (g : Nat) : State :=
  let x := granOf s g
  if x.st = .off then s
  else setGran s g { x with st := .dirty, dirtyAt := if x.st = .dirty then x.dirtyAt else s.clk.up }

/-- Whether any granule of a list is DIRTY or SCRUBBING: the marks of `GT_DIRTY` and `EC_DIRTY` (R287). -/
def anyDirty (s : State) (gs : List Nat) : Bool :=
  gs.any (fun g => (granOf s g).st = .dirty || (granOf s g).st = .scrubbing)

/-! ### What an access meets -/

/-- What an access meets, before the rules of the block it reaches. -/
inductive Meets where
  | unmapped | absent | reset | bankOff | dirty (g : Nat) | here
  deriving DecidableEq, Repr



/-- The window whose range covers an aperture offset and is open (R350, R35). -/
def openWindow (s : State) (off : Nat) : Option Nat :=
  findBelow (fun w => (windowOf s w).st = .open' &&
    decide (wfld s (winReg w 4) 14 0 * 0x200000 ≤ off) &&
    decide (off < (wfld s (winReg w 4) 14 0 + wfld s (winReg w 8) 15 0) * 0x200000)) 256

/-- Whether a place inside a block that is there holds nothing (R35). No table lists a register of the Network block `NW_`, and none
says that its offsets hold nothing: an access there is answered as one to a register of no bits (DESIGN CHOICE, log 66). -/
def locUnmapped (s : State) (loc : Loc) : Bool :=
  match loc with
  | .tile _ off => decide (0x390000 ≤ off) && (decide (off < 0x3F0000) || (regSpec (.tile 0 (off / 4 * 4))).isNone)
  | .core _ off => decide (0x140000 ≤ off) && (decide (off < 0x3F0000) || (regSpec (.core 0 (off / 4 * 4))).isNone)
  | .shm sl _ => decide ((shmOf s sl).mode ≠ .scratch)
  | .block .network _ => false
  | .block b off => (regSpec (.block b (off / 4 * 4))).isNone
  | .aperture off => (openWindow s off).isNone
  | _ => false

/-- Whether the place belongs to a resource that is absent for the source (R4, R36). Only Apgil reaches spares and retired engines, and
it too meets R4 at the places of their windows that hold nothing: such an access is never an unmapped one. On a grade without Bridge
links the link registers, the windows and the aperture are absent (R27). -/
def locAbsent (s : State) (src : Src) (loc : Loc) : Bool :=
  match loc with
  | .tile n _ => !tilePresent s n || (!tileInService s n && (!isApgil src || locUnmapped s loc))
  | .core n _ => decide (gradeCores s ≤ n) || (!coreInService s n && (!isApgil src || locUnmapped s loc))
  | .block (.intake p) _ => decide (gradePorts s ≤ p)
  | .block .bridge off => if off < 0x400 then decide (gradeLinks s ≤ off / 0x100) else decide (gradeLinks s = 0)
  | .aperture _ => decide (gradeLinks s = 0)
  | _ => false

/-- What an access of a source meets at an address: no window of the map first, then R4 and R36 (R27), then R26, then the
unlisted places and powered-down banks (R35, R282), then DIRTY granules (R289). -/
def meets (s : State) (src : Src) (a : Nat) : Meets :=
  let loc := locate a
  if loc = .nowhere ∨ (loc = .ddr ∧ s.ddrBytes ≤ a) then .unmapped
  else if locAbsent s src loc then .absent
  else if (match locDomain a loc with | some d => heldInReset s d | none => false) then .reset
  else if locUnmapped s loc then .unmapped
  else match granuleAt loc with
    | none => .here
    | some g =>
      if decide (8192 ≤ g) && decide (g - 8192 ∈ s.shmOff) then .bankOff
      else if !isApgil src && ((granOf s g).st = .dirty || (granOf s g).st = .scrubbing) then .dirty g
      else .here

/-- The state after an access that was refused: the event the rule names, the answer the requester gets. -/
def refuse (s : State) (src : Src) (a : Nat) (m : Meets) : State :=
  let ans (st : State) (status : Nat) : State := { st with bus := some { src := src, status := status, data := 0 } }
  match m with
  | .unmapped => ans (raiseAt s 0x102 0 src a) stOK
  | .absent => ans (raiseAt s 0x101 0 src a) stOK
  | .reset => ans (raiseAt s 0x107 stRESET src a) stRESET
  | .bankOff => ans (raiseAt s 0x106 0 src a) stOK
  | .dirty _ => ans (raiseAt s 0x105 0 src a) stOK
  | .here => s

/-! ### Translation (R283 to R285) -/

/-- A range cut at the multiples of `k`, as (address, bytes) in order. -/
def spans (k : Nat) : Nat → Nat → Nat → List (Nat × Nat)
  | 0, _, _ => []
  | fuel + 1, a, n =>
    if n = 0 then []
    else
      let m := min n (k - a % k)
      (a, m) :: spans k fuel (a + m) (n - m)

/-- The 4 KiB pages a range of I/O addresses touches (R284). -/
def pageSpans (fuel a n : Nat) : List (Nat × Nat) := spans 4096 fuel a n

/-- A 64-bit translation table entry. -/
def tableEntry (s : State) (a : Nat) : Nat := numAt s a 8

/-- Whether a reserved bit of a table entry is set (R284); `contig` is reserved above level 3. -/
def entryReserved (level e : Nat) : Bool :=
  decide (e / 2 ^ 5 % 2 ^ 7 ≠ 0) || decide (e / 2 ^ 40 ≠ 0) || (decide (level < 3) && decide (e / 16 % 2 = 1)) ||
    (decide (level = 3) && decide (e / 2 % 2 = 1))

/-- The physical address of an I/O address in a translation context, none on a translation fault (R285). Walks read only
DDR5 that is not poisoned. -/
def translate (s : State) (xlate : Nat) (write : Bool) (a : Nat) : Option Nat :=
  let base := wfld s (iommuBase + 8) 31 12 * 0x1000 + wfld s (iommuBase + 0xC) 7 0 * 2 ^ 32
  let ce := base + xlate * 16
  let w0 := numAt s ce 4; let w1 := numAt s (ce + 4) 4; let w2 := numAt s (ce + 8) 4; let w3 := numAt s (ce + 12) 4
  let bad (x : Nat) : Bool := decide (x / 64 ∈ s.poison)
  let perm (e : Nat) : Bool := decide (e / (if write then 8 else 4) % 2 = 1)
  if !wbit s iommuBase 0 || decide (w0 % 2 = 0) || decide (w0 / 2 % 128 ≠ 0) || decide (w0 / 2 ^ 14 ≠ 0) ||
      decide (w1 % 2 ^ 13 ≠ 0) || decide (w2 / 256 ≠ 0) || decide (w3 ≠ 0) || bad ce then none
  else
    let p1 := w1 + w2 * 2 ^ 32 + a / 2 ^ 30 % 1024 * 8
    let e1 := tableEntry s p1
    if decide (e1 % 2 = 0) || entryReserved 1 e1 || decide (e1 / 2 % 2 = 0) || bad p1 then none
    else
      let p2 := e1 / 4096 % 2 ^ 28 * 4096 + a / 2 ^ 21 % 512 * 8
      let e2 := tableEntry s p2
      if decide (e2 % 2 = 0) || entryReserved 2 e2 || bad p2 then none
      else if e2 / 2 % 2 = 0 then
        if decide (e2 / 2 ^ 12 % 2 ^ 9 ≠ 0) || !perm e2 then none
        else some (e2 / 2 ^ 21 % 2 ^ 19 * 2 ^ 21 + a % 2 ^ 21)
      else
        let p3 := e2 / 4096 % 2 ^ 28 * 4096 + a / 2 ^ 12 % 512 * 8
        let e3 := tableEntry s p3
        if decide (e3 % 2 = 0) || entryReserved 3 e3 || !perm e3 || bad p3 then none
        else some (e3 / 4096 % 2 ^ 28 * 4096 + a % 4096)

/-- The owning execution context of a translation context (R284). -/
def xlateOwner (s : State) (xlate : Nat) : Nat :=
  numAt s (wfld s (iommuBase + 8) 31 12 * 0x1000 + wfld s (iommuBase + 0xC) 7 0 * 2 ^ 32 + xlate * 16) 4 / 256 % 64

/-- Whether a translation context is open and belongs to an execution context (R283). -/
def xlateIs (s : State) (xlate ctx : Nat) : Bool :=
  decide (numAt s (wfld s (iommuBase + 8) 31 12 * 0x1000 + wfld s (iommuBase + 0xC) 7 0 * 2 ^ 32 + xlate * 16) 4 % 2 = 1) &&
    decide (xlateOwner s xlate = ctx)

/-- A translation fault reported by the IOMMU (R285): counted, and raised with context and address. -/
def iommuFault (s : State) (src : Src) (ctx : Option Nat) (a : Nat) : State :=
  raiseEv (bump s (iommuBase + 0x20)) 0x205 stPAGE (srcIndex src) ctx a

end Sys2Proof.Machine
end

