-- ==== Sys2Proof/Machine/Desc.lean ====
section
/-!
DEFINITION. Sys2Proof/Machine/Desc.lean: the fields of a Stroke descriptor (R91), a stream's frames, and who carries a
Stroke (R63, R85).
-/
namespace Sys2Proof.Machine

/-- A word of the Stroke descriptor, by its byte offset. -/
def dw (x : Stream) (off : Nat) : Word := x.desc.getD (off / 4) 0

/-- An address split into two words (R91). -/
def dAddr (x : Stream) (off : Nat) : Nat := (dw x off).toNat + fld (dw x (off + 4)) 7 0 * 2 ^ 32

def dPort (x : Stream) : Nat := fld (dw x 4) 19 16
def dStream (x : Stream) : Nat := fld (dw x 4) 12 8
def dStage (x : Stream) : Nat := fld (dw x 4) 24 24
def dReal (x : Stream) : Bool := bitOf (dw x 4) 25
def dDrain (x : Stream) : Bool := bitOf (dw x 4) 26
def dDet (x : Stream) : Bool := bitOf (dw x 4) 27
def dH (x : Stream) : Nat := fld (dw x 8) 7 0
def dR (x : Stream) : Nat := fld (dw x 8) 15 8
def dStrings (x : Stream) : Nat := fld (dw x 8) 19 16
def dPark (x : Stream) : Nat := fld (dw x 8) 21 20
def dWidth (x : Stream) : Nat := fld (dw x 0xC) 13 0
def dHeight (x : Stream) : Nat := fld (dw x 0xC) 29 16
def dPlan (x : Stream) : Nat := (dw x 0x10).toNat
def dStrokeId (x : Stream) : Nat := (dw x 0x14).toNat
def dRing (x : Stream) : Nat := dAddr x 0x18
def dRingRows (x : Stream) : Nat := fld (dw x 0x20) 15 0
def dDeadline (x : Stream) : Nat := (dw x 0x24).toNat
def dXlate (x : Stream) : Nat := fld (dw x 0x2C) 7 0
def dLaunch (x : Stream) : Nat := (dw x 0x30).toNat + (dw x 0x34).toNat * 2 ^ 32
def dResult (x : Stream) : Nat := dAddr x 0x38
def dResultN (x : Stream) : Nat := fld (dw x 0x40) 12 0
def dResultFlag (x : Stream) : Nat := fld (dw x 0x44) 15 0
def dDetFlag (x : Stream) : Nat := fld (dw x 0x48) 15 0
def dBruFlag (x : Stream) : Nat := fld (dw x 0x48) 31 16
def dBruTimeout (x : Stream) : Nat := if fld (dw x 0x4C) 23 0 = 0 then 10000 else fld (dw x 0x4C) 23 0
def dOutBase (x : Stream) (p : Nat) : Nat := dAddr x (0x50 + 12 * p)
def dOutStride (x : Stream) (p : Nat) : Nat := fld (dw x (0x58 + 12 * p)) 19 0
def dOutSlots (x : Stream) : Nat := fld (dw x 0x74) 6 0
def dOutPitch (x : Stream) : Nat := dAddr x 0x78
def dDetBase (x : Stream) (p : Nat) : Nat := dAddr x (0x80 + 12 * p)
def dDetStride (x : Stream) (p : Nat) : Nat := fld (dw x (0x88 + 12 * p)) 19 0
def dDetPitch (x : Stream) : Nat := dAddr x 0xA4

/-- Whether a Stroke was asked to run in drain mode: by its descriptor or by START_STREAM (R91, R113). -/
def launchDrain (x : Stream) : Bool := dDrain x || x.options.testBit 1

/-- The row pitch of the Plate output ring (R95). -/
def ringPitch (x : Stream) : Nat := roundUp (dWidth x * 2) 64

/-- The I/O address of a slot of the Plate output ring (R91, R95). -/
def ringAddr (x : Stream) (slot : Nat) : Nat := dRing x + slot * ringPitch x

/-- Stripes of a frame (R94). -/
def stripesOf (x : Stream) : Nat := ceilDiv (dHeight x) (dH x)

/-- The sequence number of the frame of the stripe numbered j (R50, R100). -/
def stripeSeq (x : Stream) (j : Nat) : Nat := j / stripesOf x % 2 ^ 32

/-- Whether a stream's Stroke runs: launched and not ended (R93, R111, R112). -/
def carries (x : Stream) : Bool := x.phase = .running || x.phase = .stopping || x.phase = .launching

/-- Whether a port carries a Stroke (R63). -/
def portCarries (s : State) (p : Nat) : Bool :=
  s.streams.any (fun e => match e.2 with | some x => carries x && decide (dPort x = p) | none => false)

/-- Whether any stream carries a Stroke (R85). -/
def anyCarries (s : State) : Bool :=
  s.streams.any (fun e => match e.2 with | some x => carries x | none => false)

/-- A stream changed, when it exists. -/
def updStream (s : State) (n : Nat) (f : Stream → Stream) : State :=
  match streamOf s n with
  | some x => setStream s n (some (f x))
  | none => s

/-- The frame of a sequence number. -/
def frameOf (x : Stream) (seq : Nat) : Option FrameRec := x.frames.find? (fun f => f.seq = seq)

/-- A stream with one frame changed. -/
def updFrame (x : Stream) (seq : Nat) (f : FrameRec → FrameRec) : Stream :=
  { x with frames := x.frames.map (fun r => if r.seq = seq then f r else r) }

/-- A stream's frame changed in the state. -/
def updFrameIn (s : State) (n seq : Nat) (f : FrameRec → FrameRec) : State := updStream s n (fun x => updFrame x seq f)

/-- Flag bits of R106 set in a frame. -/
def orFlags (fl : Nat) (f : FrameRec) : FrameRec := { f with flags := f.flags ||| fl }

/-- Whether a cancel of a context falls in this event tick and has not been applied yet: it goes before a scheduled launch (R139, R310, R313). -/
def cancelDue (s : State) (ctx : Nat) : Bool := s.clk.cancels.any (fun p => decide (p.1 = ctx) && decide (p.2 ≤ s.clk.up))

/-- The loaded package of a plan identifier. -/
def packageOf (s : State) (ident : Nat) : Option Package := s.host.packages.find? (fun p => p.ident = ident)

/-- A variant of the plan of a stream. -/
def planVariant (s : State) (x : Stream) (i : Nat) : Option Variant :=
  match packageOf s (dPlan x) with
  | some p => p.content.variants[i]?
  | none => none

/-- The string variant a stream was given (R192). -/
def variantOf (s : State) (x : Stream) : Option Variant := planVariant s x x.variant

/-- The variant a string runs (R89: strings may divide the network differently). -/
def stringVariant (s : State) (x : Stream) (g : Strg) : Option Variant := planVariant s x g.variant

/-- The flags of string i: of its stripes, its input credit, its deliveries; those of a hand-over from place k on, and of its credit (R97). -/
def inFlagOf (v : Variant) (i : Nat) : Nat := v.inFlag + i
def inCreditOf (v : Variant) (i : Nat) : Nat := v.inCredit + i
def outFlagOf (v : Variant) (i : Nat) : Nat := v.outFlag + i
def handFlagOf (v : Variant) (i k : Nat) : Nat := v.handFlag + 8 * k + i
def handCreditOf (v : Variant) (i k : Nat) : Nat := v.handCredit + 8 * k + i

/-- The oldest stripe whose input rows a string of the stream may still read: rows before it are not kept (R95). Without strings it is the
stripe the colour stage takes next. -/
def oldestUnread (s : State) (x : Stream) : Nat :=
  if x.strings.isEmpty then x.head
  else x.strings.foldl (fun a g =>
    let bufs := match stringVariant s x g with | some v => v.buffers | none => 0
    (g.inFlight.drop (g.inFlight.length - (bufs - g.credits))).foldl min a) x.nextStripe

/-- Ring slots of rows no stripe from `j` on reads (R95, R96): freed. -/
def freeRing (x : Stream) (j : Nat) : Stream :=
  let seq := stripeSeq x j; let lo := j % stripesOf x * dH x - x.halo
  { x with ring := x.ring.filter (fun r => if r.frame = seq then decide (lo ≤ r.row) else decide ((r.frame + 2 ^ 32 - seq) % 2 ^ 32 < 2 ^ 31)) }

/-- A stream whose ring holds only rows that a stripe still reads (R95). -/
def ringFreed (s : State) (x : Stream) : Stream := freeRing x (oldestUnread s x)

/-- A word of a latched Plate or colour copy. -/
def plWord (t : Tbl Word) (off : Nat) : Word := tget (regReset (plReg 0 off)) t off
def clWord (t : Tbl Word) (off : Nat) : Word := tget (regReset (clReg 0 off)) t off

/-! ### Request lines (R255) -/

def lineReg (l off : Nat) : Nat := dmaBase + 0x40000 + l * 8 + off

/-- The channel a request line is bound to. -/
def lineChan (s : State) (l : Nat) : Option Nat :=
  if wbit s (lineReg l 0) 0 then some (wfld s (lineReg l 0) 2 1 * 32 + wfld s (lineReg l 0) 7 3) else none

/-- The credits of a line. -/
def lineCredit (s : State) (l : Nat) : Nat := wfld s (lineReg l 4) 15 0

end Sys2Proof.Machine
end

