-- ==== Sys2Proof/Machine/Routes.lean ====
section
/-!
DEFINITION. Sys2Proof/Machine/Routes.lean: routes over Bridge links and the requests this device sends by them (R341, R344, R347, R348).
-/
namespace Sys2Proof.Machine

/-! ### Routes (R347) -/

/-- Whether a link carries traffic: memory and flags only when UP; the relay of requests also when MGMT_ONLY (R344, R357). -/
def linkCarries (s : State) (mgmt : Bool) (k : Nat) : Bool :=
  decide ((linkOf s k).st = .up) || (mgmt && decide ((linkOf s k).st = .mgmtOnly))

/-- The hops from a set of devices to a device over the neighbour lists, within a limit. -/
def hopsFrom (ns : List Neighbour) (dest : Nat) : Nat → List Nat → Option Nat
  | 0, _ => none
  | fuel + 1, at' =>
    if dest ∈ at' then some 0
    else (hopsFrom ns dest fuel ((ns.filter (fun e => decide (e.device ∈ at'))).map (fun e => e.peer)).eraseDups).map (fun n => n + 1)

/-- The hops to a device over a first link: at most 15; a version-1 link leads to its peer alone (R344, R347). -/
def linkHops (s : State) (mgmt : Bool) (dest k : Nat) : Option Nat :=
  if !linkCarries s mgmt k then none
  else if (linkOf s k).peer = dest then some 1
  else if !mgmt && decide ((linkOf s k).version < 2) then none
  else (hopsFrom s.bridge.neighbours dest 15 [(linkOf s k).peer]).map (fun n => n + 1)

/-- The first link of the route to a device (R347): fewest hops, then the widest first link, then the lowest link. -/
def routeTo (s : State) (mgmt : Bool) (dest : Nat) : Option Nat :=
  minBy (fun k => (linkHops s mgmt dest k).getD 99 * 100 + (9 - (linkOf s k).width) * 10 + k)
    ((List.range 4).filter (fun k => match linkHops s mgmt dest k with | some n => decide (n ≤ 15) | none => false))

/-! ### Requests sent (R348) -/

/-- The key of the numbers that one endpoint of this device gives its requests to one device. -/
def outKey (src : Src) (dest : Nat) : Nat := srcIndex src * 2 ^ 14 + dest

/-- A request of an endpoint through the aperture: it takes the next number towards its device (R348). A write leaves by the route of the
moment, or is held while there is none (R349), until its link acknowledges it; `bs` is none for a read. -/
def sendOut (s : State) (src : Src) (a : Nat) (bs : Option (List Byte)) : State :=
  match openWindow s (a - apertureBase) with
  | none => s
  | some w =>
    let dest := wfld s (winReg w 0) 29 16
    let k := outKey src dest
    let n := tget 0 s.bridge.nums k
    let more : List OutReq := match bs with
      | some d => [{ src := src, dest := dest, num := n, link := routeTo s false dest, exportId := (word s (winReg w 12)).toNat,
                     offset := a - apertureBase - wfld s (winReg w 4) 14 0 * 0x200000, data := d }]
      | none => []
    { s with bridge := { s.bridge with nums := tset 0 s.bridge.nums k (n + 1), out := s.bridge.out ++ more } }

/-- Whether a request still has the link it was sent by (R348). -/
def linkKeeps (s : State) (p : OutReq) : Bool :=
  match p.link with
  | some k => (linkHops s false p.dest k).isSome
  | none => false

/-- What a failed link has not acknowledged is sent again by the new route; without one it is held (R348, R349). -/
def resend (s : State) : State :=
  { s with bridge := { s.bridge with out := s.bridge.out.map (fun p => if linkKeeps s p then p else { p with link := routeTo s false p.dest }) } }

/-- Acknowledgements of links that arrive in a tick: which of the requests sent they name is open (R341; log 1). -/
def ackOut (s : State) : State :=
  if s.bridge.out = [] then s
  else
    let r := freshNat 73 s
    { r.2 with bridge := { r.2.bridge with out :=
        (r.2.bridge.out.zipIdx.filter (fun p => p.1.link.isNone || r.1.testBit p.2 == false)).map (fun p => p.1) } }

/-- What is kept of requests to and from a device forgotten, once no route to it has existed for 10 ms (R349; log 71). -/
def forgetDevice (s : State) (d : Nat) : State :=
  { s with bridge := { s.bridge with
      out := s.bridge.out.filter (fun p => p.dest ≠ d)
      nums := s.bridge.nums.filter (fun (e : Nat × Nat) => e.1 % 2 ^ 14 ≠ d)
      expect := s.bridge.expect.filter (fun (e : Nat × Nat) => e.1 / 2 ^ 16 ≠ d)
      early := s.bridge.early.filter (fun a => a.sender ≠ d) } }

end Sys2Proof.Machine
end

