-- ==== Sys2Proof/Machine/RegAcc.lean ====
section
/-!
DEFINITION. Sys2Proof/Machine/RegAcc.lean: who may read and write a register, what a write sets, what a read returns (R13, R62, R63, R83
to R85, R88, R140, R141, R179, R185, R223, R224, R269, R270, R286, R298, R316, R338, R358, R362 to R364, R379, R394, R443, R467), the
lines a cache slice holds (R278 to R281), and the accesses of engines to physical and translated addresses (R12, R24, R26, R35, R275).
-/
namespace Sys2Proof.Machine

/-- Whether an engine is RUNNING, WAITING or STOPPING. -/
def engHolds : EngState → Bool
  | .running => true | .waiting => true | .stopping => true
  | .idle => false | .done => false | .error => false | .resetting => false

/-! ### Who may write -/

/-- What becomes of a write to a register that is there. -/
inductive Right where
  | yes | w1cOnly | ignored | no
  deriving DecidableEq, Repr

/-- Apgil alone, apart from W1C bits. -/
def apgilOrW1c (src : Src) (closed : Bool) : Right := if isApgil src || !closed then .yes else .w1cOnly

/-- Apgil alone. -/
def apgilOnly (src : Src) (closed : Bool) : Right := if isApgil src || !closed then .yes else .no

/-- Whether a channel is not IDLE, DONE or ERROR (R255, R270). -/
def chanLocked (x : Chan) : Bool := !(decide (x.st = .idle) || decide (x.st = .done) || decide (x.st = .error))

/-- Whether a stream carries a Stroke. -/
def streamCarries (s : State) (n : Nat) : Bool := match streamOf s n with | some x => carries x | none => false

/-- Whether a word of the Plate, colour and statistics block is in use by a Stroke (R84): of an active bank, or of a shading slot
that a latched copy names. -/
def tableInUse (s : State) (off : Nat) : Bool :=
  if 0x10000 ≤ off ∧ off < 0x50000 then
    let n := (off - 0x10000) / 0x2000
    streamCarries s n && decide ((off - 0x10000) / 0x1000 % 2 = fld (plWord (tget [] s.plLatch n) 0) 4 4)
  else if 0x80000 ≤ off ∧ off < 0x100000 then
    let n := (off - 0x80000) / 0x4000
    streamCarries s n && decide ((off - 0x80000) / 0x2000 % 2 = fld (clWord (tget [] s.clLatch n) 0) 1 1)
  else if 0x100000 ≤ off ∧ off < 0x200000 then
    (streamList s).any (fun n => streamCarries s n &&
      decide ((off - 0x100000) / 0x10000 = fld (plWord (tget [] s.plLatch n) 0x48) 3 0))
  else false

/-- Whether a PCM entry lies in a latched segment of a stream that carries a Stroke (R84). -/
def pcmInUse (s : State) (off : Nat) : Bool :=
  (streamList s).any (fun n => streamCarries s n &&
    (let b := fld (plWord (tget [] s.plLatch n) 0x40) 20 0
     decide (b ≤ off / 8) && decide (off / 8 < b + fld (plWord (tget [] s.plLatch n) 0x44) 21 0)))

/-- Whether an application core is bound to a mailbox channel (R338). -/
def mboxBound (s : State) (src : Src) (c : Nat) : Bool :=
  match src with
  | .app n => decide (n < 8) && wbit s (mboxBase c + 0x1008) n
  | _ => false

/-- Who may write a register (the chapters' rules named in the file's header). -/
def writeRight (s : State) (src : Src) : Loc → Right
  | .block (.intake p) off => if off = 4 ∨ (0x100 ≤ off ∧ off < 0x11C) then .yes else apgilOnly src (portCarries s p)
  | .block .front off => if tableInUse s off then .no else apgilOnly src (anyCarries s)
  | .pcm off => if pcmInUse s off then .no else apgilOnly src (anyCarries s)
  | .block .dma off =>
    if off < 0x40000 then
      let c := off / 0x10000 * 32 + off % 0x10000 / 0x100
      let o := off % 0x100
      if !isApgil src && (chanCtx s c).isSome then .w1cOnly
      else if (o = 8 ∨ o = 0xC ∨ o = 0x10 ∨ o = 0x14) ∧ chanLocked (chanOf s c) then .no
      else .yes
    else match lineChan s ((off - 0x40000) / 8) with
      | some c => if !isApgil src && (chanCtx s c).isSome then .no else if chanLocked (chanOf s c) then .ignored else .yes
      | none => .yes
  | .block .flags _ => .ignored
  | .block .time off =>
    if 0x1000 ≤ off ∧ off < 0x3000 ∧ off % 0x20 ≠ 0x14 ∧ (slotOf s ((off - 0x1000) / 0x20)).armed then
      (if isApgil src then .ignored else .no)
    else apgilOrW1c src true
  | .block .mbox off =>
    let c := off / 0x2000
    let o := off % 0x2000
    if isApgil src then .yes
    else if mboxBound s src c then
      (if o = 0x1008 then .no else if o < 0x1000 then (if (mboxOf s c).st = .claimed then .yes else .ignored) else .yes)
    else .no
  | .block .power _ => apgilOnly src true
  | .block .bru off => if 0x8000 ≤ off then .ignored else apgilOnly src true
  | .block .bridge _ => apgilOnly src true
  | .block .network _ => apgilOnly src true
  | .block .iommu _ => apgilOnly src true
  | .block .faults _ => apgilOnly src true
  | .block .smi off =>
    if off < 0x40000 ∨ off = 0x200008 then .ignored
    else if off = 0x20000C then .yes
    else if off = 0x200010 then apgilOnly src true
    else .no
  | .tile n off => if 0x3F0800 ≤ off ∧ engHolds (tileOf s n).st then .no else apgilOrW1c src (tileCtx s n).isSome
  | .core n _ => apgilOrW1c src (coreCtx s n).isSome
  | _ => .yes

/-! ### What a write sets -/

/-- The bits of a register that a row of its own writes: REGISTER_WRITE leaves them (TIME_SOURCE_SELECT, QUEUE_ENABLE,
PARTITION_ENABLE and PARTITION_DISABLE). -/
def ownRowBits : Loc → Nat
  | .block .time off =>
    if off = 8 then 3 else if 0x8000 ≤ off ∧ off < 0xC000 ∧ off % 0x20 = 8 then 0x80000000 else 0
  | .block .power off => if off < 0xC0 then 1 else 0
  | _ => 0

/-- Whether a chapter ignores the value for this register (R140, R179, R224, R269, R316, R394). -/
def badValue : Loc → Word → Bool
  | .tile _ off, v => decide (off = 0x3F0014) && decide (fld v 23 0 = 0)
  | .core _ off, v => decide (off = 0x3F0014) && decide (fld v 23 0 = 0)
  | .block .dma off, v =>
    decide (off < 0x40000) &&
      ((decide (off % 0x100 = 0x14) && (decide (fld v 6 0 = 0) || decide (64 < fld v 6 0))) ||
       (decide (off % 0x100 = 0x18) && decide (fld v 23 0 = 0)))
  | .block .time off, v =>
    (decide (off = 0x10) && (decide (sext 32 v.toNat < -500000) || decide (500000 < sext 32 v.toNat))) ||
      (decide (0x8000 ≤ off) && decide (off % 0x20 = 0x18) && decide (fld v 23 0 = 0))
  | .block .bru off, v => decide (off = 0x14) && decide (fld v 23 0 = 0)
  | .block .power off, v => decide (off = 0x800) && (decide (fld v 16 0 < 10000) || decide (100000 < fld v 16 0))
  | _, _ => false

/-- The bits only Apgil sets in a channel's binding (R270, R283). -/
def apgilBits (src : Src) : Loc → Nat
  | .block .dma off => if off < 0x40000 ∧ off % 0x100 = 0x10 ∧ isApgil src = false then 0x30000 else 0
  | _ => 0

/-- A register word with the writable bits of a value, and the W1C bits it clears (R13). -/
def mergeWord (old v : Word) (rw w1c : Nat) : Word :=
  ((old &&& ~~~ BitVec.ofNat 32 rw) ||| (v &&& BitVec.ofNat 32 rw)) &&& ~~~ (v &&& BitVec.ofNat 32 w1c)

/-- The key of the register word behind an address: banked port registers reach the selected bank (R62). -/
def regKey (s : State) (a : Nat) : Nat :=
  match locate a with
  | .block (.intake p) off => if intakeBanked off && off ≠ 4 then bankKey p (wfld s (intakeBase p + 0x38) 3 0) off else a
  | _ => a

/-- A link whose disable bit is set is held DOWN (R358). -/
def linkHeld (s : State) (k : Nat) : State :=
  if wbit s (bridgeBase + k * 0x100) 1 then setLink s k { linkOf s k with st := .down, width := 0 } else s

/-- A window whose valid bit is written is open or closed (R350, R358). -/
def windowSet (s : State) (w : Nat) (valid : Bool) : State :=
  let x := windowOf s w
  if valid then (if x.st = .closed then setWindow s w { x with st := .open' } else s) else setWindow s w { x with st := .closed }

/-- The write of a register that is there and may be written. -/
def writeReg (s : State) (src : Src) (a : Nat) (loc : Loc) (r : RegSpec) (v : Word) : State :=
  if badValue loc v then s
  else
    let rw := r.rw &&& (0xFFFFFFFF ^^^ (ownRowBits loc ||| apgilBits src loc))
    if r.table then store s a (leBytes 4 (v &&& BitVec.ofNat 32 r.rw).toNat)
    else
      let key := regKey s a
      let s1 := setWord s key (mergeWord (word s key) v rw r.w1c)
      match loc with
      | .block (.intake p) 0 => setWbit s1 (intakeBase p) 0 (bitOf v 0)
      | .block .faults 8 => { s1 with fc := { s1.fc with rd := v.toNat } }
      | .block .bridge off =>
        if off < 0x400 then linkHeld s1 (off / 0x100)
        else if off % 0x20 = 0 ∧ off < 0xA000 then windowSet s1 ((off - 0x8000) / 0x20) (bitOf v 0)
        else s1
      | _ => s1

/-! ### What a read returns -/

/-- Bytes a line takes in line memory with its descriptor (R42). -/
def lineBytes (width bits : Nat) : Nat := ceilDiv (width * bits) 512 * 64 + 64

/-- Bytes of line memory a stored line holds; a row the port formed from the pad value holds none (DESIGN CHOICE, log 10). -/
def lineCost (l : Line) : Nat := if l.padded then 0 else lineBytes l.samples.length l.bits

/-- `IN_LM_LEVEL` of a port (R62). -/
def lmLevel (s : State) (p : Nat) : Nat :=
  (List.range 16).foldl (fun a k => (bankOf s p k).lines.foldl (fun a l => a + lineCost l) a) 0

/-- Whether a read of a flag word returns its value (R298). -/
def flagReadable (s : State) (src : Src) (flag : Nat) : Bool :=
  match src with
  | .mgmt _ => true
  | .dma c => (match chanCtx s c with | some k => flagAllowed s (some k) flag | none => false)
  | _ => false

/-- The 64-bit value of a pair by the address of its low word. -/
def pairValue (s : State) (a : Nat) : Option Nat :=
  match locate a with
  | .block .time 0 => some s.clk.now
  | .tile n off =>
    if 0x3F0100 ≤ off ∧ off < 0x3F0158 ∧ off % 8 = 0 then some (tget 0 (tileOf s n).cnt ((off - 0x3F0100) / 8)) else none
  | .core n off =>
    if 0x3F0100 ≤ off ∧ off < 0x3F0140 ∧ off % 8 = 0 then some (tget 0 (coreOf s n).cnt ((off - 0x3F0100) / 8)) else none
  | .block .dma off =>
    if off < 0x40000 ∧ off % 0x10000 < 0x2000 ∧ off % 0x100 = 0x40 then
      some (chanOf s (off / 0x10000 * 32 + off % 0x10000 / 0x100)).bytes
    else none
  | .block .power off =>
    if 0x400 ≤ off ∧ off < 0x600 ∧ off % 8 = 0 then
      some (match contextOf s ((off - 0x400) / 8) with | some c => c.charged | none => 0)
    else none
  | _ => none

/-- The number `GT_STATUS`, `EC_STATUS` show for a state (R140, R224). -/
def engCode : EngState → Nat
  | .idle => 0 | .running => 1 | .waiting => 2 | .stopping => 3 | .done => 4 | .error => 5 | .resetting => 0

/-- The number `DM_STATUS` shows for a state (R269). -/
def chanCode : ChanState → Nat
  | .idle => 0 | .running => 1 | .waiting => 2 | .faulted => 3 | .stopping => 4 | .done => 5 | .error => 6 | .resetting => 0

/-- Tags that a tile's fetches hold in its DMA cluster (R136). -/
def tileTags (s : State) (n : Nat) : Nat := ((tileOf s n).fetch.map (fun f => f.tags)).sum

/-- The DMA cluster of a tile (R136). -/
def tileCluster (n : Nat) : Nat := n % 12 / 3

/-- The tags a channel holds (R246): one for each burst whose data has not returned and whose write has not been issued. -/
def chanTags (x : Chan) : Nat := (x.bursts.filter (fun b => !b.got)).length

/-- Tags in use in a DMA cluster (R247, R269): those of its channels' bursts and of its tiles' fetches. -/
def clusterTags (s : State) (k : Nat) : Nat :=
  ((List.range 32).map (fun i => chanTags (chanOf s (k * 32 + i)))).sum +
    ((List.range 72).map (fun n => if tileCluster n = k then tileTags s n else 0)).sum

/-- A status word of state, code and fault bit beside the sticky bits a register word holds (R140, R224, R269). -/
def statusWord (w : Word) (st code : Nat) (fault slow : Bool) : Word :=
  w ||| BitVec.ofNat 32 (st + code % 256 * 2 ^ 8 + b2n fault * 2 ^ 16 + b2n slow * 2 ^ 21)

/-- The marks of a memory whose granules are DIRTY or SCRUBBING (R287). -/
def dirtyBits (s : State) (mems : List (List Nat)) : Nat :=
  (mems.zipIdx.map (fun m => b2n (anyDirty s m.1) * 2 ^ m.2)).sum

/-- A busy pipeline or stage, with its stream (R88). -/
def busyWord (stream : Option Nat) : Word := match stream with | some n => BitVec.ofNat 32 (1 + 2 * n) | none => 0

/-- Tile registers that show what the tile does (R140). -/
def tileView (s : State) (n o : Nat) (w : Word) : Word :=
  let t := tileOf s n
  let g (lo k : Nat) : List Nat := (List.range k).map (fun i => n * 64 + lo + i)
  if o = 4 then statusWord w (engCode t.st) t.code t.fault (decide (.tile n ∈ s.slow))
  else if o = 0xC then BitVec.ofNat 32 t.pc
  else if o = 0x18 then BitVec.ofNat 32 (dirtyBits s [g 0 32, g 32 16, g 48 8, g 56 1])
  else if o = 0x1C then
    BitVec.ofNat 32 (min 32 (tileTags s n) + b2n (t.fetch.any (fun f => f.issued < f.row * f.rows)) * 2 ^ 8 + b2n t.fetch.isEmpty * 2 ^ 9)
  else if 0x80 ≤ o ∧ o < 0x100 then t.layer.getD ((o - 0x80) / 4) 0
  else if o = 0x180 then w &&& 2#32
  else w

/-- Core registers that show what the core does (R224). -/
def coreView (s : State) (n o : Nat) (w : Word) : Word :=
  let c := coreOf s n
  let g (lo k : Nat) : List Nat := (List.range k).map (fun i => 4608 + n * 32 + lo + i)
  if o = 4 then statusWord w (engCode c.st) c.code c.fault (decide (.core n ∈ s.slow))
  else if o = 0xC then BitVec.ofNat 32 c.pc
  else if o = 0x18 then BitVec.ofNat 32 (dirtyBits s [g 0 16, g 16 4])
  else if 0x40 ≤ o ∧ o < 0x60 then BitVec.ofNat 32 (tget 0 c.events ((o - 0x40) / 4))
  else w

/-- DMA registers that show what channels and clusters do (R269). -/
def dmaView (s : State) (off : Nat) (w : Word) : Word :=
  if off < 0x40000 then
    let k := off / 0x10000
    let o := off % 0x10000
    if o = 0x8000 then BitVec.ofNat 32 (clusterTags s k)
    else
      let x := chanOf s (k * 32 + o / 0x100)
      let r := o % 0x100
      if r = 4 then statusWord w (chanCode x.st) x.code x.fault false
      else if r = 0x1C then BitVec.ofNat 32 x.pc
      else if 0x20 ≤ r ∧ r < 0x30 then BitVec.ofNat 32 (x.pos.getD ((r - 0x20) / 4) 0)
      else if r = 0x30 then BitVec.ofNat 32 x.faultAddr
      else if r = 0x34 then
        BitVec.ofNat 32 (x.faultAddr / 2 ^ 32 % 256 + b2n x.faultWrite * 2 ^ 8 + b2n x.faultFetch * 2 ^ 9)
      else w
  else w

/-- Port registers that show what the port does (R62). -/
def intakeView (s : State) (p off : Nat) (w : Word) : Word :=
  if off = 4 then
    let k := wfld s (intakeBase p + 0x38) 3 0
    let b := bankOf s p k
    w ||| BitVec.ofNat 32 (b2n (tget false s.ports p) + b2n b.frame.isSome * 2 + b.lastSeq % 2 ^ 16 * 2 ^ 16)
  else if off = 0x30 then BitVec.ofNat 32 (lmLevel s p)
  else w

/-- Plate and colour registers that show what the stages do (R83, R88). -/
def frontView (s : State) (off : Nat) (w : Word) : Word :=
  if off < 0x2000 then (if off % 0x100 = 8 then w ||| BitVec.ofNat 32 (b2n (tget none s.plPend (off / 0x100)).isSome) else w)
  else if off < 0x2010 then busyWord ((tget none s.plates ((off - 0x2000) / 4)).map (fun j => j.stream))
  else if 0x4000 ≤ off ∧ off < 0x6000 then
    (if off % 0x100 = 8 then w ||| BitVec.ofNat 32 (b2n (tget none s.clPend ((off - 0x4000) / 0x100)).isSome) else w)
  else if off = 0x6000 ∨ off = 0x7000 then busyWord ((tget none s.colours ((off - 0x6000) / 0x1000)).map (fun j => j.stream))
  else w

/-- The number `DT_SYNC` shows for the servo's state (R316). -/
def syncCode : SyncState → Nat
  | .free => 0 | .acquiring => 1 | .locked => 2 | .holdover => 3 | .stepPending => 4

/-- Device-time and launch registers that show the block's state (R316). -/
def timeView (s : State) (off : Nat) (w : Word) : Word :=
  if off < 0x1000 then
    if off = 8 then w ||| BitVec.ofNat 32 (syncCode s.clk.sync * 4)
    else if off = 0xC then BitVec.ofInt 32 (satS 32 s.clk.offset)
    else w
  else if off < 0x3000 then
    if off % 0x20 = 0x14 then
      let x := slotOf s ((off - 0x1000) / 0x20)
      w ||| BitVec.ofNat 32 (b2n x.armed + x.fired % 2 ^ 16 * 2 ^ 16)
    else w
  else
    let q := queueOf s ((off - 0x8000) / 0x20)
    if off % 0x20 = 0x10 then BitVec.ofNat 32 q.head
    else if off % 0x20 = 0x14 then
      BitVec.ofNat 32 ((match q.st with | .idle => 0 | .waiting => 1 | .stopped => 2) + q.code % 256 * 2 ^ 8)
    else w

/-- The number `MB_STATUS` shows for a channel's state (R338). -/
def mboxCode : MboxState → Nat
  | .free => 0 | .claimed => 1 | .request => 2 | .busy => 3 | .reply => 4 | .notice => 5

/-- Power and energy registers that show state and measurements (R394). -/
def powerView (s : State) (off : Nat) (w : Word) : Word :=
  if off < 0xC0 then w
  else if off < 0x1C0 then
    let x := partOf s ((off - 0x100) / 4)
    BitVec.ofNat 32 ((match x.st with | .off => 0 | .poweringUp => 1 | .on => 2 | .poweringDown => 3 | .enablePending => 4) +
      x.cycles * 2 ^ 16)
  else if off < 0x2D0 then BitVec.ofNat 32 (tget 0 s.power.sensors ((off - 0x200) / 4) % 2 ^ 24)
  else if off < 0x700 then w
  else if off < 0x800 then
    (match contextOf s ((off - 0x700) / 4) with | some c => BitVec.ofInt 32 (satS 32 c.balance) | none => 0)
  else if 0x900 ≤ off ∧ off < 0x960 then BitVec.ofNat 32 (wrapI 16 (tget 0 s.power.temps ((off - 0x900) / 4)))
  else if off = 0xA00 then BitVec.ofNat 32 (s.power.level + b2n s.power.tripped * 4)
  else w

/-- The number `BU_SLOT` shows for a slot's state (R179). -/
def bruCode : BruState → Nat
  | .free => 0 | .waiting => 1 | .running => 2 | .done => 3 | .error => 4

/-- Whether a channel's MOVE runs through a side of the Stipple codec (R180): 0 reads, 1 writes compressed blocks. -/
def codecSide (x : Chan) (side : Nat) : Bool :=
  match x.move with
  | some m => decide (fld (m.words.getD 0 0) 17 16 = 2 - side)
  | none => false

/-- BRU and Stipple registers that show the units' state (R179, R185): a side is busy while a codec MOVE through it has bursts in
flight. -/
def bruView (s : State) (off : Nat) (w : Word) : Word :=
  if off = 0x10 then
    w ||| (match s.bru.running with | some j => BitVec.ofNat 32 (1 + 2 * j) | none => 0)
  else if 0x100 ≤ off ∧ off < 0x200 then
    let b := bruSlotOf s ((off - 0x100) / 4)
    BitVec.ofNat 32 (bruCode b.st + b.code % 256 * 2 ^ 8 + b.done % 2 ^ 16 * 2 ^ 16)
  else if off = 0x8000 then
    let busy (side : Nat) : Bool := s.chans.any (fun e => codecSide e.2 side && !e.2.bursts.isEmpty)
    BitVec.ofNat 32 (b2n (busy 1) + b2n (busy 0) * 2)
  else w

/-- The number `BG_LINK_STATUS` shows for a link's state (R358). -/
def linkCode : LinkState → Nat
  | .down => 0 | .training => 1 | .up => 2 | .mgmtOnly => 3 | .failed => 4

/-- The number `BG_LINK_STATUS` shows for a width (R358). -/
def widthCode (w : Nat) : Nat := if w = 0 then 0 else if w = 1 then 1 else if w = 2 then 2 else if w = 4 then 3 else 4

/-- Bridge registers that show links, windows and the record (R358). -/
def bridgeView (s : State) (off : Nat) (w : Word) : Word :=
  if off < 0x400 then
    if off % 0x100 = 4 then
      let l := linkOf s (off / 0x100)
      BitVec.ofNat 32 (linkCode l.st + widthCode l.width * 2 ^ 3 + l.version % 4 * 2 ^ 6 + l.attempts % 4 * 2 ^ 8 +
        l.peer % 2 ^ 14 * 2 ^ 16 + l.peerLink % 4 * 2 ^ 30)
    else w
  else if off = 0xF000 then
    (match s.bridge.record with | some r => BitVec.ofNat 32 (r.device % 2 ^ 14 + 2 ^ 31) | none => 0x3FFF#32)
  else if off % 0x20 = 0 then
    setFld w 5 4 (match (windowOf s ((off - 0x8000) / 0x20)).st with | .closed => 0 | .open' => 1 | .closing => 2)
  else w

/-- Fault collector registers (R443). -/
def faultView (s : State) (off : Nat) (w : Word) : Word :=
  if off = 0 then BitVec.ofNat 32 (b2n s.fc.fatal)
  else if off = 4 then BitVec.ofNat 32 s.fc.wr
  else if off = 0xC then BitVec.ofNat 32 s.fc.lost
  else if 0x100 ≤ off ∧ off < 0x280 then BitVec.ofNat 32 (tget 0 s.fc.counts ((off - 0x100) / 4))
  else if 0x10000 ≤ off then (tget [] s.fc.ring ((off - 0x10000) / 32)).getD ((off - 0x10000) % 32 / 4) 0
  else w

/-- The number `SM_STATUS` shows for the SMI's state (R379). -/
def smiCode : SmiState → Nat
  | .off => 0 | .boot => 1 | .running => 2 | .recovery => 3 | .halted => 4

/-- SMI registers (R379); the Proof log is full at 65,536 entries (R377). -/
def smiView (s : State) (off : Nat) (w : Word) : Word :=
  if off = 0x200000 then
    BitVec.ofNat 32 (smiCode s.smi.st + b2n s.smi.sealed * 8 + b2n s.smi.legal * 16 + b2n (decide (65536 ≤ s.smi.log.length)) * 32)
  else if off = 0x200004 then BitVec.ofNat 32 (s.smi.committed % 2 ^ 16)
  else if off = 0x200020 then BitVec.ofNat 32 s.smi.outWr
  else if off = 0x200024 then BitVec.ofNat 32 s.smi.boots
  else if off = 0x200028 then BitVec.ofNat 32 s.smi.event
  else w

/-- What a read of the register at an address returns: the word the register file holds, beside the fields that show the state of its
block. -/
def regView (s : State) (a : Nat) : Word :=
  let w := word s (regKey s a)
  match locate a with
  | .tile n off => tileView s n (off - 0x3F0000) w
  | .core n off => coreView s n (off - 0x3F0000) w
  | .block (.intake p) off => intakeView s p off w
  | .block .front off => frontView s off w
  | .block .dma off => dmaView s off w
  | .block .flags off => flagOf s (off / 4)
  | .block .time off => timeView s off w
  | .block .mbox off =>
    if off % 0x2000 = 0x1004 then
      let m := mboxOf s (off / 0x2000)
      w ||| BitVec.ofNat 32 (mboxCode m.st + min 255 (m.queued.filter (fun q => q.kind = 2)).length * 2 ^ 8)
    else w
  | .block .power off => powerView s off w
  | .block .bru off => bruView s off w
  | .block .bridge off => bridgeView s off w
  | .block .network _ => 0
  | .block .iommu off => if off = 0x18 then BitVec.ofNat 32 (b2n s.inval.isSome) else w
  | .block .faults off => faultView s off w
  | .block .smi off => smiView s off w
  | .pcm _ => wordAt s a
  | .ddr => wordAt s a
  | .shm _ _ => wordAt s a
  | .aperture _ => 0
  | .nowhere => 0

/-- Whether a source may read a register or a window (R298, R338). -/
def readable (s : State) (src : Src) : Loc → Bool
  | .block .flags off => flagReadable s src (off / 4)
  | .block .mbox off => isApgil src || mboxBound s src (off / 0x2000)
  | _ => true

/-- A read of a register by a requester: its value, the latch of a pair read for the requester alone (R467). -/
def readReg (s : State) (src : Src) (a : Nat) : State × Word :=
  match pairValue s a with
  | some v =>
    ({ s with latches := s.latches.filter (fun l => !(decide (l.1 = src) && decide (l.2.1 = a))) ++
                [(src, a, BitVec.ofNat 32 (v / 2 ^ 32))] }, BitVec.ofNat 32 v)
  | none =>
    if 4 ≤ a && (pairValue s (a - 4)).isSome then
      (s, ((s.latches.find? (fun l => decide (l.1 = src) && decide (l.2.1 = a - 4))).map (fun l => l.2.2)).getD 0)
    else match regSpec (locate a) with
      | some r => (s, if r.table then wordAt s a else regView s a)
      | none => (s, 0)

/-! ### Cache slices (R278 to R281) -/

/-- The SHM slice that caches a DDR5 address (R272). -/
def homeSlice (a : Nat) : Nat := a / 256 % 4 * 4 + a / 1024 % 4

/-- Whether a slice serves accesses as a cache: in a cache mode, no change of mode in progress (R279, R281). -/
def caching (x : ShmSlice) : Bool := decide (x.mode ≠ .scratch) && x.target.isNone

/-- Whether a mode lets a requester's misses allocate (R278). The statistics engine is endpoint 0. -/
def admits (m : ShmMode) (src : Src) : Bool :=
  match m with
  | .scratch => false
  | .cacheAll => true
  | .cacheApp => (match src with | .app _ => true | _ => false)
  | .cacheEng => (match src with | .tile _ => true | .core _ => true | .dma _ => true | .bru _ => true | .endpoint _ => true | _ => false)

/-- The set of a cache a line lies in, of 4,096 sets of 16 lines (R280); the index function is open (log 1). -/
def cacheSet (line : Nat) : Nat := Config.freeNat 70 line % 4096

/-- The line of a slice that holds a DDR5 line. -/
def cacheHit (x : ShmSlice) (line : Nat) : Option CacheLine :=
  if caching x then x.lines.find? (fun c => c.line = line) else none

/-- A DDR5 line whose mark is cleared: it has been written whole (R275). -/
def unpoisonLine (s : State) (line : Nat) : State := { s with poison := s.poison.filter (fun l => l ≠ line) }

/-- A line allocated (R280): into a free way of its set, or in place of a line that is written back first when it is dirty. Which of
the 16 lines goes is open (log 1). -/
def cacheAlloc (s : State) (line : Nat) (dirty : Bool) : State :=
  let sl := homeSlice (line * 64)
  let x := shmOf s sl
  let set := x.lines.filter (fun c => cacheSet c.line = cacheSet line)
  if set.length < 16 then setShm s sl { x with lines := x.lines ++ [{ line := line, dirty := dirty }] }
  else
    let r := freshNat 71 s
    let out := set.getD (r.1 % 16) { line := line, dirty := false }
    let s1 := if out.dirty then unpoisonLine r.2 out.line else r.2
    setShm s1 sl { x with lines := x.lines.filter (fun c => c.line ≠ out.line) ++ [{ line := line, dirty := dirty }] }

/-- Lines of a slice changed. -/
def cacheMap (s : State) (sl : Nat) (f : List CacheLine → List CacheLine) : State :=
  setShm s sl { shmOf s sl with lines := f (shmOf s sl).lines }

/-- The dirty lines of a slice written back (R30, R281). -/
def cacheClean (s : State) (sl : Nat) : State :=
  let s1 := forAll ((shmOf s sl).lines.filter (fun c => c.dirty)) (fun s c => unpoisonLine s c.line) s
  cacheMap s1 sl (fun l => l.map (fun c => { c with dirty := false }))

/-- A write of the bytes [a, a + n) of one DDR5 line by a requester (R275, R280): a hit makes the line dirty, a whole line is
allocated without a read, a partial miss goes to DDR5. -/
def lineWrite (s : State) (src : Src) (a n : Nat) : State :=
  let line := a / 64
  let sl := homeSlice a
  let whole := decide (a % 64 = 0) && decide (64 ≤ n)
  match cacheHit (shmOf s sl) line with
  | some _ => cacheMap s sl (fun l => l.map (fun c => if c.line = line then { c with dirty := true } else c))
  | none =>
    if whole then
      if caching (shmOf s sl) && admits (shmOf s sl).mode src then cacheAlloc s line true else unpoisonLine s line
    else s

/-- A write of a DDR5 range as the home slices and the poison marks see it. -/
def ddrWritten (s : State) (src : Src) (a n : Nat) : State :=
  forAll (spans 64 (n / 64 + 2) a n) (fun s p => lineWrite s src p.1 p.2) s

/-! ### Engine accesses -/

/-- How an engine's read or write ended. -/
inductive Ended where
  | done | reset | ignored | window
  deriving DecidableEq, Repr

/-- Whether a physical address lies in the remote aperture (R32). -/
def inAperture (a : Nat) : Bool := match locate a with | .aperture _ => true | _ => false

/-- Whether an address lies in the IMEM of a tile or core that is RUNNING, WAITING or STOPPING (R141, R223). -/
def imemLocked (s : State) (a : Nat) : Bool :=
  match locate a with
  | .tile n off => decide (0x380000 ≤ off) && decide (off < 0x390000) && engHolds (tileOf s n).st
  | .core n off => decide (0x100000 ≤ off) && decide (off < 0x140000) && engHolds (coreOf s n).st
  | _ => false

/-- Who may write the inlet and `SM_IN_COMMIT` (R363): the management cores, and DMA channels of the bound context. -/
def inletWriter (s : State) : Src → Bool
  | .mgmt _ => true
  | .dma c => wbit s (smReg 0x10) 6 && decide (chanCtx s c = some (wfld s (smReg 0x10) 5 0))
  | _ => false

/-- A write into the inlet (R362 to R364): into a FREE slot by a source that may, else ignored and ACCESS_DENIED. -/
def inletPut (s : State) (src : Src) (a : Nat) (bs : List Byte) : State :=
  if !inletWriter s src then denied s src a
  else if s.smi.committed.testBit ((a - smiBase) / 0x4000) then denied (setWbit s (smReg 0xC) 1 true) src a
  else store s a bs

/-- An access of a wrong size or alignment to a register window (R12): ignored, reads 0, ALIGNMENT raised. -/
def misaligned (s : State) (src : Src) (a : Nat) : State :=
  { raiseAt s 0x103 0 src a with bus := some { src := src, status := stOK, data := 0 } }

/-- Whether an access is one of the full, aligned 32-bit accesses that a register window takes (R12). -/
def fullWord (a n : Nat) : Bool := decide (a % 4 = 0) && decide (n = 4)

/-- A read of an engine: the bytes, zeros where the access is refused (R4, R12, R26, R35, R289, R362), and how it ended. What another
device holds is open: bytes read through the aperture are free values (log 1). -/
def engineRead (s : State) (src : Src) (a n : Nat) : State × List Byte × Ended :=
  match meets s src a with
  | .here =>
    if inAperture a then
      let r := freshNat 40 (sendOut s src a none)
      (r.2, leBytes n r.1, .done)
    else if !readable s src (locate a) then (denied s src a, List.replicate n 0, .ignored)
    else if inRegWindow (locate a) then
      if fullWord a n then
        let r := readReg s src a
        (r.1, leBytes 4 r.2.toNat, .done)
      else (misaligned s src a, List.replicate n 0, .ignored)
    else if decide (smiBase ≤ a) && decide (a < smiBase + 0x40000) then (s, List.replicate n 0, .done)
    else (s, bytesAt s a n, .done)
  | .reset => (refuse s src a .reset, List.replicate n 0, .reset)
  | m => (refuse s src a m, List.replicate n 0, .ignored)

/-- A word written to a register that is there, as its rights say (R13). -/
def writeByRight (s : State) (src : Src) (a : Nat) (loc : Loc) (r : RegSpec) (v : Word) : State :=
  match writeRight s src loc with
  | .yes => writeReg s src a loc r v
  | .w1cOnly => if r.w1c = 0 then denied s src a else setWord s a (mergeWord (word s a) v 0 r.w1c)
  | .ignored => s
  | .no => denied s src a

/-- A word written by an engine into a register window: flag words by R298, registers by R13. -/
def regPut (s : State) (src : Src) (a : Nat) (v : Word) : State :=
  match locate a with
  | .block .flags off => if isApgil src then apgilFlag s (off / 4) false v else denied s src a
  | loc => match regSpec loc with
    | none => s
    | some r => writeByRight s src a loc r v

/-- Bytes stored in a tile's or core's memories are regions written since its start (R137, R218). -/
def noteTouched (s : State) (a n : Nat) : State :=
  let gs := [granuleAt (locate a), granuleAt (locate (a + n - 1))].filterMap id
  match locate a with
  | .tile t _ => if engBusy (tileOf s t).st then setTile s t { tileOf s t with touched := ((tileOf s t).touched ++ gs).eraseDups } else s
  | .core c _ => if engBusy (coreOf s c).st then setCore s c { coreOf s c with touched := ((coreOf s c).touched ++ gs).eraseDups } else s
  | _ => s

/-- A posted write of an engine: dropped where the access is refused; through the aperture it leaves the device; into the windows of
registers, the SMI, mailboxes and table memories it goes by their rules (R12, R84, R338, R362); into memory it stores. -/
def engineWrite (s : State) (src : Src) (a : Nat) (bs : List Byte) : State × Ended :=
  match meets s src a with
  | .here =>
    if inAperture a then (sendOut s src a (some bs), .done)
    else if imemLocked s a then (denied s src a, .ignored)
    else if decide (smiBase ≤ a) && decide (a < smiBase + 0x40000) then (inletPut s src a bs, .done)
    else if inRegWindow (locate a) then
      if fullWord a bs.length then (regPut s src a (BitVec.ofNat 32 (leNat bs)), .done) else (misaligned s src a, .ignored)
    else if (match locate a with | .block _ _ => true | _ => false) then
      (match writeRight s src (locate a) with
        | .yes => (store s a bs, .done)
        | .ignored => (s, .ignored)
        | _ => (denied s src a, .ignored))
    else
      let s1 := store s a bs
      (if locate a = .ddr then ddrWritten s1 src a bs.length else noteTouched s1 a bs.length, .done)
  | .reset => (refuse s src a .reset, .reset)
  | m => (refuse s src a m, .ignored)

/-- Pieces read in order by a source. -/
def readPieces (s : State) (src : Src) : List (Nat × Nat) → State × List Byte
  | [] => (s, [])
  | (a, n) :: t =>
    let r := engineRead s src a n
    let q := readPieces r.1 src t
    (q.1, r.2.1 ++ q.2)

/-- Pieces written in order by a source: each goes, or is dropped, as the endpoint it reaches answers (R26, R35, R289). -/
def writePieces (s : State) (src : Src) : List (Nat × Nat) → List Byte → State
  | [], _ => s
  | (a, n) :: t, bs => writePieces (engineWrite s src a (bs.take n)).1 src t (bs.drop n)

/-- The physical pieces of a translated range, none where a page faults (R285); each lies in one DDR5 channel (R272). -/
def xlatePieces (s : State) (xlate : Nat) (write : Bool) (a n : Nat) : Option (List (Nat × Nat)) :=
  ((pageSpans (n / 4096 + 2) a n).mapM (fun p => (translate s xlate write p.1).map (fun pa => (pa, p.2)))).map
    (fun l => l.flatMap (fun p => spans 256 (p.2 / 256 + 2) p.1 p.2))

/-- The bytes of a translated range as a source reads them, none where a page faults. -/
def xlateRead (s : State) (src : Src) (xlate a n : Nat) : Option (State × List Byte) :=
  (xlatePieces s xlate false a n).map (readPieces s src)

/-- A byte string written by a source to a translated range, none where a page faults: nothing is written then. -/
def xlateStore (s : State) (src : Src) (xlate a : Nat) (bs : List Byte) : Option State :=
  (xlatePieces s xlate true a bs.length).map (fun l => writePieces s src l bs)

end Sys2Proof.Machine
end

