-- ==== Sys2Proof/Machine/BruCalc.lean ====
section
/-!
DEFINITION. Sys2Proof/Machine/BruCalc.lean: what an iteration of the Box and Rank Unit reads and computes (R169 to R176).
-/
namespace Sys2Proof.Machine

/-! ### Descriptor fields (R169) -/

/-- A word and a field of a descriptor, by byte offset. -/
def bw (d : List Word) (off : Nat) : Word := d.getD (off / 4) 0
def bf (d : List Word) (off hi lo : Nat) : Nat := fld (bw d off) hi lo

/-- An address split as R91. -/
def bAddr (d : List Word) (off : Nat) : Nat := (bw d off).toNat + bf d (off + 4) 7 0 * 2 ^ 32

def bMode (d : List Word) : Nat := bf d 0 9 8
def bRepeat (d : List Word) : Bool := bitOf (bw d 0) 10
def bWaitEn (d : List Word) : Bool := bitOf (bw d 0) 11
def bCtx (d : List Word) : Nat := bf d 4 5 0
def bXlate (d : List Word) : Nat := bf d 4 15 8
def bIterations (d : List Word) : Nat := bf d 4 31 16
def bWaitFlag (d : List Word) : Nat := bf d 8 15 0
def bSignalFlag (d : List Word) : Nat := bf d 8 31 16
def bWaitBase (d : List Word) : Nat := (bw d 0xC).toNat
def bSlots (d : List Word) : Nat := bf d 0x10 12 0
def bLevels (d : List Word) : Nat := bf d 0x38 3 0
def bClasses (d : List Word) : Nat := bf d 0x3C 10 0
def bMaxCand (d : List Word) : Nat := bf d 0x48 12 0
def bMaxKeep (d : List Word) : Nat := bf d 0x48 26 16
def bCount (d : List Word) : Nat := bf d 0x38 16 0
def bRecSize (d : List Word) : Nat := bf d 0x3C 8 0
def bKeyOff (d : List Word) : Nat := bf d 0x3C 23 16 * 4
def bKeyType (d : List Word) : Nat := bf d 0x40 2 0
def bTopK (d : List Word) : Nat := bf d 0x44 12 0
def bOutIndex (d : List Word) : Bool := bitOf (bw d 0x40) 5

/-- Input and output slot of an iteration. -/
def bIn (d : List Word) (n : Nat) : Nat := bAddr d 0x18 + n % max 1 (bSlots d) * bAddr d 0x20
def bOut (d : List Word) (n : Nat) : Nat := bAddr d 0x28 + n % max 1 (bSlots d) * bAddr d 0x30

/-- Whether an iteration has nothing to do (R178). -/
def bEmpty (d : List Word) : Bool := if bMode d = 0 then decide (bLevels d = 0) else decide (bCount d = 0)

/-! ### What the unit reads -/

/-- The byte a job reads at an I/O address: 0 where the access is refused, a free value where another device holds it (log 1). -/
def ioByte (s : State) (src : Src) (xl a : Nat) : Byte :=
  match translate s xl false (a % 2 ^ 40) with
  | none => 0
  | some p => if meets s src p = .here then (if inAperture p then BitVec.ofNat 8 (Config.freeNat 40 (p + 2 ^ 40 * (s.free + 1))) else byteAt s p) else 0

/-- The little-endian number a job reads. -/
def ioNum (s : State) (src : Src) (xl a n : Nat) : Nat := leNat ((List.range n).map (fun i => ioByte s src xl (a + i)))

/-- A range cut into pieces of at most 64 bytes that cross no page. -/
def ioPieces (r : Nat × Nat) : List (Nat × Nat) :=
  (List.range ((r.1 % 64 + r.2 + 63) / 64)).map (fun i =>
    let lo := max r.1 (r.1 / 64 * 64 + i * 64)
    (lo, min (r.1 + r.2) (r.1 / 64 * 64 + i * 64 + 64) - lo))

/-- The first address of ranges that does not translate. -/
def firstFault (s : State) (xl : Nat) (write : Bool) (rs : List (Nat × Nat)) : Option Nat :=
  ((rs.flatMap ioPieces).find? (fun p => (translate s xl write (p.1 % 2 ^ 40)).isNone)).map (fun p => p.1)

/-- The events of accesses that are refused (R4, R26, R35, R289). -/
def ioTouch (s : State) (src : Src) (xl : Nat) (write : Bool) (rs : List (Nat × Nat)) : State :=
  forAll (rs.flatMap ioPieces) (fun s p => match translate s xl write (p.1 % 2 ^ 40) with
    | some a => refuse s src a (meets s src a)
    | none => s) s

/-! ### Levels of a detect job -/

/-- A level entry, read from the level table. -/
structure Lvl where
  index : Nat
  gw : Nat
  gh : Nat
  anchors : Nat
  stride : Fv
  boxOff : Nat
  scoreOff : Nat
  rowPitch : Nat
  planePitch : Nat
  boxScale : Fv
  boxZp : Int
  scoreScale : Fv
  scoreZp : Int
  anchorAddr : Nat

/-- Level k of a job. -/
def levelOf (s : State) (src : Src) (d : List Word) (k : Nat) : Lvl :=
  let a := bAddr d 0x64 + k * 64
  let n (o c : Nat) : Nat := ioNum s src (bXlate d) (a + o) c
  { index := k, gw := n 0 2, gh := n 2 2, anchors := n 4 1, stride := f32 (n 8 4), boxOff := n 12 4, scoreOff := n 16 4,
    rowPitch := n 20 4, planePitch := n 24 4, boxScale := f32 (n 28 4), boxZp := sext 16 (n 32 2), scoreZp := sext 16 (n 34 2),
    scoreScale := f32 (n 36 4), anchorAddr := n 40 8 % 2 ^ 40 }

def levelsOf (s : State) (src : Src) (d : List Word) : List Lvl := (List.range (bLevels d)).map (levelOf s src d)

/-- Bytes of an element of a format. -/
def detBytes (f : Nat) : Nat := if f = 0 then 1 else 2

def bScoreFmt (d : List Word) : Nat := bf d 0x38 10 8
def bBoxFmt (d : List Word) : Nat := bf d 0x38 13 11

/-- The ranges a detect iteration reads from its input slot and its anchor tables. -/
def detRanges (d : List Word) (n : Nat) (ls : List Lvl) : List (Nat × Nat) :=
  ls.flatMap (fun l =>
    let rows (base ch sz : Nat) : List (Nat × Nat) :=
      (List.range ch).flatMap (fun k => (List.range l.gh).map (fun y => (base + k * l.planePitch + y * l.rowPitch, l.gw * sz)))
    rows (bIn d n + l.boxOff) (4 * l.anchors) (detBytes (bBoxFmt d)) ++
      rows (bIn d n + l.scoreOff) (l.anchors * bClasses d) (detBytes (bScoreFmt d)) ++
      (if bitOf (bw d 0x38) 6 then [] else [(l.anchorAddr, l.anchors * 8)]))

/-- A value of a tensor in FP32 (R171). -/
def detValue (f code : Nat) (scale : Fv) (zp : Int) : Fv :=
  if f = 0 then fMulZ (fvInt (sext 8 code - zp)) scale
  else if f = 1 then fMulZ (fvInt (sext 16 code - zp)) scale
  else if f = 2 then fpDecode fpFP16 code else fpDecode fpBF16 code

/-! ### Exponential (R172) -/

/-- exp of X · 2⁻⁴⁰ in units of 2⁻⁸⁰, for |X| ≤ 2⁴⁴: the series at a 32nd of the argument, squared five times. -/
def expRef (x : Int) : Nat :=
  let one : Int := (2 : Int) ^ 80
  let y : Int := x * 2 ^ 35
  let series := (List.range 20).foldl (fun (acc : Int × Int) k =>
    let t := acc.2 * y / one / ((k + 1 : Nat) : Int)
    (acc.1 + t, t)) (one, one)
  ((List.range 5).foldl (fun (v : Int) _ => v * v / one) series.1).toNat

/-- A finite value in units of 2⁻ᵏ, truncated towards zero. -/
def fvFixed (k : Nat) : Fv → Int
  | .fin n m e =>
    let t : Int := e + k
    let v : Nat := if 0 ≤ t then m * 2 ^ t.toNat else m / 2 ^ (-t).toNat
    if n then -(v : Int) else v
  | _ => 0

/-- The unit's exponential of a limited argument: an open FP32 value within the relative error of R172. -/
def bruExp (x : Fv) : Fv :=
  match fvClamp (.fin true 16 0) (.fin false 16 0) x with
  | .nan => .nan
  | c =>
    let r := expRef (fvFixed 40 c)
    let v := f32 (Config.expRaw ((f32Bits c : Nat) : Int))
    let u := fvFixed 80 v
    match v with
    | .fin false _ _ => if (u - (r : Int)).natAbs * 2 ^ 20 < r then v else fpRound fpFP32 .zero false (.fin false r (-80))
    | _ => fpRound fpFP32 .zero false (.fin false r (-80))

/-! ### Candidates -/

/-- A candidate above the threshold: its decoded corners, score, class, and where it comes from. -/
structure Cand where
  x0 : Fv
  y0 : Fv
  x1 : Fv
  y1 : Fv
  score : Fv
  cls : Nat
  level : Nat
  anchor : Nat
  x : Nat
  y : Nat

/-- The scores of a cell-anchor pair that make candidates (R171): (class, score). -/
def candScores (s : State) (src : Src) (d : List Word) (n : Nat) (l : Lvl) (x y a : Nat) : List (Nat × Fv) :=
  let sz := detBytes (bScoreFmt d)
  let all := (List.range (bClasses d)).map (fun c =>
    (c, detValue (bScoreFmt d) (ioNum s src (bXlate d)
      (bIn d n + l.scoreOff + (a * bClasses d + c) * l.planePitch + y * l.rowPitch + x * sz) sz) l.scoreScale l.scoreZp))
  let thr := f32 (bw d 0x40).toNat
  if bitOf (bw d 0x38) 5 then all.filter (fun p => fvLt thr p.2)
  else
    match all with
    | [] => []
    | p :: t =>
      let best := t.foldl (fun b q => if fvLt b.2 q.2 || (isNan b.2 && !isNan q.2) then q else b) p
      if fvLt thr best.2 then [best] else []

/-- The corners of a cell-anchor pair (R172). -/
def corners (s : State) (src : Src) (d : List Word) (n : Nat) (l : Lvl) (x y a : Nat) : List Fv :=
  let sz := detBytes (bBoxFmt d)
  let t (j : Nat) : Fv := detValue (bBoxFmt d) (ioNum s src (bXlate d)
    (bIn d n + l.boxOff + (4 * a + j) * l.planePitch + y * l.rowPitch + x * sz) sz) l.boxScale l.boxZp
  let half (v : Nat) : Fv := .fin false (2 * v + 1) (-1)
  let anchor (j : Nat) : Fv := f32 (ioNum s src (bXlate d) (l.anchorAddr + a * 8 + j * 4) 4)
  let kind0 := !bitOf (bw d 0x38) 6
  let vxy := f32 (bw d 0x5C).toNat; let vwh := f32 (bw d 0x60).toNat
  let cx := if kind0 then fAddZ (fMulZ (half x) l.stride) (fMulZ (fMulZ (t 0) vxy) (anchor 0)) else fMulZ (fAddZ (half x) (t 0)) l.stride
  let cy := if kind0 then fAddZ (fMulZ (half y) l.stride) (fMulZ (fMulZ (t 1) vxy) (anchor 1)) else fMulZ (fAddZ (half y) (t 1)) l.stride
  let w := if kind0 then fMulZ (anchor 0) (bruExp (fMulZ (t 2) vwh)) else fMulZ (t 2) l.stride
  let h := if kind0 then fMulZ (anchor 1) (bruExp (fMulZ (t 3) vwh)) else fMulZ (t 3) l.stride
  let hf : Fv := .fin false 1 (-1)
  let sx := f32 (bw d 0x4C).toNat; let sy := f32 (bw d 0x50).toNat
  let raw := [fMulZ (fSubZ cx (fMulZ w hf)) sx, fMulZ (fSubZ cy (fMulZ h hf)) sy,
              fMulZ (fAddZ cx (fMulZ w hf)) sx, fMulZ (fAddZ cy (fMulZ h hf)) sy]
  if bitOf (bw d 0x38) 7 then
    raw.zipIdx.map (fun p => fvClamp (.fin false 0 0) (f32 (bw d (if p.2 % 2 = 0 then 0x54 else 0x58)).toNat) p.1)
  else raw

/-- All candidates above the threshold, in candidate order (R171). -/
def candidates (s : State) (src : Src) (d : List Word) (n : Nat) (ls : List Lvl) : List Cand :=
  ls.flatMap (fun l => (List.range l.gh).flatMap (fun y => (List.range l.gw).flatMap (fun x =>
    (List.range l.anchors).flatMap (fun a =>
      match candScores s src d n l x y a with
      | [] => []
      | sc =>
        let b := corners s src d n l x y a
        sc.map (fun p => { x0 := b.getD 0 .nan, y0 := b.getD 1 .nan, x1 := b.getD 2 .nan, y1 := b.getD 3 .nan, score := p.2,
                           cls := p.1, level := l.index, anchor := a, x := x, y := y })))))

/-- Whether a candidate is valid (R172). -/
def candValid (c : Cand) : Bool :=
  !isNan c.x0 && !isNan c.y0 && !isNan c.x1 && !isNan c.y1 && fvLt c.x0 c.x1 && fvLt c.y0 c.y1

/-- Insertion by descending score, behind equal scores. -/
def insertCand (c : Cand) : List Cand → List Cand
  | [] => [c]
  | d :: t => if fvLt d.score c.score then c :: d :: t else d :: insertCand c t

/-- Candidates by descending score, ties in candidate order (R173). -/
def sortCands (l : List Cand) : List Cand := l.foldl (fun a c => insertCand c a) []

/-- Area of a rectangle. -/
def areaOf (x0 y0 x1 y1 : Fv) : Fv := fMulZ (fSubZ x1 x0) (fSubZ y1 y0)

/-- The larger and the smaller of two finite values. -/
def fvHi (a b : Fv) : Fv := if fvLt a b then b else a
def fvLo (a b : Fv) : Fv := if fvLt b a then b else a

/-- Whether a kept box suppresses another (R173). -/
def suppresses (thr : Fv) (agnostic : Bool) (a b : Cand) : Bool :=
  if !agnostic && decide (a.cls ≠ b.cls) then false
  else if fvLe (.fin false 1 0) thr then false
  else
    let ix0 := fvHi a.x0 b.x0; let iy0 := fvHi a.y0 b.y0; let ix1 := fvLo a.x1 b.x1; let iy1 := fvLo a.y1 b.y1
    let inter : Fv := if fvLt ix0 ix1 && fvLt iy0 iy1 then areaOf ix0 iy0 ix1 iy1 else .fin false 0 0
    fvLt (fMulZ thr (fSubZ (fAddZ (areaOf a.x0 a.y0 a.x1 a.y1) (areaOf b.x0 b.y0 b.x1 b.y1)) inter)) inter

/-- Non-maximum suppression (R173). -/
def keepBoxes (thr : Fv) (agnostic : Bool) (maxKeep : Nat) (l : List Cand) : List Cand :=
  l.foldl (fun kept c =>
    if maxKeep ≤ kept.length || kept.any (fun k => suppresses thr agnostic k c) then kept else kept ++ [c]) []

/-- A box record (R174). -/
def boxBytes (c : Cand) : List Byte :=
  leBytes 4 (f32Bits c.x0) ++ leBytes 4 (f32Bits c.y0) ++ leBytes 4 (f32Bits c.x1) ++ leBytes 4 (f32Bits c.y1) ++
    leBytes 4 (f32Bits c.score) ++ leBytes 2 c.cls ++ leBytes 1 c.level ++ leBytes 1 c.anchor ++ leBytes 2 c.x ++
    leBytes 2 c.y ++ leBytes 4 0

/-- The header of an output slot without its completion time (R174). -/
def bruHeader (mode n : Nat) (cs : List Nat) : List Byte :=
  padTo 64 (leBytes 2 1 ++ leBytes 1 mode ++ leBytes 1 stOK ++ leBytes 4 n ++ cs.flatMap (leBytes 4))

/-- The output of a detect iteration: its bytes, and whether candidates were dropped (R173). -/
def detect (s : State) (src : Src) (d : List Word) (n : Nat) : List Byte × Bool :=
  let ls := levelsOf s src d
  let all := candidates s src d n ls
  let valid := all.filter candValid
  let sorted := sortCands valid
  let enter := sorted.take (bMaxCand d)
  let kept := keepBoxes (f32 (bw d 0x44).toNat) (bitOf (bw d 0x38) 4) (bMaxKeep d) enter
  (bruHeader 0 n [(ls.map (fun l => l.gw * l.gh * l.anchors)).sum, all.length, enter.length, kept.length,
     all.length - valid.length] ++ kept.flatMap boxBytes,
   decide (bMaxCand d < valid.length))

/-! ### Rank mode (R175, R176) -/

/-- A key as an integer in the order of its type. -/
def rankKey (ty v : Nat) : Int :=
  if ty = 0 then (v % 2 ^ 32 : Nat)
  else if ty = 1 then sext 32 v
  else if ty = 2 then (if v / 2 ^ 31 % 2 = 1 then -((v % 2 ^ 31 : Nat) : Int) - 1 else (v % 2 ^ 31 : Nat))
  else if ty = 3 then (v % 2 ^ 64 : Nat)
  else sext 64 v

/-- Insertion by a key, behind equal ones. -/
def insertKey (p : Int × Nat) : List (Int × Nat) → List (Int × Nat)
  | [] => [p]
  | q :: t => if p.1 < q.1 then p :: q :: t else q :: insertKey p t

/-- A list in order without the records whose key equals the one before. -/
def dropDup : List (Int × Nat) → List (Int × Nat)
  | [] => []
  | [p] => [p]
  | p :: q :: t => if p.1 = q.1 then dropDup (p :: t) else p :: dropDup (q :: t)

/-- The output of a rank iteration. -/
def rank (s : State) (src : Src) (d : List Word) (n : Nat) : List Byte :=
  let sz := bRecSize d
  let addr (i : Nat) : Nat := bIn d n + i * sz
  let keys := (List.range (bCount d)).map (fun i =>
    let k := rankKey (bKeyType d) (ioNum s src (bXlate d) (addr i + bKeyOff d) (if bKeyType d < 3 then 4 else 8))
    (if bitOf (bw d 0x40) 3 then -k else k, i))
  let sorted := keys.foldl (fun a p => insertKey p a) []
  let uniq := if bitOf (bw d 0x40) 4 then dropDup sorted else sorted
  let out := if bMode d = 2 then uniq.take (bTopK d) else uniq
  bruHeader (bMode d) n [bCount d, out.length, sorted.length - uniq.length] ++
    out.flatMap (fun p => if bOutIndex d then leBytes 4 p.2
      else (List.range sz).map (fun i => ioByte s src (bXlate d) (addr p.2 + i)))

/-! ### Checks before a job is queued (R170) -/

/-- The bits a descriptor of a mode may use, by word: the fields of the table and of the mode (R169); the rest holds 0. -/
def bruMask (mode off : Nat) : Nat :=
  let detect := decide (mode = 0)
  if off = 0 then 0xFFFF0FFF else if off = 4 then 0xFFFFFF3F
  else if off = 8 ∨ off = 0xC ∨ off = 0x18 ∨ off = 0x20 ∨ off = 0x28 ∨ off = 0x30 ∨ off = 0x7C then 0xFFFFFFFF
  else if off = 0x10 then 0x1FFF
  else if off = 0x1C ∨ off = 0x24 ∨ off = 0x2C ∨ off = 0x34 then 0xFF
  else if off = 0x38 then (if detect then 0x3FFF else 0x1FFFF)
  else if off = 0x3C then (if detect then 0x7FF else 0xFF01FF)
  else if off = 0x40 then (if detect then 0xFFFFFFFF else 0x3F)
  else if off = 0x44 then (if detect then 0xFFFFFFFF else if mode = 2 then 0x1FFF else 0)
  else if !detect then 0
  else if off = 0x48 then 0x7FF1FFF
  else if 0x4C ≤ off ∧ off ≤ 0x64 then 0xFFFFFFFF
  else if off = 0x68 then 0xFF
  else 0

/-- Whether a bit is set that the descriptor's mode does not use (R169). -/
def bruReserved (d : List Word) : Bool :=
  (List.range 32).any (fun i => decide ((bw d (4 * i)).toNat &&& bruMask (bMode d) (4 * i) ≠ (bw d (4 * i)).toNat))

/-- Whether the level table of a job can be read through its translation. -/
def lvlReadable (s : State) (d : List Word) : Bool := (firstFault s (bXlate d) false [(bAddr d 0x64, bLevels d * 64)]).isNone

/-- Whether a level entry holds a reserved value or a field outside its range (table *Level entry*). -/
def lvlBad (s : State) (src : Src) (d : List Word) (l : Lvl) : Bool :=
  let n (o c : Nat) : Nat := ioNum s src (bXlate d) (bAddr d 0x64 + l.index * 64 + o) c
  decide (l.gw = 0) || decide (1024 < l.gw) || decide (l.gh = 0) || decide (1024 < l.gh) || decide (l.anchors = 0) ||
  decide (16 < l.anchors) || decide (n 5 3 ≠ 0) || decide (n 45 3 ≠ 0) || decide (n 48 16 ≠ 0)

/-- Whether a descriptor holds a reserved value or a field outside its range. -/
def bruCountBad (s : State) (src : Src) (d : List Word) : Bool :=
  decide (bMode d = 3) || decide (bf d 0 31 16 ≠ 0x80) || bruReserved d ||
  decide (bSlots d = 0) || decide (4096 < bSlots d) ||
  (if bMode d = 0 then
    decide (8 < bLevels d) || decide (3 < bScoreFmt d) || decide (3 < bBoxFmt d) || decide (bClasses d = 0) ||
    decide (1024 < bClasses d) || decide (bMaxCand d = 0) || decide (4096 < bMaxCand d) || decide (bMaxKeep d = 0) ||
    decide (1024 < bMaxKeep d) ||
    (lvlReadable s d && ((levelsOf s src d).any (lvlBad s src d) ||
      decide (262144 < ((levelsOf s src d).map (fun l => l.gw * l.gh * l.anchors)).sum)))
  else
    decide (65536 < bCount d) || decide (bRecSize d < 8) || decide (256 < bRecSize d) || decide (bRecSize d % 8 ≠ 0) ||
    decide (4 < bKeyType d) || decide (bRecSize d < bKeyOff d + (if bKeyType d < 3 then 4 else 8)) ||
    (decide (3 ≤ bKeyType d) && decide (bKeyOff d % 8 ≠ 0)) ||
    (decide (bMode d = 2) && (decide (bTopK d = 0) || decide (4096 < bTopK d))))

/-- Bytes an output slot needs. -/
def bruNeed (d : List Word) : Nat :=
  if bMode d = 0 then 64 + bMaxKeep d * 32
  else
    let n := if bMode d = 2 then bTopK d else bCount d
    64 + n * (if bOutIndex d then 4 else bRecSize d)

/-- The first failing check of a descriptor. -/
def bruCheck (s : State) (src : Src) (d : List Word) : Option Nat :=
  if bf d 0 7 0 ≠ 1 then some stVERSION
  else if crcWords (d.take 31) ≠ bw d 0x7C then some stCHECK
  else if bruCountBad s src d then some stCOUNT
  else if bAddr d 0x18 % 64 ≠ 0 ∨ bAddr d 0x20 % 64 ≠ 0 ∨ bAddr d 0x28 % 64 ≠ 0 ∨ bAddr d 0x30 % 64 ≠ 0 ∨
      (bMode d = 0 ∧ (bAddr d 0x64 % 64 ≠ 0 ∨ (lvlReadable s d = true ∧
        (levelsOf s src d).any (fun l => decide (l.boxOff % 64 ≠ 0) || decide (l.scoreOff % 64 ≠ 0)) = true))) then some stALIGN
  else if bAddr d 0x30 < bruNeed d then some stSMALL
  else none

end Sys2Proof.Machine
end

