-- ==== Sys2Proof/Machine/Bru.lean ====
section
/-!
DEFINITION. Sys2Proof/Machine/Bru.lean: the job slots of the Box and Rank Unit (R169, R170, R178, R179, R285).
-/
namespace Sys2Proof.Machine

/-- A job ended in its slot (R169, R178): withdrawn from the wait table; a running iteration is dropped. -/
def bruEnd (s : State) (j code : Nat) : State :=
  let b := bruSlotOf s j
  let s1 := withdrawWait (setBruSlot s j { b with
    st := if code = stOK ∨ code = stEMPTY ∨ code = stCANCELLED then .done else .error, code := code, metAt := none, ended := true }) (208 + j)
  if s1.bru.running = some j then { s1 with bru := { s1.bru with running := none, out := [], status := 0 } } else s1

/-- A job cancelled (R178). -/
def bruCancel (s : State) (j : Nat) : State :=
  let b := bruSlotOf s j
  if b.st = .waiting ∨ b.st = .running then bruEnd s j stCANCELLED else s

/-- The next iteration of a job waits (R169 step 1), or is ready at once. -/
def bruWait (s : State) (j : Nat) : State :=
  let b := bruSlotOf s j
  let ready := setBruSlot s j { b with st := .waiting, metAt := some s.clk.up }
  if bWaitEn b.desc then
    match startWait (setBruSlot s j { b with st := .waiting, metAt := none }) (208 + j) (some (bCtx b.desc)) (bWaitFlag b.desc) false
        (BitVec.ofNat 32 (bWaitBase b.desc + b.iter + 1)) (wfld s (bruBase + 0x14) 23 0) with
    | some s1 => s1
    | none => ready
  else ready

/-- A job after an iteration: it ends, or its next iteration waits. -/
def bruNext (s : State) (j code : Nat) : State :=
  let b := bruSlotOf s j
  let s1 := setBruSlot s j { b with code := code, done := (b.done + 1) % 65536 }
  if !bRepeat b.desc || (decide (bIterations b.desc ≠ 0) && decide (bIterations b.desc ≤ b.iter + 1)) then bruEnd s1 j code
  else bruWait (setBruSlot s1 j { bruSlotOf s1 j with iter := b.iter + 1 }) j

/-- A write of the BRU's registers that the access rules and R179 let through. -/
def bruControl (s : State) (src : Src) (off : Nat) (f : State → State) : State :=
  match meets s src (bruBase + off) with
  | .here => if isApgil src then f s else denied s src (bruBase + off)
  | m => refuse s src (bruBase + off) m

/-- BRU_SUBMIT (R169, R170, R179): the descriptor is loaded into a free slot when it passes its checks; the submitter gets
the first failing status, and COUNT_LIMIT while no slot is free. -/
def execBruSubmit (src : Src) (value : Word) (s : State) : Out :=
  .next (bruControl s src 8 (fun s =>
    if bitOf value 0 then
      let j := fld value 13 8
      if (bruSlotOf s j).st ≠ .free then
        let s1 := setWbit s (bruBase + 0x10) 7 true
        if (List.range 64).all (fun k => decide ((bruSlotOf s k).st ≠ .free)) then
          { s1 with bus := some { src := src, status := stCOUNT, data := 0 } }
        else s1
      else
        let a := wfld s bruBase 31 6 * 64 + wfld s (bruBase + 4) 7 0 * 2 ^ 32
        let d := (List.range 32).map (fun i => wordAt s (a + 4 * i))
        match bruCheck s (.bru j) d with
        | some st => { s with bus := some { src := src, status := st, data := 0 } }
        | none => bruWait (setBruSlot s j { st := .waiting, code := stOK, done := 0, desc := d, addr := a, iter := 0 }) j
    else s))

/-- BRU_CANCEL (R178, R179). -/
def execBruCancel (src : Src) (value : Word) (s : State) : Out :=
  .next (bruControl s src 8 (fun s => if bitOf value 1 then bruCancel s (fld value 13 8) else s))

/-- The slot whose iteration is next (R169): the one whose wait was met first, ties to the lower slot. -/
def bruPick (s : State) : Option Nat :=
  let l := (List.range 64).filterMap (fun j =>
    let b := bruSlotOf s j
    if b.st = .waiting && !withheld s (some (bCtx b.desc)) then b.metAt.map (fun t => (j, t)) else none)
  (minBy (fun (p : Nat × Nat) => p.2) l).map (fun p => p.1)

/-- An iteration ended by a translation fault (R285): PAGE_FAULT, no flag, the slot freed. -/
def bruFault (s : State) (j a : Nat) : State :=
  let s1 := iommuFault s (.bru j) (bruCtx s j) a
  let s2 := bruEnd s1 j stPAGE
  setBruSlot s2 j { code := stPAGE, done := (bruSlotOf s2 j).done }

/-- The ranges an iteration reads. -/
def bruReads (s : State) (j : Nat) : List (Nat × Nat) :=
  let b := bruSlotOf s j
  if bMode b.desc = 0 then detRanges b.desc b.iter (levelsOf s (.bru j) b.desc)
  else [(bIn b.desc b.iter, bCount b.desc * bRecSize b.desc)]

/-- BRU_ITERATION_START (R169 to R178, R285): the unit is free and takes the next ready iteration. -/
def execBruIterationStart (s : State) : Out :=
  if s.bru.running.isSome || heldInReset s .bru then .next s
  else match bruPick s with
    | none => .next s
    | some j =>
      let b := bruSlotOf s j; let d := b.desc; let src := Src.bru j
      if crcWords (d.take 31) ≠ bw d 0x7C then
        .next (raiseOpen (bruEnd s j stCHECK) 0x304 stCHECK (208 + j) (bruCtx s j))
      else if bEmpty d then
        .next (bruNext (signalFlag (bump s (bruBase + 0x24)) src (bSignalFlag d) true 1) j stEMPTY)
      else
        let table := if bMode d = 0 then [(bAddr d 0x64, bLevels d * 64)] else []
        match firstFault s (bXlate d) false table with
        | some a => .next (bruFault s j a)
        | none =>
          match firstFault s (bXlate d) false (bruReads s j) with
          | some a => .next (bruFault s j a)
          | none =>
            let r := if bMode d = 0 then detect s src d b.iter else (rank s src d b.iter, false)
            let s1 := ioTouch s src (bXlate d) false (table ++ bruReads s j)
            .next { setBruSlot s1 j { b with st := .running, metAt := none } with
              free := s1.free + 1
              bru := { (setBruSlot s1 j { b with st := .running, metAt := none }).bru with
                running := some j, out := [(bOut d b.iter, r.1)], status := b2n r.2 } }

/-- The output bytes of an iteration with the completion time put into the header (R174). -/
def stampOut (now : Nat) (bs : List Byte) : List Byte := bs.take 32 ++ leBytes 8 now ++ bs.drop 40

/-- The output bytes of a job written through its translation, piece by piece (R169). -/
def bruPut (j : Nat) (d : List Word) (s : State) (w : Nat × List Byte) : State :=
  forAll (ioPieces (w.1, w.2.length)) (fun s p => match translate s (bXlate d) true (p.1 % 2 ^ 40) with
    | some a => (engineWrite s (.bru j) a (slice w.2 (p.1 - w.1) p.2)).1
    | none => s) s

/-- BRU_ITERATION_DONE (R169): header and output are written, then signal_flag is incremented; the job goes on or ends. -/
def execBruIterationDone (s : State) : Out :=
  match s.bru.running with
  | none => .next s
  | some j =>
    let d := (bruSlotOf s j).desc
    let ws := s.bru.out.map (fun w => (w.1, stampOut s.clk.now w.2))
    match firstFault s (bXlate d) true (ws.map (fun w => (w.1, w.2.length))) with
    | some a => .next (bruFault s j a)
    | none =>
      let s1 := forAll ws (bruPut j d) s
      let moved := ((bruReads s j).map (fun r => r.2)).sum + (ws.map (fun w => w.2.length)).sum
      let s2 := noteBytes (bump s1 (bruBase + 0x24)) 44 (208 + j) (bruCtx s1 j) moved
      let s3 := if s.bru.status = 1 then bump s2 (bruBase + 0x20) else s2
      let s4 := { s3 with bru := { s3.bru with running := none, out := [], status := 0 } }
      .next (bruNext (signalFlag s4 (.bru j) (bSignalFlag d) true 1) j stOK)

/-- `BU_SLOT[j]` as read (R179). -/
def bruSlotWord (b : BruSlot) : Word :=
  BitVec.ofNat 32 ((match b.st with | .free => 0 | .waiting => 1 | .running => 2 | .done => 3 | .error => 4) +
    b.code * 256 + b.done * 65536)

/-- BRU_SLOT_READ (R179): the reader gets the slot's state; an ended job's slot becomes free. -/
def execBruSlotRead (src : Src) (slot : Nat) (s : State) : Out :=
  if 64 ≤ slot then .next s
  else match meets s src (bruBase + 0x100 + 4 * slot) with
    | .here =>
      let b := bruSlotOf s slot
      let s1 := { s with bus := some { src := src, status := stOK, data := bruSlotWord b } }
      if b.ended then .next (setBruSlot s1 slot { code := b.code, done := b.done }) else .next s1
    | m => .next (refuse s src (bruBase + 0x100 + 4 * slot) m)

/-- A reset of the BRU (R30): every slot free, the running iteration lost. -/
def bruReset (s : State) : State :=
  let s1 := forAll (List.range 64) (fun s j => withdrawWait s (208 + j)) s
  clearRegs { s1 with bru := {} } bruBase 0x8000

end Sys2Proof.Machine
end

