-- ==== Sys2Proof/Machine/Notices.lean ====
section
/-!
DEFINITION. Sys2Proof/Machine/Notices.lean: messages the device sends by itself (R327, R328, R330, R338).
-/
namespace Sys2Proof.Machine

/-- Object kinds (R326). -/
def okDEVICE : Nat := 0
def okSTREAM : Nat := 1
def okJOB : Nat := 2
def okPACKAGE : Nat := 3
def okENGINE : Nat := 4
def okCONTEXT : Nat := 6
def okLINK : Nat := 7
def okWINDOW : Nat := 8
def okGRANULES : Nat := 9
def okFAULT : Nat := 0x10

/-- The value of a NOTICE TLV (R323): code, object, device time, 16 bytes of detail. -/
def noticeValue (code kind index now : Nat) (detail : List Byte) : List Byte :=
  leBytes 2 code ++ leBytes 2 kind ++ leBytes 4 index ++ leBytes 8 now ++ (padTo 16 detail).take 16

/-- A notice before it has a session and a sequence number. -/
def mkNotice (s : State) (typ status code kind index : Nat) (ctx : Nat) (detail : List Byte)
    (more : List (Nat × List Byte)) : Sent :=
  { sess := 0, kind := 2, status := status, typ := typ, ctx := ctx, seq := 0,
    tlvs := (0x0051, noticeValue code kind index s.clk.now detail) :: more }

/-- The bytes of a message (R322, R323). -/
def msgBytes (major minor : Nat) (m : Sent) : List Byte :=
  let body := m.tlvs.flatMap (fun t => leBytes 2 t.1 ++ leBytes 2 t.2.length ++ padTo (roundUp t.2.length 4) t.2)
  leBytes 1 major ++ leBytes 1 minor ++ leBytes 1 m.kind ++ leBytes 1 m.status ++ leBytes 2 m.typ ++ leBytes 2 m.ctx ++
    leBytes 4 m.seq ++ leBytes 4 body.length ++ body

/-- Where a message of a host leaves: by the port its request came in, by another port whose link is up when that one's is down (R318, R446). -/
def outPort (s : State) (o : Origin) : Origin :=
  match o with
  | .net p a => if (portOf s p).up then o else
      match findBelow (fun q => (portOf s q).up) 4 with | some q => .net q a | none => o
  | o => o

/-- A message put on its way: by the network at once; a reply is written to the buffer of a BUSY mailbox channel, which becomes
REPLY; a notice waits for a FREE one (R318, R338). -/
def deliverTo (s : State) (o : Origin) (major minor : Nat) (m : Sent) : State :=
  match o with
  | .mbox c =>
    if m.kind = 1 ∧ (mboxOf s c).st = .busy then
      setMbox (store s (mboxBase c) (msgBytes major minor m)) c { mboxOf s c with st := .reply }
    else setMbox s c { mboxOf s c with queued := (mboxOf s c).queued ++ [m] }
  | _ => { s with sent := s.sent ++ [{ m with dest := outPort s o }] }

/-- A notice put on its way to a session. -/
def deliver (s : State) (n : Nat) (m : Sent) : State :=
  match sessionOf s n with
  | some x => deliverTo s x.origin x.major x.minor m
  | none => s

/-- A reply (R318, R329): sent where its request came from, kept among the session's last 64, and the request no longer outstanding. -/
def answer (s : State) (n seq typ ctx status : Nat) (tlvs : List (Nat × List Byte)) : State :=
  match sessionOf s n with
  | some x =>
    let m : Sent := { sess := n, kind := 1, status := status, typ := typ, ctx := ctx, seq := seq, tlvs := tlvs }
    let keep := x.replies ++ [(seq, m)]
    let origin := match x.executing.find? (fun r => r.seq = seq) with | some r => r.origin | none => x.origin
    deliverTo (setSession s n (some { x with replies := keep.drop (keep.length - 64),
                                             executing := x.executing.filter (fun r => r.seq ≠ seq),
                                             begun := x.begun.filter (fun q => q ≠ seq) })) origin x.major x.minor m
  | none => s

/-- A DETAIL TLV (R331): the failed check and the offending index. -/
def detailTlv (check index : Nat) : Nat × List Byte := (0x0050, leBytes 2 check ++ leBytes 4 index)

/-- The exports of an object end: from this tick their windows take no access (R353). -/
def closeExports (s : State) (obj : Nat × Nat) : State :=
  { s with bridge := { s.bridge with exports := s.bridge.exports.map (fun e =>
      if e.obj = obj ∧ e.closedAt = none then { e with closedAt := some s.clk.up } else e) } }

/-- A notice to one session: it takes the session's next notice number; the last 256 are kept (R330). -/
def noticeTo (s : State) (n : Nat) (m : Sent) : State :=
  match sessionOf s n with
  | some x =>
    if x.open' then
      let m1 := { m with sess := n, seq := x.noticeSeq }
      let keep := (x.notices ++ [m1])
      deliver (setSession s n (some { x with noticeSeq := (x.noticeSeq + 1) % 2 ^ 32, notices := keep.drop (keep.length - 256) })) n m1
    else s
  | none => s

/-- A notice to every session (R443). -/
def noticeAll (s : State) (m : Sent) : State := forAll (sessionList s) (fun s n => noticeTo s n m) s

/-- A notice to the session of a context; without an open session it is queued with the context, the oldest of more than
256 dropped and counted (R328). -/
def noticeCtx (s : State) (c : Nat) (m : Sent) : State :=
  match contextOf s c with
  | none => s
  | some x =>
    match sessionOf s x.sess with
    | some y =>
      if y.open' then noticeTo s x.sess m
      else
        let q := x.notices ++ [m]
        setContext s c (some { x with notices := q.drop (q.length - 256), noticesLost := x.noticesLost + (q.length - 256) })
    | none =>
      let q := x.notices ++ [m]
      setContext s c (some { x with notices := q.drop (q.length - 256), noticesLost := x.noticesLost + (q.length - 256) })

/-- An object's notice to the session of its context. -/
def notify (s : State) (c typ status code kind index : Nat) (detail : List Byte) (more : List (Nat × List Byte)) : State :=
  noticeCtx s c (mkNotice s typ status code kind index c detail more)

end Sys2Proof.Machine
end

