-- ==== Sys2Proof/Machine/BridgeOps.lean ====
section
/-!
DEFINITION. Sys2Proof/Machine/BridgeOps.lean: a window that closes at its sender (R349, R353).
-/
namespace Sys2Proof.Machine

/-! ### Routes lost (R349) -/

/-- The devices the sender's windows lead to. -/
def windowOwners (s : State) : List Nat :=
  ((List.range 256).filterMap (fun w => if (windowOf s w).st = .closed then none else some (wfld s (winReg w 0) 29 16))).eraseDups

/-- The devices whose routes are followed: owners of windows, and senders of requests that have come (R348, R349). -/
def followed (s : State) : List Nat := (windowOwners s ++ s.bridge.expect.map (fun (e : Nat × Nat) => e.1 / 2 ^ 16)).eraseDups

/-- Routes computed again (R347 to R349): requests not acknowledged go again by their new route; the time from which a device has had no
route is kept: 0 while there is one, else the tick after the loss. -/
def noteRoutes (s : State) : State :=
  forAll (followed s) (fun s d =>
    let v := if (routeTo s false d).isSome then 0 else if tget 0 s.bridge.lostSince d = 0 then s.clk.up + 1 else tget 0 s.bridge.lostSince d
    { s with bridge := { s.bridge with lostSince := tset 0 s.bridge.lostSince d v } }) (resend s)

/-! ### Windows at the sender -/

/-- The sender has been told that a window closes, or has lost every route to its owner: the entry is CLOSING and its context's
host receives WINDOW_CLOSED (R327, R349, R353). -/
def windowShut (s : State) (w : Nat) : State :=
  let x := windowOf s w
  if x.st = .open' then
    notify (setWindow s w { x with st := .closing }) x.ctx 0 stWINDOW 9 okWINDOW w
      (leBytes 4 (word s (winReg w 12)).toNat ++ leBytes 2 (wfld s (winReg w 0) 29 16)) []
  else s

/-- The window an aperture address lies in, open or closing. -/
def windowAt (s : State) (a : Nat) : Option Nat :=
  match locate a with
  | .aperture off =>
    findBelow (fun w => !decide ((windowOf s w).st = .closed) &&
      decide (wfld s (winReg w 4) 14 0 * 0x200000 ≤ off) &&
      decide (off < (wfld s (winReg w 4) 14 0 + wfld s (winReg w 8) 15 0) * 0x200000)) 256
  | _ => none

end Sys2Proof.Machine
end

