-- ==== Sys2Proof/Machine/Granule.lean ====
section
/-!
DEFINITION. Sys2Proof/Machine/Granule.lean: ownership, holds and the scrub engines (R287 to R294).
-/
namespace Sys2Proof.Machine

/-- How work let go of its granules (R287, R290, R291). -/
inductive LetGo where
  | ended (keep : Bool) | killed
  deriving DecidableEq, Repr

/-- The hold a released granule gets: KEEP at a normal end, a snapshot hold after a cancel, kill or failure of a context that
consented and holds L-DBG (R290, R291). -/
def holdFor (s : State) (c : Nat) (how : LetGo) : Option Hold :=
  match how, contextOf s c with
  | .ended true, some _ => some (.keep c s.clk.up)
  | .killed, some x =>
    if x.consent && x.dbg && decide (0 < x.holdMs) then some (.snapshot c (s.clk.up + x.holdMs * 1000000)) else none
  | _, _ => none

/-- A granule released by its owner (R287): DIRTY, held or not. -/
def releaseGranule (s : State) (g : Nat) (how : LetGo) : State :=
  let x := granOf s g
  match x.st, x.owner with
  | .owned, some c => setGran s g { x with st := .dirty, dirtyAt := s.clk.up, hold := holdFor s c how }
  | _, _ => s

/-- The granules a context owns. -/
def ownedBy (s : State) (c : Nat) : List Nat :=
  s.granules.filterMap (fun e => if e.2.st = .owned && e.2.owner = some c then some e.1 else none)

/-- Granules of a list released. -/
def releaseAll (s : State) (gs : List Nat) (how : LetGo) : State := forAll gs (fun s g => releaseGranule s g how) s

/-- A grant of a granule to a context (R287, R288): from CLEAN, or with KEEP from DIRTY held for it; otherwise the request
waits for the scrub engine, or for its partition, and a hold in its way is dropped (R290). -/
def grantGranule (s : State) (g c : Nat) (keep : Bool) : State :=
  let x := granOf s g
  match x.st with
  | .clean => setGran s g { x with st := .owned, owner := some c, hold := none, grantWait := none }
  | .dirty =>
    if x.hold.isSome && x.owner = some c && keep && (match x.hold with | some (.keep d _) => decide (d = c) | _ => false) then
      setGran s g { x with st := .owned, hold := none, grantWait := none }
    else setGran s g { x with hold := none, grantWait := some c }
  | .scrubbing => setGran s g { x with grantWait := some c }
  | .owned => s
  | .off => setGran s g { x with grantWait := some c }

/-- A grant that waits for a context given up. -/
def withdrawGrants (s : State) (gs : List Nat) (c : Nat) : State :=
  forAll gs (fun s g => if (granOf s g).grantWait = some c then setGran s g { granOf s g with grantWait := none } else s) s

/-- Whether a granule is held. -/
def isHeld (x : Granule) : Bool := x.hold.isSome

/-- The scrub engine that fills a granule (R293): one for each memory of a tile or core, one for each SHM slice. -/
def scrubUnit (g : Nat) : Nat :=
  if g < 4608 then
    let o := g % 64
    g / 64 * 4 + (if o < 32 then 0 else if o < 48 then 1 else if o < 56 then 2 else 3)
  else if g < 8192 then 1000 + (g - 4608) / 32 * 2 + (if (g - 4608) % 32 < 16 then 0 else 1)
  else 2000 + (g - 8192) / 16

/-- The granule a scrub engine takes next (R294): one a grant waits for first, then in the order they became DIRTY. The buffer of a
closing export waits for the end of the close (R353). -/
def nextScrub (s : State) (u : Nat) : Option Nat :=
  let l := s.granules.filter (fun e => scrubUnit e.1 = u && e.2.st = .dirty && !isHeld e.2 &&
    !s.bridge.exports.any (fun x => x.closedAt.isSome && decide (e.1 ∈ x.granules)))
  (minBy (fun (e : Nat × Granule) => (if e.2.grantWait.isSome then 0 else 1)) (sortBy (fun (e : Nat × Granule) => e.2.dirtyAt) l)).map
    (fun e => e.1)

/-- Whether a scrub engine is filling a granule. -/
def scrubBusy (s : State) (u : Nat) : Bool := s.granules.any (fun e => scrubUnit e.1 = u && e.2.st = .scrubbing)

/-- Every granule of a list marked after a partition or bank came on: DIRTY without owner (R287); a grant still waits. -/
def granulesOn (s : State) (gs : List Nat) : State :=
  forAll gs (fun s g => setGran s g { st := .dirty, owner := none, hold := none, dirtyAt := s.clk.up,
                                         grantWait := (granOf s g).grantWait }) s

/-- Every granule of a list lost with its partition or bank (R287): the contents are gone. -/
def granulesOff (s : State) (gs : List Nat) : State :=
  forAll gs (fun s g =>
    let r := granuleRange g
    setGran (clearMem s r.1 r.2) g { st := .off }) s

/-- A domain reset of a tile or core (R287): OWNED becomes DIRTY with its holds kept, a scrub starts again. -/
def granulesReset (s : State) (gs : List Nat) : State :=
  forAll gs (fun s g =>
    let x := granOf s g
    match x.st with
    | .owned => setGran s g { x with st := .dirty, dirtyAt := s.clk.up }
    | _ => s) s

/-- Holds of a context dropped when it closes (R287). -/
def dropHolds (s : State) (c : Nat) : State :=
  { s with granules := s.granules.map (fun e => (e.1,
      if (match e.2.hold with | some (.keep d _) => decide (d = c) | some (.snapshot d _) => decide (d = c) | none => false)
      then { e.2 with hold := none } else e.2)) }

/-! ### Commands -/

/-- GRANULE_GRANT (R287, R288, R290). -/
def execGranuleGrant (granule ctx : Nat) (keep : Bool) (s : State) : Out :=
  if granuleExists granule && (contextOf s ctx).isSome then .next (grantGranule s granule ctx keep) else .next s

/-- GRANULE_RELEASE (R287, R290, R291). -/
def execGranuleRelease (granule : Nat) (how : ReleaseHow) (s : State) : Out :=
  match how with
  | .normal keep => .next (releaseGranule s granule (.ended keep))
  | .cancelled => .next (releaseGranule s granule .killed)

/-- GRANULE_HOLD_EXPIRY (R287, R291): the snapshot hold time has run out. -/
def execGranuleHoldExpiry (granule : Nat) (s : State) : Out :=
  let x := granOf s granule
  match x.hold with
  | some (.snapshot _ t) => if t ≤ s.clk.up then .next (setGran s granule { x with hold := none }) else .next s
  | _ => .next s

/-- DIRTY_GRANULE_ACCESS (R289): an access that meets a DIRTY or SCRUBBING granule; the management cores' succeeds. -/
def execDirtyGranuleAccess (src : Src) (addr : Nat) (_write : Bool) (s : State) : Out :=
  match meets s src addr with
  | .dirty g => .next (refuse s src addr (.dirty g))
  | _ => .next s

/-- SCRUB_START (R287, R293, R294): the engine of the granule's memory is free and this granule is its next. -/
def execScrubStart (granule : Nat) (s : State) : Out :=
  if !scrubBusy s (scrubUnit granule) && nextScrub s (scrubUnit granule) = some granule &&
      !heldInReset s (granuleDomain granule) then
    .next (setGran s granule { granOf s granule with st := .scrubbing })
  else .next s

/-- SCRUB_DONE (R287, R293): the granule holds zeros and is CLEAN; a waiting grant is made. -/
def execScrubDone (granule : Nat) (s : State) : Out :=
  let x := granOf s granule
  match x.st with
  | .scrubbing =>
    let r := granuleRange granule
    let s1 := setGran (clearMem s r.1 r.2) granule { x with st := .clean, owner := none, grantWait := none }
    match x.grantWait with
    | some c => if (contextOf s c).isSome then .next (grantGranule s1 granule c false) else .next s1
    | none => .next s1
  | _ => .next s

end Sys2Proof.Machine
end

