-- ==== Sys2Proof/Machine/MemErr.lean ====
section
/-!
DEFINITION. Sys2Proof/Machine/MemErr.lean: what an ECC finding of a read does (R118, R137, R212, R218, R273 to R276), and how
tiles and Etch cores begin to stop (R137, R138, R218, R219).
-/
namespace Sys2Proof.Machine

/-! ### Stopping tiles and cores -/

/-- A tile begins to stop with a code (R137): no more reads, writes, fetches or updates; its wait is withdrawn. -/
def tileStop (s : State) (n code : Nat) : State :=
  let t := tileOf s n
  if engBusy t.st then
    withdrawWait (setTile (stallEnd s n) n { tileOf (stallEnd s n) n with
      st := .stopping, code := code, rotOut := [], rotDue := [], haltAt := false }) n
  else s

/-- A cancel of a tile (R137, R138): the granules it touched since its start are released. -/
def tileCancel (s : State) (n : Nat) : State :=
  let t := tileOf s n
  if engBusy t.st then releaseAll (tileStop s n stCANCELLED) t.touched .killed else s

/-- A core begins to stop with a code (R218). -/
def coreStop (s : State) (n code : Nat) : State :=
  let c := coreOf s n
  if engBusy c.st then
    withdrawWait (setCore (coreStallEnd s n) n { coreOf (coreStallEnd s n) n with
      st := .stopping, code := code, waitEv := none, met := false, haltAt := false }) (72 + n)
  else s

/-- A cancel of a core (R218, R219). -/
def coreCancel (s : State) (n : Nat) : State :=
  let c := coreOf s n
  if engBusy c.st then releaseAll (coreStop s n stCANCELLED) c.touched .killed else s

/-! ### ECC -/

/-- A corrected error of a tile's or core's memories (R118, R212). -/
def tileEccCorr (s : State) (n : Nat) : State :=
  raiseOpen (setWbit s (gtReg n 4) 18 true) 0x201 0 n (tileCtx s n)
def coreEccCorr (s : State) (n : Nat) : State :=
  raiseOpen (setWbit s (ecReg n 4) 18 true) 0x201 0 (72 + n) (coreCtx s n)

/-- An uncorrectable error of a tile's memories, or in data its fetch receives (R118, R137). -/
def tileEccFatal (s : State) (n : Nat) : State :=
  let s1 := raiseOpen (setWbit s (gtReg n 4) 19 true) 0x202 stCHECK n (tileCtx s n)
  let t := tileOf s1 n
  match t.st with
  | .idle => setTile s1 n { t with st := .error, code := stCHECK, fault := true }
  | .done => setTile s1 n { t with st := .error, code := stCHECK, fault := true }
  | _ => tileStop s1 n stCHECK

/-- An uncorrectable error of a core's memories (R212, R218). -/
def coreEccFatal (s : State) (n : Nat) : State :=
  let s1 := raiseOpen (setWbit s (ecReg n 4) 19 true) 0x202 stCHECK (72 + n) (coreCtx s n)
  let c := coreOf s1 n
  match c.st with
  | .idle => setCore s1 n { c with st := .error, code := stCHECK, fault := true }
  | .done => setCore s1 n { c with st := .error, code := stCHECK, fault := true }
  | _ => coreStop s1 n stCHECK

/-- The DDR5 row of an address: devices and their mapping are the board's, so it is open (log 1). -/
def ddrRow (a : Nat) : Nat := Config.freeNat 30 (a / 64)

/-- A corrected DDR5 error (R274): reported, and a row with 16 of them within 24 h is recorded. -/
def ddrCorrected (s : State) (a : Nat) : State :=
  let k := a / 256 % 4
  let d := ddrOf s k
  let row := ddrRow a
  let day := 86400 * 1000000000
  let times := ((tget [] d.rows row).filter (fun t => decide (s.clk.up < t + day))) ++ [s.clk.up]
  let d1 := { d with rows := tset [] d.rows row times,
                     rowsKept := if 16 ≤ times.length ∧ row ∉ d.rowsKept then d.rowsKept ++ [row] else d.rowsKept }
  raiseEv (setDdr s k d1) 0x203 0 (1128 + k) none a

/-- An uncorrectable DDR5 word read by a requester of a context (R275): the line is poisoned, the event raised; a line
already poisoned is reported as such. -/
def ddrUncorrectable (s : State) (ctx : Option Nat) (a : Nat) : State :=
  let k := a / 256 % 4
  let line := a / 64
  let d := ddrOf s k
  let old := decide (line ∈ s.poison)
  let second := 1000000000
  let d1 := { d with uncorr := (d.uncorr.filter (fun t => decide (s.clk.up < t + second))) ++ [s.clk.up] }
  let s1 := setDdr { s with poison := if old then s.poison else s.poison ++ [line] } k d1
  raiseEv s1 0x204 0 (1128 + k) ctx (a % 2 ^ 40 + (if old then 2 ^ 48 else 0))

/-- A line marked poisoned by the write of a dirty cache line that could not be corrected (R275, R280). -/
def poisonLine (s : State) (line : Nat) : State :=
  { s with poison := if line ∈ s.poison then s.poison else s.poison ++ [line] }

/-- A read of one line of DDR5 itself (R274, R275): whether it was uncorrectable. A good line of a requester that the home slice admits
is allocated there (R280). -/
def ddrLineRead (s : State) (src : Src) (ecc : EccResult) (line a : Nat) : State × Bool :=
  let fill (s : State) : State :=
    let x := shmOf s (homeSlice a)
    if caching x && admits x.mode src && (cacheHit x line).isNone then cacheAlloc s line false else s
  if line ∈ s.poison then (ddrUncorrectable s (srcCtx s src) (line * 64), true)
  else match ecc with
    | .uncorrectable => (ddrUncorrectable s (srcCtx s src) a, true)
    | .corrected => (fill (ddrCorrected s a), false)
    | .clean => (fill s, false)

/-- A read of a line through its home slice (R279, R280): a hit reads no DDR5. Of a line with a parity error, a clean one is fetched
again; a dirty one goes to DDR5 poisoned and is lost. -/
def lineRead (s : State) (src : Src) (ecc : EccResult) (a : Nat) : State × Bool :=
  let line := a / 64
  let sl := homeSlice a
  match cacheHit (shmOf s sl) line with
  | none => ddrLineRead s src ecc line a
  | some c =>
    match ecc with
    | .clean => (s, false)
    | .corrected => (s, false)
    | .uncorrectable =>
      if c.dirty then
        let s1 := poisonLine (cacheMap s sl (fun l => l.filter (fun e => e.line ≠ line))) line
        (ddrUncorrectable s1 (srcCtx s src) (line * 64), true)
      else ddrLineRead s src .clean line a

/-- A read of a range of DDR5 line by line; the finding is that of the first line, the others read clean unless they are poisoned. -/
def ddrRead (s : State) (src : Src) (ecc : EccResult) : List (Nat × Nat) → State × Bool
  | [] => (s, false)
  | p :: t =>
    let r := lineRead s src ecc p.1
    let q := ddrRead r.1 src .clean t
    (q.1, r.2 || q.2)

/-- What a read of a physical range meets by its ECC finding: the state, and whether the data is uncorrectable. -/
def eccRead (s : State) (src : Src) (ecc : EccResult) (a n : Nat) : State × Bool :=
  match locate a with
  | .ddr => ddrRead s src ecc (spans 64 (n / 64 + 2) a n)
  | .tile t _ =>
    match ecc with
    | .clean => (s, false)
    | .corrected => (tileEccCorr s t, false)
    | .uncorrectable => (tileEccFatal s t, true)
  | .core c _ =>
    match ecc with
    | .clean => (s, false)
    | .corrected => (coreEccCorr s c, false)
    | .uncorrectable => (coreEccFatal s c, true)
  | _ => (s, decide (ecc = .uncorrectable))

end Sys2Proof.Machine
end

