-- ==== Sys2Proof/Machine/Stipple.lean ====
section
/-!
DEFINITION. Sys2Proof/Machine/Stipple.lean: the blocks of the Stipple codec (R180 to R183). `fmt` is 0 for the integer
format of the element size, 1 and 2 for its two floating formats: FP8 E4M3 and E5M2, or BF16 and FP16.
-/
namespace Sys2Proof.Machine

/-- Block sizes and bits per sample (R180). -/
def stBlock (e16 : Bool) (ratio : Nat) : Nat :=
  (if ratio = 0 then 64 else if ratio = 1 then 32 else if ratio = 2 then 24 else 16) * (if e16 then 2 else 1)

def stBits (e16 : Bool) (ratio : Nat) : Nat :=
  if e16 then (if ratio = 1 then 7 else if ratio = 2 then 5 else 3)
  else (if ratio = 1 then 3 else if ratio = 2 then 2 else 1)

/-- Bits of an element. -/
def stWidth (e16 : Bool) : Nat := if e16 then 16 else 8

/-- The floating layout of a format of the codec. -/
def stFp (e16 : Bool) (fmt : Nat) : FpFmt :=
  if e16 then (if fmt = 1 then fpBF16 else fpFP16) else (if fmt = 1 then fpE4M3 else fpE5M2)

/-- The NaN of R150 in a format. -/
def stNan (e16 : Bool) (fmt : Nat) : Nat := if e16 then (if fmt = 1 then 0x7FC0 else 0x7E00) else 0x7F

/-- A sample's key, and the sample of a key (R182). -/
def stKey (e16 : Bool) (fmt v : Nat) : Int :=
  let w := stWidth e16
  if fmt = 0 then sext w v
  else if v / 2 ^ (w - 1) % 2 = 1 then -((v % 2 ^ (w - 1) : Nat) : Int) else ((v % 2 ^ (w - 1) : Nat) : Int)

def stUnkey (e16 : Bool) (fmt : Nat) (k : Int) : Nat :=
  let w := stWidth e16
  if fmt = 0 then wrapI w k
  else if k < 0 then 2 ^ (w - 1) + k.natAbs % 2 ^ (w - 1) else k.natAbs % 2 ^ (w - 1)

/-- A little-endian bit string of codes of r bits each. -/
def stPack (r : Nat) : List Nat → Nat
  | [] => 0
  | q :: t => q % 2 ^ r + stPack r t * 2 ^ r

/-- The bits the spec leaves open in an encoded block, a function of the block alone, since the same block at the same ratio
always gives the same bytes: the code of a sample of a NaN block, and a bypass block's samples outside the plane (log 1). -/
def stOpen (e16 : Bool) (fmt ratio : Nat) (ss : List (Option Nat)) (i : Nat) : Nat :=
  Config.stippleOpen (stWidth e16) fmt ratio ss i

/-- A block of 64 samples encoded; none is a sample outside the plane (R181, R182). Answers the bytes and whether the block is
of kind 2. -/
def stEncode (e16 : Bool) (fmt ratio : Nat) (ss : List (Option Nat)) : List Byte × Bool :=
  if ratio = 0 then
    (ss.zipIdx.flatMap (fun p => leBytes (if e16 then 2 else 1) (p.1.getD (stOpen e16 fmt ratio ss p.2))), false)
  else
    let r := stBits e16 ratio
    let inside := ss.filterMap id
    let keys := inside.map (stKey e16 fmt)
    let lo := keys.foldl min (keys.headD 0)
    let hi := keys.foldl max (keys.headD 0)
    let d := (hi - lo).toNat
    let lim := 2 ^ r - 1
    let nan := decide (fmt ≠ 0) && inside.any (fun v => fpDecode (stFp e16 fmt) v = .nan)
    let kind := if nan then 2 else if d < 2 ^ r then 0 else 1
    let codes := stPack r (ss.zipIdx.map (fun p => match p.1 with
        | none => 0
        | some x =>
          let k := (stKey e16 fmt x - lo).toNat
          if nan then stOpen e16 fmt ratio ss p.2 else if kind = 0 then k else k * lim / d))
    (leBytes (stBlock e16 ratio) (wrapI 16 lo + wrapI 16 hi * 2 ^ 16 + kind * 2 ^ 32 + codes * 2 ^ 64), nan)

/-- Whether a lossy block is bad (R183). -/
def stBad (e16 : Bool) (ratio : Nat) (bs : List Byte) : Bool :=
  if ratio = 0 then false
  else
    let v := leNat bs
    let r := stBits e16 ratio
    let lo := sext 16 v; let hi := sext 16 (v / 2 ^ 16)
    let kind := v / 2 ^ 32 % 4
    decide (kind = 3) || decide (hi < lo) || decide (v / 2 ^ 34 % 2 ^ 30 ≠ 0) ||
      (decide (kind = 0) && (List.range 64).any (fun i => decide ((hi - lo).toNat < v / 2 ^ (64 + r * i) % 2 ^ r)))

/-- The 64 samples of a block that is not bad (R181, R182). -/
def stDecode (e16 : Bool) (fmt ratio : Nat) (bs : List Byte) : List Nat :=
  let w := if e16 then 2 else 1
  if ratio = 0 then (List.range 64).map (fun i => leAt bs (i * w) w)
  else
    let v := leNat bs
    let r := stBits e16 ratio
    let lo := sext 16 v; let hi := sext 16 (v / 2 ^ 16)
    let kind := v / 2 ^ 32 % 4
    let d := (hi - lo).toNat
    (List.range 64).map (fun i =>
      let q := v / 2 ^ (64 + r * i) % 2 ^ r
      if kind = 2 then stNan e16 fmt
      else if kind = 0 then stUnkey e16 fmt (lo + q)
      else stUnkey e16 fmt (lo + (q * d / (2 ^ r - 1) : Nat)))

end Sys2Proof.Machine
end

