-- ==== Sys2Proof/Machine/DmaOps.lean ====
section
/-!
DEFINITION. Sys2Proof/Machine/DmaOps.lean: channel programs, the bursts of a MOVE, request lines, and how a channel starts,
faults, stops and is cancelled (R246 to R270).
-/
namespace Sys2Proof.Machine

/-! ### Addresses and program words -/

/-- The physical address of a channel's address (R283): untranslated with phys, else through its translation context. -/
def chanAddr (s : State) (c : Nat) (write : Bool) (a : Nat) : Option Nat :=
  if wbit s (dmReg c 0x10) 16 then some (a % 2 ^ 40) else translate s (wfld s (dmReg c 0x10) 15 8) write (a % 2 ^ 40)

/-- A range cut at 64-byte boundaries. -/
def chunks : Nat → Nat → Nat → List (Nat × Nat)
  | 0, _, _ => []
  | fuel + 1, a, n =>
    if n = 0 then []
    else
      let k := min n (64 - a % 64)
      (a, k) :: chunks fuel (a + k) (n - k)

/-- The pieces of a range. -/
def pieces (a n : Nat) : List (Nat × Nat) := chunks (n / 64 + 2) a n

/-- A list of pieces translated for a channel: the physical pieces, or the first address that faults. -/
def chanPieces (s : State) (c : Nat) (write : Bool) : List (Nat × Nat) → List (Nat × Nat) × Option Nat
  | [] => ([], none)
  | (a, n) :: t =>
    match chanAddr s c write a with
    | none => ([], some a)
    | some p =>
      let r := chanPieces s c write t
      ((p, n) :: r.1, r.2)

/-- The address of a channel's program (R269). -/
def chanProg (s : State) (c : Nat) : Nat := wfld s (dmReg c 8) 31 6 * 64 + wfld s (dmReg c 0xC) 7 0 * 2 ^ 32

/-- A word of a channel's program as its fetch returns it (0 where the read is refused), none on a translation fault. -/
def chanWord (s : State) (c i : Nat) : Option Word :=
  (chanAddr s c false (chanProg s c + 4 * i)).map (fun a => BitVec.ofNat 32 (leNat (engineRead s (.dma c) a 4).2.1))

/-- The physical address of the first of a program's words that lies at an endpoint held in reset, if one does (R26). -/
def chanReset (s : State) (c i n : Nat) : Option Nat :=
  ((List.range n).filterMap (fun k => chanAddr s c false (chanProg s c + 4 * (i + k)))).find? (fun a => decide (meets s (.dma c) a = .reset))

/-- Words of a channel's program. -/
def chanWords (s : State) (c i n : Nat) : Option (List Word) := (List.range n).mapM (fun k => chanWord s c (i + k))

/-- The program's length from its header, 0 where the header cannot be read. -/
def chanLen (s : State) (c : Nat) : Nat :=
  match chanWord s c 0 with | some w => fld w 31 16 | none => 0

/-- Whether the four header words keep R249, apart from the checkword. -/
def headerGood (ws : List Word) : Bool :=
  let w (i : Nat) : Word := ws.getD i 0
  decide (fld (w 0) 7 0 = 1) && decide (fld (w 0) 15 8 = 0) && decide (4 ≤ fld (w 0) 31 16) && decide (w 1 = 0) && decide (w 2 = 0)

/-- Whether the checkword in word 3 is the CRC-32C over every other word of the program (R249); a program whose words cannot all
be read is stopped at the fetch that faults, not here. -/
def checkwordGood (s : State) (c : Nat) : Bool :=
  match chanWords s c 0 (chanLen s c) with
  | some ws => decide (crcWords (ws.take 3 ++ ws.drop 4) = ws.getD 3 0)
  | none => true

/-! ### Instructions -/

/-- Words of the instruction whose first word is given (R250); 0 for a reserved opcode. -/
def dmaSize (w : Word) : Nat :=
  let op := fld w 3 0
  if op = 1 then 16 else if op = 2 then 2 + fld w 7 6 else if op = 3 ∨ op = 4 then 2 else 0

/-- Whether an instruction holds a reserved field value or bit (R250, R252). -/
def dmaBadFields (ws : List Word) : Bool :=
  let w (i : Nat) : Word := ws.getD i 0
  let op := fld (w 0) 3 0
  if op = 1 then
    decide (fld (w 0) 31 23 ≠ 0) || decide (fld (w 0) 17 16 = 3) || decide (fld (w 1) 31 16 ≠ 0) ||
      decide (fld (w 3) 31 8 ≠ 0) || decide (fld (w 5) 31 8 ≠ 0) || decide (fld (w 6) 31 24 ≠ 0) ||
      decide (fld (w 8) 31 16 ≠ 0) || decide (w 15 ≠ 0) ||
      (decide (fld (w 0) 22 21 = 2) && (bitOf (w 1) 3 || decide (fld (w 1) 15 7 ≠ 0))) ||
      (decide (fld (w 0) 22 21 = 3) && decide (fld (w 1) 15 8 ≠ 0))
  else if op = 2 then
    decide (fld (w 0) 31 24 ≠ 0) || decide (fld (w 1) 31 16 ≠ 0) ||
      (ws.drop 2).any (fun x => decide (2 < fld x 2 0) || decide (fld x 7 3 ≠ 0))
  else decide (fld (w 0) 15 5 ≠ 0)

/-- What stands at a channel's program counter. -/
inductive DmaRec where
  | fault (a : Nat) | reset (a : Nat) | bad | ended | words (ws : List Word)
  deriving DecidableEq, Repr

/-- The instruction at a channel's program counter. -/
def dmaRec (s : State) (c : Nat) : DmaRec :=
  let pc := (chanOf s c).pc
  match chanWord s c 0 with
  | none => .fault (chanProg s c)
  | some h =>
    if (chanReset s c 0 1).isSome then .reset ((chanReset s c 0 1).getD 0)
    else if fld h 31 16 ≤ pc then .ended
    else match chanWord s c pc with
      | none => .fault (chanProg s c + 4 * pc)
      | some w =>
        let n := dmaSize w
        if (chanReset s c pc (max 1 n)).isSome then .reset ((chanReset s c pc (max 1 n)).getD 0)
        else if n = 0 ∨ fld h 31 16 < pc + n then .bad
        else match chanWords s c pc n with
          | none => .fault (chanProg s c + 4 * pc)
          | some ws => if dmaBadFields ws then .bad else .words ws

/-! ### Bursts of a MOVE -/

def mw (m : MoveWork) (i : Nat) : Word := m.words.getD i 0
def mDims (m : MoveWork) : Nat := fld (mw m 0) 5 4 + 1
def mBarrier (m : MoveWork) : Bool := bitOf (mw m 0) 6
def mPaced (m : MoveWork) : Bool := bitOf (mw m 0) 7
def mLine (m : MoveWork) : Nat := fld (mw m 0) 15 8
def mCodec (m : MoveWork) : Nat := fld (mw m 0) 17 16
def mRatio (m : MoveWork) : Nat := fld (mw m 0) 19 18
def mE16 (m : MoveWork) : Bool := bitOf (mw m 0) 20
def mEvent (m : MoveWork) : Nat := fld (mw m 0) 22 21

/-- The size of a dimension (R253). -/
def mSize (m : MoveWork) (d : Nat) : Nat :=
  if mDims m ≤ d then 1
  else if d = 0 then fld (mw m 6) 23 0 else if d = 1 then fld (mw m 7) 15 0 else if d = 2 then fld (mw m 7) 31 16
  else fld (mw m 8) 15 0

/-- The stride of a dimension, source or destination. -/
def mStride (m : MoveWork) (dst : Bool) (d : Nat) : Int := sext 32 (mw m (7 + 2 * d + (if dst then 1 else 0))).toNat

/-- An address of the MOVE moved by the indices of dimensions 1 to 3 and an offset, modulo 2⁴⁰. -/
def mAddr (m : MoveWork) (dst : Bool) (pos : List Nat) (off : Nat) : Nat :=
  let i (k : Nat) : Int := (pos.getD k 0 : Nat)
  let base : Int := ((if dst then m.dst else m.src) : Nat)
  wrapI 40 (base + off + i 1 * mStride m dst 1 + i 2 * mStride m dst 2 + i 3 * mStride m dst 3)

/-- Whether the MOVE moves nothing (R259). -/
def mEmpty (m : MoveWork) : Bool := (List.range (mDims m)).any (fun d => mSize m d = 0)

/-- Whether the MOVE is one-dimensional with overlapping ranges and runs descending (R261). -/
def mDescends (m : MoveWork) : Bool :=
  decide (mCodec m = 0) && decide (mSize m 1 = 1) && decide (mSize m 2 = 1) && decide (mSize m 3 = 1) &&
    decide (m.src < m.dst) && decide (m.dst < m.src + mSize m 0)

/-- Whether the MOVE is one-dimensional and its ranges overlap (R261). -/
def mOverlaps (m : MoveWork) : Bool :=
  mDescends m || (decide (mCodec m = 0) && decide (mSize m 1 = 1) && decide (mSize m 2 = 1) && decide (mSize m 3 = 1) &&
    decide (m.dst ≤ m.src) && decide (m.src < m.dst + mSize m 0))

/-- Blocks of a row, and blocks of a burst (R254). -/
def mBlocksPerRow (m : MoveWork) : Nat := ceilDiv (mSize m 0) 8
def mBurstBlocks (m : MoveWork) (pos : List Nat) : Nat :=
  min (256 / stBlock (mE16 m) (mRatio m)) (mBlocksPerRow m - pos.getD 0 0 / 8)

/-- First byte offset and length of the plain burst at a position. -/
def mPlain (m : MoveWork) (pos : List Nat) : Nat × Nat :=
  let off := pos.getD 0 0
  if m.down then
    let stop := m.src + off
    let first := max m.src ((stop - 1) / 256 * 256)
    (first - m.src, stop - first)
  else
    let a := mAddr m false pos off
    (off, min (mSize m 0 - off) (256 - a % 256))

/-- Ranges of the uncompressed side of a codec burst: one for each row of the band that lies in the plane. -/
def mRows (m : MoveWork) (dst : Bool) (pos : List Nat) : List (Nat × Nat) :=
  let esz := if mE16 m then 2 else 1
  let x := pos.getD 0 0; let y := pos.getD 1 0
  let w := min (mBurstBlocks m pos * 8) (mSize m 0 - x)
  (List.range (min 8 (mSize m 1 - y))).map (fun i => (mAddr m dst [0, y + i, pos.getD 2 0, pos.getD 3 0] (x * esz), w * esz))

/-- The range of the compressed side of a codec burst (R181, R254). -/
def mBlocks (m : MoveWork) (dst : Bool) (pos : List Nat) : Nat × Nat :=
  let bs := stBlock (mE16 m) (mRatio m)
  (mAddr m dst [0, 0, pos.getD 2 0, pos.getD 3 0] ((pos.getD 1 0 / 8 * mBlocksPerRow m + pos.getD 0 0 / 8) * bs),
   mBurstBlocks m pos * bs)

/-- Pieces a burst reads and writes, in the channel's address space. -/
def mPieces (m : MoveWork) (pos : List Nat) : List (Nat × Nat) × List (Nat × Nat) :=
  if mCodec m = 1 then
    let d := mBlocks m true pos
    ((mRows m false pos).flatMap (fun r => pieces r.1 r.2), pieces d.1 d.2)
  else if mCodec m = 2 then
    let d := mBlocks m false pos
    (pieces d.1 d.2, (mRows m true pos).flatMap (fun r => pieces r.1 r.2))
  else
    let p := mPlain m pos
    (pieces (mAddr m false pos p.1) p.2, pieces (mAddr m true pos p.1) p.2)

/-- The position after a burst, none after the last one (R253, R254). -/
def mAdvance (m : MoveWork) (pos : List Nat) : Option (List Nat) :=
  let i (k : Nat) : Nat := pos.getD k 0
  if mCodec m ≠ 0 then
    if i 0 / 8 + mBurstBlocks m pos < mBlocksPerRow m then some [i 0 + mBurstBlocks m pos * 8, i 1, i 2, i 3]
    else if i 1 + 8 < mSize m 1 then some [0, i 1 + 8, i 2, i 3]
    else if i 2 + 1 < mSize m 2 then some [0, 0, i 2 + 1, i 3]
    else if i 3 + 1 < mSize m 3 then some [0, 0, 0, i 3 + 1]
    else none
  else if m.down then
    let p := mPlain m pos
    if p.1 = 0 then none else some [p.1, 0, 0, 0]
  else
    let p := mPlain m pos
    if i 0 + p.2 < mSize m 0 then some [i 0 + p.2, i 1, i 2, i 3]
    else if i 1 + 1 < mSize m 1 then some [0, i 1 + 1, i 2, i 3]
    else if i 2 + 1 < mSize m 2 then some [0, 0, i 2 + 1, i 3]
    else if i 3 + 1 < mSize m 3 then some [0, 0, 0, i 3 + 1]
    else none

/-- The first position of a MOVE. -/
def mFirst (m : MoveWork) : List Nat := if m.down then [mSize m 0, 0, 0, 0] else [0, 0, 0, 0]

/-! ### Request lines (R255) -/

/-- Credits added by a pulse, when they fit; the bound channel's paced MOVE goes on. -/
def pulseLine (s : State) (l n : Nat) : State :=
  let s1 := setWord s (lineReg l 4) (BitVec.ofNat 32 (lineCredit s l + n))
  match lineChan s1 l with
  | some c =>
    let x := chanOf s1 c
    if x.st = .waiting && (match x.move with | some m => mPaced m && decide (mLine m = l) | none => false) then
      setChan s1 c { x with st := .running }
    else s1
  | none => s1

/-- Whether a pulse fits a line (R255: otherwise it waits at its source). -/
def pulseFits (s : State) (l n : Nat) : Bool := decide (lineCredit s l + n ≤ 65535)

/-- The credits of every line bound to a channel set to 0 (R266). -/
def clearLines (s : State) (c : Nat) : State :=
  forAll (List.range 256) (fun s l => if lineChan s l = some c then setWord s (lineReg l 4) 0 else s) s

/-! ### States of a channel (R268) -/

/-- Whether a channel may start. -/
def chanFree (x : Chan) : Bool := decide (x.st = .idle) || decide (x.st = .done)

/-- Whether a channel can be cancelled or stopped. -/
def chanBusy (x : Chan) : Bool := decide (x.st = .running) || decide (x.st = .waiting) || decide (x.st = .faulted)

/-- A channel begins to stop with a code; its wait is withdrawn. -/
def chanStop (s : State) (c code : Nat) : State :=
  let x := chanOf s c
  if chanBusy x then
    withdrawWait (setChan s c { x with st := .stopping, code := code, move := none, resuming := false }) (80 + c)
  else s

/-- Granules of physical pieces. -/
def pieceGranules (l : List (Nat × Nat)) : List Nat := (l.filterMap (fun p => granuleAt (locate p.1))).eraseDups

/-- Physical pieces a MOVE was filling: those of its bursts from the first on, up to the next position. -/
def filledPieces (s : State) (c : Nat) (m : MoveWork) : Nat → List Nat → List (Nat × Nat)
  | 0, _ => []
  | fuel + 1, pos =>
    if pos = m.cur ∧ m.issuedAll = false then []
    else
      (chanPieces s c true (mPieces m pos).2).1 ++
        (match mAdvance m pos with | some q => filledPieces s c m fuel q | none => [])

/-- A cancel of a channel (R266): destinations of the MOVE in work marked DIRTY, credits of its lines to 0. -/
def chanCancel (s : State) (c : Nat) : State :=
  let x := chanOf s c
  if chanBusy x then
    let dirt := match x.move with
      | some m => pieceGranules (filledPieces s c m (x.bytes / 64 + x.bursts.length + 65536) (mFirst m))
      | none => []
    clearLines (forAll dirt markDirty (chanStop s c stCANCELLED)) c
  else s

/-- A translation fault (R263, R268): position of the first unacknowledged burst and the address are latched. -/
def chanFault (s : State) (c a : Nat) (write fetch : Bool) : State :=
  let x := chanOf s c
  let own := x.bursts.filter (fun b => !b.old)
  let cur := match x.move with | some m => m.cur | none => []
  let pos := match own with | b :: _ => b.pos | [] => cur
  let x1 := { x with st := .faulted, pos := pos, faultAddr := a, faultWrite := write, faultFetch := fetch,
                     move := x.move.map (fun m => { m with redo := own.length + m.redo }) }
  let s1 := iommuFault (setChan s c x1) (.dma c) (chanCtx s c) a
  raiseEv s1 0x206 stPAGE (80 + c) (chanCtx s c) a

/-- A reserved encoding reached (R265): the detail of the event holds the word index. -/
def chanRecordBad (s : State) (c : Nat) : State :=
  raiseEv (chanStop s c stCHECK) 0x309 stCHECK (80 + c) (chanCtx s c) (chanOf s c).pc

/-- A program fetch answered RESET_IN_PROGRESS (R26, R265): the router raises NACK with the channel as its source. -/
def chanFetchReset (s : State) (c a : Nat) : State := chanStop (raiseAt s 0x107 stRESET (.dma c) a) c stRESET

/-- A program word that is no instruction: where the fetch was refused the refusal is reported as well (R35). -/
def chanFetchBad (s : State) (c : Nat) : State :=
  match chanAddr s c false (chanProg s c + 4 * (chanOf s c).pc) with
  | some a => chanRecordBad (engineRead s (.dma c) a 4).1 c
  | none => chanRecordBad s c

/-- A start event of a channel (R268): the header is fetched, or err_start set. -/
def chanGo (s : State) (c : Nat) : State :=
  let x := chanOf s c
  if chanFree x then
    let s1 := setChan s c { x with st := .running, code := stOK, pc := 4, pos := [], loops := [], move := none, moves := 0,
                                   movesFull := 0, resuming := false }
    match chanWords s1 c 0 4 with
    | none => chanFault s1 c (chanProg s1 c) false true
    | some ws =>
      match chanReset s1 c 0 4 with
      | some a => chanFetchReset s1 c a
      | none => if headerGood ws && checkwordGood s1 c then s1
      else chanRecordBad (setChan s1 c { chanOf s1 c with pc := 0 }) c
  else setWbit s (dmReg c 4) 17 true

/-- The sum of the steps of the active loops on a target (R251). -/
def dmaStep (x : Chan) (target : Nat) : Int :=
  (x.loops.map (fun f => (f.steps.filter (fun p => p.1 = target)).foldl (fun a p => a + p.2 * (f.iter : Int)) 0)).foldl (· + ·) 0

/-- A MOVE as it begins: the steps of the active loops added (R251, R252). An event target of kind 2 holds no flag index and no line
number, so no step acts on it. -/
def moveOf (x : Chan) (ws : List Word) (fmt : Nat) : MoveWork :=
  let w (i : Nat) : Word := ws.getD i 0
  let a (i : Nat) (t : Nat) : Nat := wrapI 40 (((w i).toNat + fld (w (i + 1)) 7 0 * 2 ^ 32 : Nat) + 64 * dmaStep x t)
  let m : MoveWork := { words := ws, src := a 2 0, dst := a 4 1,
                        target := wrapI 16 ((fld (w 1) 15 0 : Nat) + (if fld (w 0) 22 21 = 2 then 0 else dmaStep x 2)),
                        cur := [], down := false, issuedAll := false, nacked := false, redo := 0, fmt := fmt }
  let m1 := { m with down := mDescends m }
  { m1 with cur := mFirst m1, issuedAll := mEmpty m1 }

/-- The loop an instruction opens (R250, R251). -/
def dmaLoop (pc : Nat) (ws : List Word) : LoopFrame :=
  { level := fld (ws.getD 0 0) 5 4, body := pc + ws.length, stop := pc + ws.length + fld (ws.getD 1 0) 15 0,
    count := fld (ws.getD 0 0) 23 8 + 1, iter := 0, steps := (ws.drop 2).map (fun y => (fld y 2 0, sext 24 (fld y 31 8))) }

/-- The channel past a LOOP: in its body, or behind an empty one. -/
def dmaEnter (x : Chan) (ws : List Word) : Chan :=
  let f := dmaLoop x.pc ws
  if f.stop = f.body then dmaNext 5 x f.body else { x with pc := f.body, loops := f :: x.loops }

end Sys2Proof.Machine
end

