-- ==== Sys2Proof/Machine/EtchDecode.lean ====
section
/-!
DEFINITION. Sys2Proof/Machine/EtchDecode.lean: the slot words of an Etch bundle: operations, reserved encodings, the registers
a slot reads and writes (R213, R225 to R245).
-/
namespace Sys2Proof.Machine

/-! ### Operations of the slots -/

/-- Slots S0 and S1 (R228). -/
inductive SOp where
  | add | sub | and | or | xor | shl | shr | sar | mul | mulh | slt | sltu | min | max
  | addi | andi | ori | xori | shli | shri | sari | li | lui | beq | bne | blt | bge | jmp | fsig | loopi | loopr | fwait
  | evwait | req | halt
  deriving DecidableEq, Repr

/-- Slots L0 and L1 (R234). -/
inductive LOp where
  | lds | sts | ldv | stv | ldbc
  deriving DecidableEq, Repr

/-- Slots V0 and V1 (R235). -/
inductive VOp where
  | vadd | vsub | vadds | vsubs | vmin | vmax | vabsd | vand | vor | vxor | vshl | vshr | vsar | vshli | vshri | vsari
  | vsel | vbcast | vnrw | vwidl | vwidh | vcmpeq | vcmplt | vcmple | pand | por | pxor | pandn | vmov
  deriving DecidableEq, Repr

/-- Slot V2 (R237 to R239). -/
inductive POp where
  | vperm | vslide | vzip | vuzp | vext | vins | vredadd | vredmin | vredmax | vmaxi | vmini | vmaxr | vminr | ptov | vtop | pcnt
  deriving DecidableEq, Repr

/-- Slot X (R241). -/
inductive XOp where
  | xfir | xmat | xmul | xmuls | xwr | xclr | xrd
  deriving DecidableEq, Repr

/-- The opcode field of a slot word. -/
def opField (w : Word) : Nat := fld w 31 26

/-- Opcodes of slots S0 and S1. -/
def sOp (k : Nat) : Option SOp :=
  match k with
  | 0x01 => some .add | 0x02 => some .sub | 0x03 => some .and | 0x04 => some .or | 0x05 => some .xor | 0x06 => some .shl
  | 0x07 => some .shr | 0x08 => some .sar | 0x09 => some .mul | 0x0A => some .mulh | 0x0B => some .slt | 0x0C => some .sltu
  | 0x0D => some .min | 0x0E => some .max | 0x11 => some .addi | 0x12 => some .andi | 0x13 => some .ori | 0x14 => some .xori
  | 0x15 => some .shli | 0x16 => some .shri | 0x17 => some .sari | 0x18 => some .li | 0x19 => some .lui | 0x20 => some .beq
  | 0x21 => some .bne | 0x22 => some .blt | 0x23 => some .bge | 0x24 => some .jmp | 0x28 => some .fsig | 0x30 => some .loopi
  | 0x31 => some .loopr | 0x32 => some .fwait | 0x33 => some .evwait | 0x34 => some .req | 0x3F => some .halt
  | _ => none

/-- Opcodes of slots L0 and L1. -/
def lsOp (k : Nat) : Option LOp :=
  match k with
  | 0x01 => some .lds | 0x02 => some .sts | 0x03 => some .ldv | 0x04 => some .stv | 0x05 => some .ldbc
  | _ => none

/-- Opcodes of slots V0 and V1. -/
def vOp (k : Nat) : Option VOp :=
  match k with
  | 0x01 => some .vadd | 0x02 => some .vsub | 0x03 => some .vadds | 0x04 => some .vsubs | 0x05 => some .vmin | 0x06 => some .vmax
  | 0x07 => some .vabsd | 0x08 => some .vand | 0x09 => some .vor | 0x0A => some .vxor | 0x0B => some .vshl | 0x0C => some .vshr
  | 0x0D => some .vsar | 0x0E => some .vshli | 0x0F => some .vshri | 0x10 => some .vsari | 0x11 => some .vsel
  | 0x12 => some .vbcast | 0x13 => some .vnrw | 0x14 => some .vwidl | 0x15 => some .vwidh | 0x18 => some .vcmpeq
  | 0x19 => some .vcmplt | 0x1A => some .vcmple | 0x1C => some .pand | 0x1D => some .por | 0x1E => some .pxor
  | 0x1F => some .pandn | 0x20 => some .vmov
  | _ => none

/-- Opcodes of slot V2. -/
def pOp (k : Nat) : Option POp :=
  match k with
  | 0x01 => some .vperm | 0x02 => some .vslide | 0x03 => some .vzip | 0x04 => some .vuzp | 0x05 => some .vext | 0x06 => some .vins
  | 0x08 => some .vredadd | 0x09 => some .vredmin | 0x0A => some .vredmax | 0x0C => some .vmaxi | 0x0D => some .vmini
  | 0x0E => some .vmaxr | 0x0F => some .vminr | 0x10 => some .ptov | 0x11 => some .vtop | 0x12 => some .pcnt
  | _ => none

/-- Opcodes of slot X. -/
def xOp (k : Nat) : Option XOp :=
  match k with
  | 0x01 => some .xfir | 0x02 => some .xmat | 0x03 => some .xmul | 0x04 => some .xmuls | 0x05 => some .xwr | 0x06 => some .xclr
  | 0x08 => some .xrd
  | _ => none

/-! ### Fields -/

/-- Element width in bits and lane count of a type (R227). -/
def tBits (t : Nat) : Nat := 8 * 2 ^ t
def tLanes (t : Nat) : Nat := 128 / 2 ^ t

/-- The fields of a V format word. -/
def vD (w : Word) : Nat := fld w 25 20
def vA (w : Word) : Nat := fld w 19 14
def vB (w : Word) : Nat := fld w 13 8
def vType (w : Word) : Nat := fld w 7 6
def vSgn (w : Word) : Bool := bitOf w 5
def vSc (w : Word) : Bool := bitOf w 4
def vP (w : Word) : Nat := fld w 3 0

/-- The fields of an LS format word. -/
def lRt (w : Word) : Nat := fld w 25 20
def lAn (w : Word) : Nat := fld w 19 16
def lP (w : Word) : Nat := fld w 15 12
def lImm (w : Word) : Bool := bitOf w 11
def lMm (w : Word) : Nat := fld w 10 7

/-- The fields of X and XR format words. -/
def xAcc (w : Word) : Nat := fld w 25 23
def xA (w : Word) : Nat := fld w 22 17
def xB (w : Word) : Nat := fld w 16 11
def xWide (w : Word) : Bool := bitOf w 10
def xSa (w : Word) : Bool := bitOf w 9
def xSb (w : Word) : Bool := bitOf w 8
def xClr (w : Word) : Bool := bitOf w 7
def xStep (w : Word) : Bool := bitOf w 6
def xC0 (w : Word) : Nat := fld w 5 4

/-! ### Reserved encodings (R225) -/

/-- Whether a scalar slot word is not reserved; `one` is slot S1. -/
def sLegal (one : Bool) (w : Word) : Bool :=
  w = 0 || (match sOp (opField w) with
  | none => false
  | some op => match op with
    | .addi => true | .andi => true | .ori => true | .xori => true | .li => true | .lui => true
    | .shli => decide (fld w 13 5 = 0) | .shri => decide (fld w 13 5 = 0) | .sari => decide (fld w 13 5 = 0)
    | .beq => !bitOf w 13 | .bne => !bitOf w 13 | .blt => !bitOf w 13 | .bge => !bitOf w 13
    | .jmp => decide (fld w 25 13 = 0)
    | .fsig => decide (fld w 19 17 = 0)
    | .fwait => !one && decide (fld w 19 17 = 0)
    | .loopi => !one && decide (fld w 12 10 = 0)
    | .loopr => !one && decide (fld w 12 6 = 0)
    | .evwait => !one && decide (fld w 25 3 = 0)
    | .req => one && decide (fld w 13 0 = 0)
    | .halt => !one && decide (fld w 25 0 = 0)
    | _ => decide (fld w 7 0 = 0))

/-- Whether a load or store slot word is not reserved. -/
def lLegal (w : Word) : Bool :=
  w = 0 || (match lsOp (opField w) with
  | none => false
  | some op => (decide (op = .stv) || decide (lP w = 0)) && (lImm w || decide (fld w 6 0 = 0)))

/-- Operations of slots V0 and V1 to which sgn has a meaning. -/
def vSigned : VOp → Bool
  | .vadds => true | .vsubs => true | .vmin => true | .vmax => true | .vabsd => true | .vwidl => true | .vwidh => true
  | .vcmplt => true | .vcmple => true | .vnrw => true
  | _ => false

/-- Whether a slot V0 or V1 word is not reserved (R227, R235, R236). -/
def vLegal (w : Word) : Bool :=
  w = 0 || (match vOp (opField w) with
  | none => false
  | some op =>
    decide (vType w ≠ 3) && (vSigned op || !vSgn w) &&
    (match op with
     | .vshli => !vSc w && decide (vB w < tBits (vType w))
     | .vshri => !vSc w && decide (vB w < tBits (vType w))
     | .vsari => !vSc w && decide (vB w < tBits (vType w))
     | .vnrw => decide (vType w ≠ 0)
     | .vwidl => decide (vType w ≠ 2)
     | .vwidh => decide (vType w ≠ 2)
     | .vcmpeq => decide (vD w < 16) | .vcmplt => decide (vD w < 16) | .vcmple => decide (vD w < 16)
     | .pand => decide (fld w 7 0 = 0) && decide (vD w < 16) && decide (vA w < 16) && decide (vB w < 16)
     | .por => decide (fld w 7 0 = 0) && decide (vD w < 16) && decide (vA w < 16) && decide (vB w < 16)
     | .pxor => decide (fld w 7 0 = 0) && decide (vD w < 16) && decide (vA w < 16) && decide (vB w < 16)
     | .pandn => decide (fld w 7 0 = 0) && decide (vD w < 16) && decide (vA w < 16) && decide (vB w < 16)
     | _ => true))

/-- Whether a register number is even. -/
def even (n : Nat) : Bool := n % 2 = 0

/-- Whether a slot V2 word is not reserved (R237 to R239). -/
def pLegal (w : Word) : Bool :=
  w = 0 || (match pOp (opField w) with
  | none => false
  | some op =>
    decide (vType w ≠ 3) &&
    (match op with
     | .vperm => even (vA w) && !vSgn w && !vSc w
     | .vslide => decide (fld w 5 0 < tLanes (vType w))
     | .vzip => even (vD w) && decide (fld w 5 0 = 0)
     | .vuzp => even (vD w) && even (vA w) && decide (vB w = 0) && decide (fld w 5 0 = 0)
     | .vext => decide (fld w 4 0 = 0)
     | .vins => decide (fld w 5 0 = 0)
     | .vredadd => decide (vB w = 0) && !vSc w
     | .vredmin => decide (vB w = 0) && !vSc w
     | .vredmax => decide (vB w = 0) && !vSc w
     | .vmaxi => even (vD w)
     | .vmini => even (vD w)
     | .vmaxr => even (vD w) && decide (vD w < 32) && even (vA w) && decide (vB w = 0)
     | .vminr => even (vD w) && decide (vD w < 32) && even (vA w) && decide (vB w = 0)
     | .ptov => decide (vA w < 16) && decide (vB w = 0) && decide (fld w 5 0 = 0)
     | .vtop => decide (vD w < 16) && decide (vB w = 0) && decide (fld w 5 0 = 0)
     | .pcnt => decide (vA w < 16) && decide (vB w = 0) && decide (fld w 5 0 = 0)))

/-- Whether a slot X word is not reserved (R241 to R245). -/
def xLegal (w : Word) : Bool :=
  w = 0 || (match xOp (opField w) with
  | none => false
  | some op => match op with
    | .xfir => decide (fld w 3 0 = 0) && decide (xA w ≤ 62) && (xWide w || decide (xC0 w < 2))
    | .xmat => decide (fld w 6 0 = 0) && decide (xA w ≤ 62) && decide (xB w ≤ 62)
    | .xmul => decide (fld w 6 0 = 0)
    | .xmuls => decide (fld w 6 0 = 0)
    | .xwr => decide (fld w 8 0 = 0) && decide (xB w = 0) && (xWide w || decide (xA w ≤ 62))
    | .xclr => decide (fld w 22 0 = 0)
    | .xrd => decide (fld w 5 0 = 0) && decide (xB w < 48) && decide (fld w 10 9 ≠ 3) && (decide (fld w 10 9 ≠ 1) || !bitOf w 6))

/-! ### Registers a bundle reads and writes

Keys: scalar-class 0 to 63 (R226), V at 64, P at 128, ACC at 144 for the next accumulate and at 152 for any other reader. -/

def kV (n : Nat) : Nat := 64 + n
def kP (n : Nat) : Nat := 128 + n
def kAcc (n : Nat) : Nat := 144 + n
def kAccRead (n : Nat) : Nat := 152 + n

/-- Registers a scalar slot writes, with the latency of R215. -/
def sWrites (w : Word) : List (Nat × Nat) :=
  match sOp (opField w) with
  | none => []
  | some op =>
    if opField w < 0x20 then [(fld w 25 20, if op = .mul ∨ op = .mulh then 3 else 1)] else []

/-- Registers a scalar slot reads. -/
def sReads (w : Word) : List Nat :=
  match sOp (opField w) with
  | none => []
  | some op => match op with
    | .li => [] | .lui => [] | .jmp => [] | .loopi => [] | .evwait => [] | .req => [] | .halt => []
    | .addi => [fld w 19 14] | .andi => [fld w 19 14] | .ori => [fld w 19 14] | .xori => [fld w 19 14]
    | .shli => [fld w 19 14] | .shri => [fld w 19 14] | .sari => [fld w 19 14]
    | .beq => [fld w 25 20, fld w 19 14] | .bne => [fld w 25 20, fld w 19 14]
    | .blt => [fld w 25 20, fld w 19 14] | .bge => [fld w 25 20, fld w 19 14]
    | .fsig => [fld w 25 20] | .fwait => [fld w 25 20]
    | .loopr => [fld w 5 0]
    | _ => [fld w 19 14, fld w 13 8]

/-- Registers a load or store slot writes. -/
def lWrites (w : Word) : List (Nat × Nat) :=
  match lsOp (opField w) with
  | none => []
  | some op =>
    (match op with | .lds => [(lRt w, 4)] | .ldv => [(kV (lRt w), 4)] | .ldbc => [(kV (lRt w), 4)] | _ => []) ++
      (if lImm w then [] else [(32 + lAn w, 1)])

/-- Registers a load or store slot reads. -/
def lReads (w : Word) : List Nat :=
  match lsOp (opField w) with
  | none => []
  | some op =>
    [32 + lAn w] ++ (if lImm w then [] else [48 + lMm w]) ++
      (match op with | .sts => [lRt w] | .stv => [kV (lRt w), kP (lP w)] | _ => [])

/-- Registers a slot V0 or V1 writes. -/
def vWrites (w : Word) : List (Nat × Nat) :=
  match vOp (opField w) with
  | none => []
  | some op => match op with
    | .vcmpeq => [(kP (vD w), 2)] | .vcmplt => [(kP (vD w), 2)] | .vcmple => [(kP (vD w), 2)]
    | .pand => [(kP (vD w), 2)] | .por => [(kP (vD w), 2)] | .pxor => [(kP (vD w), 2)] | .pandn => [(kP (vD w), 2)]
    | _ => [(kV (vD w), 2)]

/-- Registers a slot V0 or V1 reads; a masked write reads the old value. -/
def vReads (w : Word) : List Nat :=
  match vOp (opField w) with
  | none => []
  | some op =>
    let b := if vSc w then vB w else kV (vB w)
    let old := if vP w = 0 then [] else [kV (vD w), kP (vP w)]
    match op with
    | .pand => [kP (vA w), kP (vB w)] | .por => [kP (vA w), kP (vB w)] | .pxor => [kP (vA w), kP (vB w)]
    | .pandn => [kP (vA w), kP (vB w)]
    | .vcmpeq => [kV (vA w), b, kP (vP w)] | .vcmplt => [kV (vA w), b, kP (vP w)] | .vcmple => [kV (vA w), b, kP (vP w)]
    | .vbcast => vA w :: old
    | .vnrw => [kV (vA w), kV (vB w)]
    | .vsel => [kV (vA w), b, kP (vP w)]
    | .vmov => kV (vA w) :: old
    | .vwidl => kV (vA w) :: old
    | .vwidh => kV (vA w) :: old
    | .vshli => kV (vA w) :: old
    | .vshri => kV (vA w) :: old
    | .vsari => kV (vA w) :: old
    | _ => [kV (vA w), b] ++ old

/-- Registers slot V2 writes. -/
def pWrites (w : Word) : List (Nat × Nat) :=
  match pOp (opField w) with
  | none => []
  | some op => match op with
    | .vperm => [(kV (vD w), 3)] | .vslide => [(kV (vD w), 3)] | .vins => [(kV (vD w), 3)] | .ptov => [(kV (vD w), 3)]
    | .vzip => [(kV (vD w), 3), (kV (vD w + 1), 3)] | .vuzp => [(kV (vD w), 3), (kV (vD w + 1), 3)]
    | .vmaxi => [(kV (vD w), 3), (kV (vD w + 1), 3)] | .vmini => [(kV (vD w), 3), (kV (vD w + 1), 3)]
    | .vmaxr => [(vD w, 3), (vD w + 1, 3)] | .vminr => [(vD w, 3), (vD w + 1, 3)]
    | .vtop => [(kP (vD w), 3)]
    | _ => [(vD w, 3)]

/-- Registers slot V2 reads. -/
def pReads (w : Word) : List Nat :=
  match pOp (opField w) with
  | none => []
  | some op => match op with
    | .vperm => [kV (vA w), kV (vA w + 1), kV (vB w), kV (vD w), kP (vP w)]
    | .vslide => [kV (vA w), kV (vB w)]
    | .vzip => [kV (vA w), kV (vB w)]
    | .vuzp => [kV (vA w), kV (vA w + 1)]
    | .vext => [kV (vA w), vB w]
    | .vins => [kV (vD w), vA w, vB w]
    | .vmaxi => [kV (vD w), kV (vD w + 1), kV (vA w), vB w, kP (vP w)]
    | .vmini => [kV (vD w), kV (vD w + 1), kV (vA w), vB w, kP (vP w)]
    | .vmaxr => [kV (vA w), kV (vA w + 1), kP (vP w)]
    | .vminr => [kV (vA w), kV (vA w + 1), kP (vP w)]
    | .ptov => [kP (vA w)] | .pcnt => [kP (vA w)]
    | .vtop => [kV (vA w)]
    | _ => [kV (vA w), kP (vP w)]

/-- Registers slot X writes: an accumulator is named once, by its accumulate key. -/
def xWrites (w : Word) : List (Nat × Nat) :=
  match xOp (opField w) with
  | none => []
  | some op => match op with
    | .xrd => [(kV (xA w), 3)]
    | _ => [(kAcc (xAcc w), 1)]

/-- Registers slot X reads. -/
def xReads (w : Word) : List Nat :=
  match xOp (opField w) with
  | none => []
  | some op =>
    let acc := if xClr w then [] else [kAcc (xAcc w)]
    match op with
    | .xfir => [kV (xA w), kV (xA w + 1), kV (xB w)] ++ acc
    | .xmat => [kV (xA w), kV (xA w + 1), kV (xB w), kV (xB w + 1)] ++ acc
    | .xmul => [kV (xA w), kV (xB w)] ++ acc
    | .xmuls => [kV (xA w), xB w] ++ acc
    | .xwr => if xWide w then [kV (xA w)] else [kV (xA w), kV (xA w + 1)]
    | .xclr => []
    | .xrd => kAccRead (xAcc w) :: (if fld w 10 9 = 0 then [kV (xA w)] else [])

/-! ### Bundles -/

/-- The eight slot words of a bundle in byte order: S0, S1, L0, L1, V0, V1, V2, X. -/
structure Bundle where
  s0 : Word
  s1 : Word
  l0 : Word
  l1 : Word
  v0 : Word
  v1 : Word
  v2 : Word
  x : Word
  deriving DecidableEq, Repr

/-- A bundle of slot words by their place. -/
def bundleOf (w : Nat → Word) : Bundle := { s0 := w 0, s1 := w 1, l0 := w 2, l1 := w 3, v0 := w 4, v1 := w 5, v2 := w 6, x := w 7 }

/-- Whether a scalar slot word is one of the operations of which a bundle holds at most one (R229). -/
def isControl (w : Word) : Bool :=
  match sOp (opField w) with
  | some .beq => true | some .bne => true | some .blt => true | some .bge => true | some .jmp => true | some .loopi => true
  | some .loopr => true | some .fwait => true | some .evwait => true | some .halt => true
  | _ => false

def isOp (w : Word) (op : SOp) : Bool := sOp (opField w) = some op

/-- Registers a bundle writes, with latencies, and reads. -/
def bWrites (b : Bundle) : List (Nat × Nat) :=
  sWrites b.s0 ++ sWrites b.s1 ++ lWrites b.l0 ++ lWrites b.l1 ++ vWrites b.v0 ++ vWrites b.v1 ++ pWrites b.v2 ++ xWrites b.x
def bReads (b : Bundle) : List Nat :=
  sReads b.s0 ++ sReads b.s1 ++ lReads b.l0 ++ lReads b.l1 ++ vReads b.v0 ++ vReads b.v1 ++ pReads b.v2 ++ xReads b.x

/-- Whether no value of a list occurs twice. -/
def noDup : List Nat → Bool
  | [] => true
  | a :: t => !t.contains a && noDup t

/-- Whether a bundle is legal (R213, R225, R229). -/
def bundleLegal (b : Bundle) : Bool :=
  sLegal false b.s0 && sLegal true b.s1 && lLegal b.l0 && lLegal b.l1 && vLegal b.v0 && vLegal b.v1 && pLegal b.v2 && xLegal b.x &&
    noDup ((bWrites b).map (fun p => p.1)) && !(isControl b.s0 && isControl b.s1) &&
    !(isOp b.s0 .fsig && isOp b.s1 .fsig) && !((isOp b.s0 .fsig || isOp b.s1 .fsig) && isOp b.s0 .fwait)

end Sys2Proof.Machine
end

