-- ==== Sys2Proof/Machine/EtchExec.lean ====
section
/-!
DEFINITION. Sys2Proof/Machine/EtchExec.lean: what the slots of an Etch bundle compute from the registers at issue (R213, R214,
R226 to R245).
-/
namespace Sys2Proof.Machine

/-! ### Registers of a core -/

/-- A scalar-class register (R226). -/
def scOf (c : Core) (k : Nat) : Word := tget 0 c.sc k
def vecOf (c : Core) (k : Nat) : VecReg := tget 0 c.vec k
/-- A predicate register; P0 reads as all ones (R209). -/
def predOf (c : Core) (k : Nat) : PredReg := if k = 0 then BitVec.allOnes 128 else tget 0 c.pred k
def accOf (c : Core) (a j : Nat) : BitVec 48 := tget 0 c.acc (64 * a + j)

/-- Element i of a vector, of w bits. -/
def elemOf (w : Nat) (v : VecReg) (i : Nat) : Nat := (v.toNat >>> (w * i)) % 2 ^ w

/-- The elements of a vector. -/
def elems (w : Nat) (v : VecReg) : List Nat := (List.range (1024 / w)).map (elemOf w v)

/-- A vector from its elements. -/
def ofElems (w : Nat) (l : List Nat) : VecReg :=
  BitVec.ofNat 1024 (l.foldr (fun e a => e % 2 ^ w + a * 2 ^ w) 0)

/-- Whether a predicate enables element i of w bits (R227). -/
def enabled (p : PredReg) (w i : Nat) : Bool := bitOf p (w / 8 * i)

/-- A predicate from one value per element of w bits. -/
def ofPred (w : Nat) (l : List Bool) : PredReg :=
  BitVec.ofNat 128 (l.foldr (fun b a => (if b then 2 ^ (w / 8) - 1 else 0) + a * 2 ^ (w / 8)) 0)

/-- A masked write: elements the predicate does not enable keep the old value. -/
def masked (p : PredReg) (w : Nat) (old : VecReg) (l : List Nat) : VecReg :=
  ofElems w (l.zipIdx.map (fun e => if enabled p w e.2 then e.1 else elemOf w old e.2))

/-- An element as an integer. -/
def elemInt (sgn : Bool) (w v : Nat) : Int := if sgn then sext w v else (v % 2 ^ w : Nat)

/-- A value saturated to an element's range. -/
def satElem (sgn : Bool) (w : Nat) (v : Int) : Nat := wrapI w (if sgn then satS w v else satU w v)

/-- Registers written by a slot. -/
inductive RegW where
  | sc (k : Nat) (v : Word) | vec (k : Nat) (v : VecReg) | pred (k : Nat) (v : PredReg) | acc (a : Nat) (v : List (BitVec 48))

/-- A register write applied; writes to P0 are ignored (R209). -/
def putReg (c : Core) : RegW → Core
  | .sc k v => { c with sc := tset 0 c.sc k v }
  | .vec k v => { c with vec := tset 0 c.vec k v }
  | .pred k v => if k = 0 then c else { c with pred := tset 0 c.pred k v }
  | .acc a v => { c with acc := v.zipIdx.foldl (fun t e => tset 0 t (64 * a + e.2) e.1) c.acc }

/-! ### Scalar slots (R228) -/

/-- The 14-bit immediate, sign- and zero-extended; the 20-bit immediate. -/
def immS (w : Word) : Word := BitVec.ofInt 32 (sext 14 (fld w 13 0))
def immU (w : Word) : Word := BitVec.ofNat 32 (fld w 13 0)

/-- Registers written by a scalar slot. -/
def sExec (c : Core) (w : Word) : List RegW :=
  let a := scOf c (fld w 19 14); let b := scOf c (fld w 13 8); let rd := fld w 25 20
  let r (v : Word) : List RegW := [.sc rd v]
  let one (t : Bool) : Word := if t then 1 else 0
  match sOp (opField w) with
  | none => []
  | some op => match op with
    | .add => r (a + b) | .sub => r (a - b) | .and => r (a &&& b) | .or => r (a ||| b) | .xor => r (a ^^^ b)
    | .shl => r (a <<< fld b 4 0) | .shr => r (a >>> fld b 4 0) | .sar => r (a.sshiftRight (fld b 4 0))
    | .mul => r (a * b) | .mulh => r (BitVec.ofInt 32 (a.toInt * b.toInt / 2 ^ 32))
    | .slt => r (one (decide (a.toInt < b.toInt))) | .sltu => r (one (decide (a.toNat < b.toNat)))
    | .min => r (if a.toInt < b.toInt then a else b) | .max => r (if a.toInt < b.toInt then b else a)
    | .addi => r (a + immS w) | .andi => r (a &&& immU w) | .ori => r (a ||| immU w) | .xori => r (a ^^^ immU w)
    | .shli => r (a <<< fld w 4 0) | .shri => r (a >>> fld w 4 0) | .sari => r (a.sshiftRight (fld w 4 0))
    | .li => r (BitVec.ofInt 32 (sext 20 (fld w 19 0))) | .lui => r (BitVec.ofNat 32 (fld w 19 0 * 4096))
    | _ => []

/-- The target of a branch a scalar slot takes (R230). -/
def branchTo (c : Core) (w : Word) : Option Nat :=
  let a := scOf c (fld w 25 20); let b := scOf c (fld w 19 14)
  let t (p : Bool) : Option Nat := if p then some (fld w 12 0) else none
  match sOp (opField w) with
  | some .beq => t (a = b)
  | some .bne => t (a ≠ b)
  | some .blt => t (decide (a.toInt < b.toInt))
  | some .bge => t (decide (b.toInt ≤ a.toInt))
  | some .jmp => t true
  | _ => none

/-! ### Load and store slots (R234) -/

/-- Access size. -/
def lSize (w : Word) : Nat := match lsOp (opField w) with | some .ldv => 128 | some .stv => 128 | _ => 4

/-- The effective address. -/
def lAddr (c : Core) (w : Word) : Nat :=
  let an := scOf c (32 + lAn w)
  (if lImm w then an + BitVec.ofInt 32 (sext 11 (fld w 10 0) * (lSize w : Int)) else an).toNat

/-- Whether the slot's address breaks R210. -/
def lBad (c : Core) (w : Word) : Bool :=
  (lsOp (opField w)).isSome && (decide (0x100000 ≤ lAddr c w) || decide (lAddr c w % lSize w ≠ 0))

/-- Registers written by a load or store slot, given how DMEM reads. -/
def lExec (c : Core) (rd : Nat → Nat → Nat) (w : Word) : List RegW :=
  match lsOp (opField w) with
  | none => []
  | some op =>
    let ea := lAddr c w
    (match op with
     | .lds => [.sc (lRt w) (BitVec.ofNat 32 (rd ea 4))]
     | .ldv => [.vec (lRt w) (BitVec.ofNat 1024 (rd ea 128))]
     | .ldbc => [.vec (lRt w) (ofElems 32 (List.replicate 32 (rd ea 4)))]
     | _ => []) ++
    (if lImm w then [] else [.sc (32 + lAn w) (scOf c (32 + lAn w) + scOf c (48 + lMm w))])

/-- Bytes a slot stores: DMEM offset and byte. -/
def lStores (c : Core) (w : Word) : List (Nat × List Byte) :=
  match lsOp (opField w) with
  | some .sts => [(lAddr c w, leBytes 4 (scOf c (lRt w)).toNat)]
  | some .stv =>
    let bs := elems 8 (vecOf c (lRt w))
    bs.zipIdx.filterMap (fun e => if bitOf (predOf c (lP w)) e.2 then some (lAddr c w + e.2, [BitVec.ofNat 8 e.1]) else none)
  | _ => []

/-! ### Vector slots V0 and V1 (R235, R236) -/

/-- Registers written by a slot V0 or V1. -/
def vExec (c : Core) (w : Word) : List RegW :=
  let t := vType w; let n := tBits t; let L := tLanes t; let sg := vSgn w
  let a := elems n (vecOf c (vA w))
  let b := if vSc w then List.replicate L ((scOf c (vB w)).toNat % 2 ^ n) else elems n (vecOf c (vB w))
  let p := predOf c (vP w)
  let wr (l : List Nat) : List RegW := [.vec (vD w) (masked p n (vecOf c (vD w)) l)]
  let bin (f : Int → Int → Nat) : List RegW := wr (List.zipWith (fun x y => f (elemInt sg n x) (elemInt sg n y)) a b)
  let raw (f : Nat → Nat → Nat) : List RegW := wr (List.zipWith f a b)
  let cmp (f : Int → Int → Bool) : List RegW :=
    [.pred (vD w) (ofPred n ((List.zipWith (fun x y => f (elemInt sg n x) (elemInt sg n y)) a b).zipIdx.map
      (fun e => e.1 && enabled p n e.2)))]
  let sar' (x k : Nat) : Nat := wrapI n (sar (sext n x) (min k n))
  let shr' (x k : Nat) : Nat := if n ≤ k then 0 else x / 2 ^ k
  let shl' (x k : Nat) : Nat := if n ≤ k then 0 else x * 2 ^ k % 2 ^ n
  let pp (f : PredReg → PredReg → PredReg) : List RegW := [.pred (vD w) (f (predOf c (vA w)) (predOf c (vB w)))]
  let wide (half : Nat) : List RegW :=
    [.vec (vD w) (masked p (2 * n) (vecOf c (vD w)) ((List.range (L / 2)).map (fun i =>
      wrapI (2 * n) (elemInt sg n (a.getD (half + i) 0)))))]
  match vOp (opField w) with
  | none => []
  | some op => match op with
    | .vadd => raw (fun x y => (x + y) % 2 ^ n)
    | .vsub => raw (fun x y => (x + 2 ^ n - y) % 2 ^ n)
    | .vadds => bin (fun x y => satElem sg n (x + y))
    | .vsubs => bin (fun x y => satElem sg n (x - y))
    | .vmin => bin (fun x y => wrapI n (if y < x then y else x))
    | .vmax => bin (fun x y => wrapI n (if x < y then y else x))
    | .vabsd => bin (fun x y => min (x - y).natAbs (2 ^ n - 1))
    | .vand => raw (fun x y => x &&& y)
    | .vor => raw (fun x y => x ||| y)
    | .vxor => raw (fun x y => x ^^^ y)
    | .vshl => raw (fun x y => shl' x (y % 32))
    | .vshr => raw (fun x y => shr' x (y % 32))
    | .vsar => raw (fun x y => sar' x (y % 32))
    | .vshli => wr (a.map (fun x => shl' x (vB w)))
    | .vshri => wr (a.map (fun x => shr' x (vB w)))
    | .vsari => wr (a.map (fun x => sar' x (vB w)))
    | .vsel => [.vec (vD w) (ofElems n ((List.zip a b).zipIdx.map (fun e => if enabled p n e.2 then e.1.1 else e.1.2)))]
    | .vbcast => wr (List.replicate L ((scOf c (vA w)).toNat % 2 ^ n))
    | .vnrw =>
      let s := fld w 4 0
      let one (x : Nat) : Nat := satElem sg (n / 2) (if sg then sar (sext n x) s else ((x / 2 ^ s : Nat) : Int))
      [.vec (vD w) (ofElems (n / 2) (a.map one ++ (elems n (vecOf c (vB w))).map one))]
    | .vwidl => wide 0
    | .vwidh => wide (L / 2)
    | .vcmpeq => cmp (fun x y => x = y)
    | .vcmplt => cmp (fun x y => decide (x < y))
    | .vcmple => cmp (fun x y => decide (x ≤ y))
    | .pand => pp (fun x y => x &&& y)
    | .por => pp (fun x y => x ||| y)
    | .pxor => pp (fun x y => x ^^^ y)
    | .pandn => pp (fun x y => x &&& ~~~ y)
    | .vmov => wr a

/-! ### Slot V2 (R237 to R239) -/

/-- The best enabled element by a strict order, with its lane. -/
def bestOf (l : List (Int × Nat)) (better : Int × Nat → Int × Nat → Bool) : Option (Int × Nat) :=
  l.foldl (fun b e => match b with | none => some e | some x => if better e x then some e else some x) none

/-- Registers written by slot V2. -/
def pExec (c : Core) (w : Word) : List RegW :=
  let t := vType w; let n := tBits t; let L := tLanes t; let sg := vSgn w; let last := vSc w
  let va := vecOf c (vA w); let p := predOf c (vP w)
  let a := elems n va
  let pair := elems n va ++ elems n (vecOf c (vA w + 1))
  let out (v : Int) : List RegW := [.sc (vD w) (BitVec.ofInt 32 v)]
  let on := (a.zipIdx.filter (fun e => enabled p n e.2)).map (fun e => elemInt sg n e.1)
  let hi : Int := if sg then 2 ^ (n - 1) - 1 else 2 ^ n - 1
  let lo : Int := if sg then -(2 ^ (n - 1)) else 0
  let run (better : Int → Int → Bool) : List RegW :=
    let old := elems n (vecOf c (vD w)); let idx := elems n (vecOf c (vD w + 1))
    let take := (List.range L).map (fun i => enabled p n i && better (elemInt sg n (a.getD i 0)) (elemInt sg n (old.getD i 0)))
    let index := (scOf c (vB w)).toNat % 2 ^ n
    [.vec (vD w) (ofElems n ((List.range L).map (fun i => if take.getD i false then a.getD i 0 else old.getD i 0))),
     .vec (vD w + 1) (ofElems n ((List.range L).map (fun i => if take.getD i false then index else idx.getD i 0)))]
  let reduce (gt : Int → Int → Bool) (none' : Int) : List RegW :=
    let idx := elems n (vecOf c (vA w + 1))
    let l := (a.zipIdx.filter (fun e => enabled p n e.2)).map (fun e => (elemInt sg n e.1, (idx.getD e.2 0 * L + e.2) % 2 ^ 32))
    let better (e x : Int × Nat) : Bool := gt e.1 x.1 || (decide (e.1 = x.1) && (if last then decide (x.2 < e.2) else decide (e.2 < x.2)))
    match bestOf l better with
    | some b => [.sc (vD w) (BitVec.ofInt 32 b.1), .sc (vD w + 1) (BitVec.ofNat 32 b.2)]
    | none => [.sc (vD w) (BitVec.ofInt 32 none'), .sc (vD w + 1) 0xFFFFFFFF]
  match pOp (opField w) with
  | none => []
  | some op => match op with
    | .vperm =>
      let b := elems n (vecOf c (vB w))
      [.vec (vD w) (masked p n (vecOf c (vD w)) (b.map (fun k => pair.getD (k % (2 * L)) 0)))]
    | .vslide =>
      let s := a ++ elems n (vecOf c (vB w))
      [.vec (vD w) (ofElems n ((s.drop (fld w 5 0)).take L))]
    | .vzip =>
      let z := (List.zip a (elems n (vecOf c (vB w)))).flatMap (fun e => [e.1, e.2])
      [.vec (vD w) (ofElems n (z.take L)), .vec (vD w + 1) (ofElems n (z.drop L))]
    | .vuzp =>
      [.vec (vD w) (ofElems n ((List.range L).map (fun i => pair.getD (2 * i) 0))),
       .vec (vD w + 1) (ofElems n ((List.range L).map (fun i => pair.getD (2 * i + 1) 0)))]
    | .vext => out (elemInt sg n (a.getD ((scOf c (vB w)).toNat % L) 0))
    | .vins =>
      let k := (scOf c (vB w)).toNat % L
      [.vec (vD w) (ofElems n ((elems n (vecOf c (vD w))).zipIdx.map (fun e =>
        if e.2 = k then (scOf c (vA w)).toNat % 2 ^ n else e.1)))]
    | .vredadd => out (on.foldl (· + ·) 0)
    | .vredmin => out (on.foldl (fun x y => if y < x then y else x) hi)
    | .vredmax => out (on.foldl (fun x y => if x < y then y else x) lo)
    | .vmaxi => run (fun x y => if last then decide (y ≤ x) else decide (y < x))
    | .vmini => run (fun x y => if last then decide (x ≤ y) else decide (x < y))
    | .vmaxr => reduce (fun x y => decide (y < x)) lo
    | .vminr => reduce (fun x y => decide (x < y)) hi
    | .ptov => [.vec (vD w) (ofElems n ((List.range L).map (fun i => if enabled (predOf c (vA w)) n i then 2 ^ n - 1 else 0)))]
    | .vtop => [.pred (vD w) (ofPred n (a.map (fun v => decide (v ≠ 0))))]
    | .pcnt => out (((List.range L).filter (enabled (predOf c (vA w)) n)).length : Nat)

/-! ### Slot X (R241 to R245) -/

/-- The sum of a multiply operation for each lane. -/
def xSums (c : Core) (w : Word) : List Int :=
  let n := if xWide w then 16 else 8
  let ia (v : Nat) : Int := elemInt (xSa w) n v
  let ib (v : Nat) : Int := elemInt (xSb w) n v
  let ra := elems n (vecOf c (xA w)); let pa := ra ++ elems n (vecOf c (xA w + 1))
  let rb := elems n (vecOf c (xB w)); let pb := rb ++ elems n (vecOf c (xB w + 1))
  let sum (k : Nat) (f : Nat → Int) : Int := (List.range k).foldl (fun acc i => acc + f i) 0
  match xOp (opField w) with
  | some .xfir =>
    let st := if xStep w then 2 else 1
    let k := if xWide w then 16 else 64
    (List.range 64).map (fun j => sum k (fun i => ia (pa.getD (j + st * i) 0) * ib (rb.getD (k * xC0 w + i) 0)))
  | some .xmat =>
    let k := if xWide w then 16 else 32
    (List.range 64).map (fun j => sum k (fun i => ia (pa.getD (k * (j / 8) + i) 0) * ib (pb.getD (8 * i + j % 8) 0)))
  | some .xmul =>
    if xWide w then (List.range 64).map (fun j => ia (ra.getD j 0) * ib (rb.getD j 0))
    else (List.range 64).map (fun j => ia (ra.getD (2 * j) 0) * ib (rb.getD (2 * j) 0) + ia (ra.getD (2 * j + 1) 0) * ib (rb.getD (2 * j + 1) 0))
  | some .xmuls =>
    let b := ib ((scOf c (xB w)).toNat % 2 ^ n)
    if xWide w then (List.range 64).map (fun j => ia (ra.getD j 0) * b)
    else (List.range 64).map (fun j => ia (ra.getD (2 * j) 0) * b + ia (ra.getD (2 * j + 1) 0) * b)
  | some .xwr =>
    if xWide w then (List.range 64).map (fun j => elemInt (xSa w) 16 (ra.getD j 0))
    else
      let e := elems 32 (vecOf c (xA w)) ++ elems 32 (vecOf c (xA w + 1))
      (List.range 64).map (fun j => elemInt (xSa w) 32 (e.getD j 0))
  | _ => List.replicate 64 0

/-- Whether an operation sets the lanes instead of adding into them. -/
def xSets (w : Word) : Bool :=
  xClr w || (match xOp (opField w) with | some .xwr => true | some .xclr => true | _ => false)

/-- Registers written by slot X, and whether an addition saturated (R244). -/
def xExec (c : Core) (w : Word) : List RegW × Bool :=
  match xOp (opField w) with
  | none => ([], false)
  | some .xrd =>
    let n := tBits (fld w 10 9); let half := if bitOf w 6 then 1 else 0
    let lane (j : Nat) : Nat :=
      let t := sar (accOf c (xAcc w) j).toInt (xB w)
      if bitOf w 8 then satElem (bitOf w 7) n t else wrapI n t
    let v : VecReg :=
      if n = 16 then ofElems 16 ((List.range 64).map lane)
      else if n = 8 then
        let old := elems 8 (vecOf c (xA w)); let r := (List.range 64).map lane
        ofElems 8 (if half = 0 then r ++ old.drop 64 else old.take 64 ++ r)
      else ofElems 32 ((List.range 32).map (fun j => lane (32 * half + j)))
    ([.vec (xA w) v], false)
  | some _ =>
    let sums := xSums c w
    let res := sums.zipIdx.map (fun e =>
      let v := if xSets w then e.1 else (accOf c (xAcc w) e.2).toInt + e.1
      (satS 48 v, decide (satS 48 v ≠ v) && !xSets w))
    ([.acc (xAcc w) (res.map (fun r => BitVec.ofInt 48 r.1))], res.any (fun r => r.2))

end Sys2Proof.Machine
end

