-- ==== Sys2Proof/Machine/Intake.lean ====
section
/-!
DEFINITION. Sys2Proof/Machine/Intake.lean: the sixteen camera intake ports (R38 to R53, R61, R62): packets, line memory,
frames, malformed and late data, triggers.
-/
namespace Sys2Proof.Machine

/-- Frame result flags (R106). -/
def flSHORTLINE : Nat := 1
def flLONGLINE : Nat := 2
def flSHORTFRAME : Nat := 4
def flLONGFRAME : Nat := 8
def flLATE : Nat := 16
def flCRC : Nat := 32
def flECC : Nat := 64
def flOVERRUN : Nat := 128
def flDROPPED : Nat := 256
def flSHIFTED : Nat := 512
def flPREDICTED : Nat := 1024
def flDEADLINE : Nat := 2048
def flREMAPPED : Nat := 4096

/-- Bits of a sample of an image data type (R38), none for any other type. -/
def dtBits (dt : Nat) : Option Nat :=
  if dt = 0x2A then some 8 else if dt = 0x2B then some 10 else if dt = 0x2C then some 12
  else if dt = 0x2D then some 14 else if dt = 0x2E then some 16 else none

/-- Whether a port receives: enabled, lanes 1 to 4, endpoint not held in reset (R62). -/
def portOpen (s : State) (p : Nat) : Bool :=
  decide (p < gradePorts s) && wbit s (intakeBase p) 0 && decide (1 ≤ wfld s (intakeBase p + 8) 2 0) &&
    decide (wfld s (intakeBase p + 8) 2 0 ≤ 4) && !heldInReset s (.port p)

/-- The routing entries of a port that are used (R39, R62): valid, kind not reserved. -/
def vcEntries (s : State) (p : Nat) : List Word :=
  ((List.range 16).map (fun k => word s (intakeBase p + 0x40 + 4 * k))).filter (fun e => bitOf e 0 && fld e 12 11 ≠ 3)

/-- The bank of a port that serves a stream (R62). -/
def bankFor (s : State) (p stream : Nat) : Option Nat :=
  findBelow (fun k => bitOf (inWord s p k 0x34) 7 && fld (inWord s p k 0x34) 4 0 = stream) 16

/-- Streams of a port with an image entry on a virtual channel. -/
def vcStreams (s : State) (p vc : Nat) : List Nat :=
  (((vcEntries s p).filter (fun e => fld e 4 1 = vc && fld e 12 11 = 0)).map (fun e => fld e 19 15)).eraseDups

/-- The virtual channels that carry a stream's exposures. -/
def streamVcs (s : State) (p stream : Nat) : List Nat :=
  (((vcEntries s p).filter (fun e => fld e 19 15 = stream && fld e 12 11 = 0)).map (fun e => fld e 4 1)).eraseDups

/-- The virtual channel of a stream's exposure 0: the one whose frame start opens the frame (DEDUCED, log 10). -/
def firstVc (s : State) (p stream : Nat) : Nat :=
  match (vcEntries s p).find? (fun e => fld e 19 15 = stream && fld e 12 11 = 0 && fld e 14 13 = 0) with
  | some e => fld e 4 1
  | none => 16

/-- Banked frame shape: width, height, exposures (R62). -/
def bankWidth (s : State) (p k : Nat) : Nat := inFld s p k 0x10 13 0
def bankHeight (s : State) (p k : Nat) : Nat := inFld s p k 0x10 29 16
def bankExps (s : State) (p k : Nat) : Nat := inFld s p k 0x10 31 30
def bankRows (s : State) (p k : Nat) : Nat := inFld s p k 0 19 12
def bankStream (s : State) (p k : Nat) : Nat := inFld s p k 0x34 4 0

/-- The stamp of an event of a port in this tick (R45). -/
def stamp (s : State) (p : Nat) : Nat := s.clk.now - wfld s (intakeBase p + 0x28) 15 0

/-- Capacity of a port's line memory. -/
def lineMemory : Nat := 786432

/-- A discarded packet counted (R47). -/
def headerBad (s : State) (p : Nat) : State :=
  setWbit (bump s (intakeBase p + 0x108)) (intakeBase p + 4) 4 true

/-- Flags set in the frame a bank is receiving. -/
def markFrame (s : State) (p k fl : Nat) : State :=
  match (bankOf s p k).frame with
  | some f => updFrameIn s (bankStream s p k) f.seq (orFlags fl)
  | none => s

/-! ### Closing a frame -/

/-- The bit depth of an exposure of a stream: that of the data type its entry names, or the stream's only entry; 16 where the port
routes none. -/
def streamBits (s : State) (p stream e : Nat) : Nat :=
  let l := (vcEntries s p).filter (fun w => fld w 19 15 = stream && fld w 12 11 = 0)
  match (match l.find? (fun w => fld w 14 13 = e) with | some w => some w | none => l.head?) with
  | some w => (dtBits (fld w 10 5)).getD 16
  | none => 16

/-- Rows of pad value that complete every exposure of a frame (R47, R50), stamped with the closing. -/
def padLines (s : State) (p k : Nat) (f : InFrame) : List Line :=
  (List.range (bankExps s p k)).flatMap (fun e =>
    (List.range (bankHeight s p k - f.placed.getD e 0)).map (fun i =>
      { bank := k, frame := f.seq, exposure := e, row := f.placed.getD e 0 + i,
        bits := streamBits s p (bankStream s p k) e, stamp := stamp s p,
        flags := 0, padded := true, samples := List.replicate (bankWidth s p k) (inFld s p k 0x14 15 0) }))

/-- The settings-set identifier in effect for a frame by the write schedule (R57, R60); 0 before any set is (DESIGN CHOICE, log 68). -/
def scheduledIdent (x : Stream) (seq : Nat) : Nat :=
  match (x.setsDone.filter (fun e => e.1 ≤ seq)).getLast? with
  | some e => e.2
  | none => 0

/-- Identifier and flags of a frame when it closes (R60): the echoed tag, or the schedule with STATS_PREDICTED, also where a profile
declares a tag and no echo has come (DESIGN CHOICE, log 68). -/
def identify (s : State) (p k : Nat) (f : InFrame) : State :=
  match streamOf s (bankStream s p k) with
  | none => s
  | some x =>
    let sched := scheduledIdent x f.seq
    match f.tag with
    | some t =>
      let s1 := if t = sched then s else bump s (intakeBase p + 0x114)
      updFrameIn s1 (bankStream s p k) f.seq (fun r => { r with ident := t })
    | none =>
      updFrameIn s (bankStream s p k) f.seq (fun r => orFlags flPREDICTED { r with ident := sched })

/-- A frame closed at this moment (R47): missing rows padded, SHORT_FRAME when any were. -/
def closeFrame (s : State) (p k : Nat) : State :=
  match (bankOf s p k).frame with
  | none => s
  | some f =>
    let pads := padLines s p k f
    let s1 := identify s p k f
    let s2 := updFrameIn s1 (bankStream s p k) f.seq (fun r =>
      let r1 := { r with close := some (stamp s p), padRows := r.padRows + pads.length,
                         stamps := pads.foldl (fun t l => if l.row % 8 = 0 ∧ l.exposure = 0 ∧ tget 0 t (l.row / 8) = 0
                                                          then tset 0 t (l.row / 8) l.stamp else t) r.stamps }
      if pads = [] then r1 else orFlags flSHORTFRAME r1)
    let b := bankOf s2 p k
    setBank s2 p k { b with frame := none, lines := b.lines ++ pads }

/-- A frame closed without its frame end (R47). -/
def closeMissingEnd (s : State) (p k : Nat) : State := bump (closeFrame s p k) (intakeBase p + 0x110)

/-! ### Parameter latch of the Plate stage (R83) -/

/-- The words of the per-stream Plate registers as the shadow holds them. -/
def plShadow (s : State) (n : Nat) : Tbl Word :=
  (s.regs.filter (fun e => decide (plReg n 0 ≤ e.1) && decide (e.1 < plReg n 0x100))).map (fun e => (e.1 - plReg n 0, e.2))

def clShadow (s : State) (n : Nat) : Tbl Word :=
  (s.regs.filter (fun e => decide (clReg n 0 ≤ e.1) && decide (e.1 < clReg n 0x100))).map (fun e => (e.1 - clReg n 0, e.2))

/-- Whether a Plate copy holds a reserved value (R88). -/
def plBad (t : Tbl Word) : Bool :=
  let cfg := plWord t 0; let sh := plWord t 0x48; let st := plWord t 0x50
  decide (4 < fld cfg 3 1) || decide (8 < fld cfg 15 12) || decide (4 < fld sh 6 4) || decide (4 < fld sh 9 7) ||
    decide (fld st 9 4 = 0) || decide (32 < fld st 9 4) || decide (fld st 15 10 = 0) || decide (32 < fld st 15 10)

/-- Whether a colour copy holds a reserved value (R88). -/
def clBad (t : Tbl Word) : Bool :=
  let cfg := clWord t 0
  decide (3 < fld cfg 6 4) || decide (fld cfg 10 9 = 3) || (decide (fld cfg 8 7 = 3) && decide (fld cfg 6 4 < 2))

/-- Whether a copy is due at a frame: one for the next frame always, one that names a frame from it on, numbers being of 32 bits (R83). -/
def copyDueAt (atFrame : Bool) (target seq : Nat) : Bool := !atFrame || decide ((seq + 2 ^ 32 - target) % 2 ^ 32 < 2 ^ 31)

/-- What a frame start latches of a pending copy (R83): the words, and what stays pending. A copy committed in this event tick waits for the
following frame; the one it replaced in this tick is latched when it is due. -/
def copyLatch (c : PendCopy) (now seq : Nat) : Option (Tbl Word) × Option PendCopy :=
  if c.tick = now then
    match c.older with
    | some o => if copyDueAt o.2.1 o.2.2 seq then (some o.1, some { c with older := none }) else (none, some c)
    | none => (none, some c)
  else if copyDueAt c.atFrame c.target seq then (some c.words, none) else (none, some c)

/-- The pending Plate copy latched at the start of a frame, or flagged cfg_bad (R83). -/
def latchPlate (s : State) (n seq : Nat) : State :=
  match tget none s.plPend n with
  | some c =>
    let r := copyLatch c s.clk.up seq
    let s1 := { s with plPend := tset none s.plPend n r.2 }
    match r.1 with
    | some w => if plBad w then setWbit s1 (plReg n 8) 1 true else { s1 with plLatch := tset [] s1.plLatch n w }
    | none => s1
  | none => s

/-! ### Opening a frame -/

/-- The oldest trigger of a bank that no frame has answered (R50): its time and sequence number. -/
def oldestTrigger (b : Bank) : Option (Nat × Nat) := b.trigs.head?

/-- Whether a frame start at a stamp misses its expected window (R49). -/
def outsideWindow (s : State) (p k now t : Nat) : Bool :=
  decide (now + inFld s p k 0x20 15 0 * 1000 < t) || decide (t + inFld s p k 0x20 15 0 * 1000 < now)

/-- The drain bit of a stream's tiles made that of its Stroke (R113: a change takes effect at a frame start). -/
def drainChange (s : State) (n : Nat) : State :=
  match streamOf s n with
  | some x => forAll (x.strings.flatMap (fun g => g.tiles)) (fun s t => setWbit s (gtReg t 0) 2 x.drain) s
  | none => s

/-- A frame opened in a bank with its sequence number and flags; the Plate parameters are latched (R45, R49, R50, R83). -/
def openFrame (s : State) (p k seq csi st fl : Nat) (first : Nat) : State :=
  let n := bankStream s p k
  let b := bankOf s p k
  let s1 := setBank s p k { b with
    first := false, nextSeq := first, lastSeq := seq, lastStart := st,
    frame := some { seq := seq, csiNo := csi, start := st, flags := fl, placed := [], interleave := 0, baseLine := none,
                    padRows := 0, tag := none } }
  let s2 := latchPlate s1 n seq
  drainChange (updStream s2 n (fun x =>
    let sh := if x.sets.any (fun j => j.shifted && j.target = seq) then flSHIFTED else 0
    { x with framesBegun := x.framesBegun + 1,
             drain := match x.drainNext with | some d => d | none => x.drain,
             drainNext := if x.drainNext = some true then some (launchDrain x) else none,
             frames := x.frames ++ [{ seq := seq, csiNo := csi, start := st, flags := fl ||| sh,
                                      plate := tget [] s2.plLatch n }] })) n

/-- The frame sequence number after one (R50): 32 bits. -/
def seqAfter (q : Nat) : Nat := (q + 1) % 2 ^ 32

/-- A frame start of a stream's bank (R45 to R50): a frame still open is closed first; in triggered mode the frame answers
the oldest trigger, otherwise it takes the next sequence number. In triggered mode with no trigger outstanding it takes the next number
too, and lies outside every expected window (DESIGN CHOICE, log 68). -/
def startFrame (s : State) (p k csi fl : Nat) : State :=
  let s0 := if (bankOf s p k).frame.isSome then closeMissingEnd s p k else s
  let b := bankOf s0 p k
  let st := stamp s0 p
  let period := (inWord s0 p k 0x1C).toNat
  if bitOf (inWord s0 p k 0) 1 then
    match oldestTrigger b with
    | some (t, q) =>
      let late := if outsideWindow s0 p k st (t + period) then flLATE else 0
      openFrame (setBank s0 p k { b with trigs := b.trigs.tail }) p k q csi st (fl ||| late) b.nextSeq
    | none => openFrame s0 p k b.nextSeq csi st (fl ||| flLATE) (seqAfter b.nextSeq)
  else
    let late := if !b.first && outsideWindow s0 p k st (b.lastStart + period) then flLATE else 0
    openFrame s0 p k b.nextSeq csi st (fl ||| late) (seqAfter b.nextSeq)

/-- Whether a bank takes frame starts and triggers: armed, and by a Stroke that did not launch in this event tick, since both come before a
launch (R93, R310). -/
def bankTakes (s : State) (p k : Nat) : Bool :=
  (bankOf s p k).armed && (match streamOf s (bankStream s p k) with | some x => decide (x.start ≠ s.clk.now) | none => true)

/-- Banks of a port that take frames for a stream list. -/
def armedBanks (s : State) (p : Nat) (streams : List Nat) : List Nat :=
  streams.filterMap (fun n => match bankFor s p n with
    | some k => if bankTakes s p k && decide (bankExps s p k ≠ 0) then some k else none
    | none => none)

/-- ECC_CORRECTED as a frame flag (R47). -/
def eccFlag (ecc : HdrEcc) : Nat := if ecc = .corrected then flECC else 0

/-- The frame end of a virtual channel for a bank (R45 to R48): the frame closes once every channel of the stream has ended (DEDUCED,
log 10). -/
def endFrame (s : State) (port vc k : Nat) (ecc : HdrEcc) : State :=
  match (bankOf s port k).frame with
  | none => s
  | some f =>
    let s1 := markFrame s port k (eccFlag ecc)
    let ended := (vc :: f.ended).eraseDups
    let s2 := setBank s1 port k { bankOf s1 port k with frame := some { f with ended := ended } }
    if (streamVcs s port (bankStream s port k)).all (fun v => decide (v ∈ ended)) then closeFrame s2 port k else s2

/-- Whether a command queued in this event tick resets a port or the device (R51): what waits in the queue falls in the same tick, for
the tick ends when the queue is empty (log 7). -/
def portResetDue (s : State) (port : Nat) : Bool :=
  s.pending.any (fun c => match c with
    | .domainReset (.port p) => decide (p = port)
    | .resetNAssert => true
    | .powerCut => true
    | _ => false)

/-- The frame ends of a bank's channels that are queued in this event tick behind the command in work (R46). -/
def endsDue (s : State) (port k : Nat) : List (Nat × HdrEcc) :=
  let vcs := streamVcs s port (bankStream s port k)
  s.pending.filterMap (fun c => match c with
    | .csiFrameEnd p v e =>
      if p = port ∧ e ≠ .uncorrectable ∧ v ∈ vcs ∧ (port, v, k) ∉ s.endsTaken then some (v, e) else none
    | _ => none)

/-- The frame ends of this event tick processed before a frame start of the same stream (R46), unless a reset of the tick takes
precedence (R51). -/
def endsFirst (s : State) (port k : Nat) : State :=
  if portResetDue s port then s
  else forAll (endsDue s port k) (fun s e =>
    endFrame { s with endsTaken := s.endsTaken ++ [(port, e.1, k)] } port e.1 k e.2) s

/-- CSI_FRAME_START (R45, R46, R49, R50, R83). -/
def execCsiFrameStart (port vc frameNo : Nat) (ecc : HdrEcc) (s : State) : Out :=
  if !portOpen s port then .next s
  else match ecc with
    | .uncorrectable => .next (headerBad s port)
    | _ =>
      let ns := (vcStreams s port vc).filter (fun n => firstVc s port n = vc)
      .next (forAll (armedBanks s port ns) (fun s k =>
        startFrame (endsFirst s port k) port k (frameNo % 65536) (eccFlag ecc)) s)

/-- The last line start's number of a virtual channel in a frame. -/
def lineNoOf (f : InFrame) (vc : Nat) : Option Nat := (f.lineNo.find? (fun e => e.1 = vc)).map (fun e => e.2)

/-- CSI_LINE_START (R48): with line_numbers the row of the next packets of every stream on the channel. -/
def execCsiLineStart (port vc line : Nat) (ecc : HdrEcc) (s : State) : Out :=
  if !portOpen s port then .next s
  else match ecc with
    | .uncorrectable => .next (headerBad s port)
    | _ =>
      .next (forAll (armedBanks s port (vcStreams s port vc)) (fun s k =>
        let b := bankOf s port k
        match b.frame with
        | some f =>
          let s1 := markFrame s port k (eccFlag ecc)
          if bitOf (inWord s port k 0) 2 then
            setBank s1 port k { b with frame := some { f with
              lineNo := f.lineNo.filter (fun e => e.1 ≠ vc) ++ [(vc, line % 65536)]
              interleave := if lineNoOf f vc = some (line % 65536) then f.interleave else 0,
              baseLine := match f.baseLine with | some x => some x | none => some (line % 65536) } }
          else s1
        | none => s) s)

/-! ### Lines -/

/-- Intake stripes that need a row (R43): its own stripe and those whose 4-row window reaches it. -/
def stripesNeeding (rows height r : Nat) : List Nat :=
  (List.range (ceilDiv height rows)).filter (fun j => decide (j * rows ≤ r + 4) && decide (r < j * rows + rows + 4))

/-- Whether a row is needed by a stripe that is not dropped. -/
def rowNeeded (rows height : Nat) (dropped : List Nat) (r : Nat) : Bool :=
  (stripesNeeding rows height r).any (fun j => decide (j ∉ dropped))

/-- A line that does not fit (R44): counted, its stripes dropped, the frame OVERRUN; lines no other stripe needs freed. -/
def dropLine (s : State) (p k seq row : Nat) : State :=
  let rows := bankRows s p k; let h := bankHeight s p k; let n := bankStream s p k
  let s1 := setWbit (bump s (intakeBase p + 0x104)) (intakeBase p + 4) 2 true
  let s2 := updFrameIn s1 n seq (fun f => orFlags (flOVERRUN ||| flDROPPED)
    { f with droppedStripes := (f.droppedStripes ++ stripesNeeding rows h row).eraseDups })
  let dropped := match streamOf s2 n with
    | some x => (match frameOf x seq with | some f => f.droppedStripes | none => [])
    | none => []
  let b := bankOf s2 p k
  setBank s2 p k { b with lines := b.lines.filter (fun l => decide (l.frame ≠ seq) || rowNeeded rows h dropped l.row) }

/-- A line stored, or dropped for want of space (R42, R44). -/
def storeLine (s : State) (p k : Nat) (l : Line) : State :=
  if lineMemory < lmLevel s p + lineCost l then dropLine s p k l.frame l.row
  else
    let s1 := if l.row % 8 = 0 ∧ l.exposure = 0 then
        updFrameIn s (bankStream s p k) l.frame (fun f => { f with stamps := tset 0 f.stamps (l.row / 8) l.stamp })
      else s
    let b := bankOf s1 p k
    setBank s1 p k { b with lines := b.lines ++ [l] }

/-- The samples of a line at the configured width (R47): short lines padded, long ones cut. -/
def fitLine (width pad : Nat) (samples : List Nat) : List Nat :=
  samples.take width ++ List.replicate (width - samples.length) pad

/-- Line flags of a payload (R47). -/
def lineFlags (width n : Nat) (crcOk : Bool) : Nat :=
  (if n < width then flSHORTLINE else 0) ||| (if width < n then flLONGLINE else 0) ||| (if crcOk then 0 else flCRC)

/-- The row a packet of an exposure takes (R48): by arrival, or at its line number less the frame's first. With line numbers but no line
start of the packet's channel yet, it is placed by arrival (DESIGN CHOICE, log 68). -/
def placeRow (s : State) (p k : Nat) (f : InFrame) (vc e : Nat) : Nat :=
  match bitOf (inWord s p k 0) 2, lineNoOf f vc, f.baseLine with
  | true, some l, some b => (l + 65536 - b) % 65536
  | _, _, _ => f.placed.getD e 0

/-- A list with position i set, zeros added in front of it. -/
def setAt (l : List Nat) (i v : Nat) : List Nat := (l ++ List.replicate (i + 1 - l.length) 0).set i v

/-- The exposure of an image packet (R41): the routing entry's, or with one entry for several exposures the next in line order. -/
def lineExp (s : State) (p k : Nat) (f : InFrame) (exp : Nat) : Nat :=
  let single := decide ((streamVcs s p (bankStream s p k)).length = 1) &&
    decide (((vcEntries s p).filter (fun e => fld e 19 15 = bankStream s p k && fld e 12 11 = 0)).length = 1)
  if single && decide (1 < bankExps s p k) then f.interleave % bankExps s p k else exp

/-- An image packet of a stream's bank as exposure `exp` (R41, R42, R47, R48). -/
def imageLine (s : State) (p k exp bits : Nat) (pk : LongPacket) : State :=
  match (bankOf s p k).frame with
  | none => s
  | some f =>
    let w := bankWidth s p k; let h := bankHeight s p k
    let e := lineExp s p k f exp
    let row := placeRow s p k f pk.vc e
    let done := f.placed.getD e 0
    let s1 := markFrame s p k (eccFlag pk.ecc ||| (if pk.crcOk then 0 else flCRC))
    let b := bankOf s1 p k
    let f1 := { f with interleave := f.interleave + 1 }
    if h ≤ row ∨ row < done then
      markFrame (setBank s1 p k { b with frame := some f1 }) p k flLONGFRAME
    else
      let st := stamp s p
      let skipped := (List.range (row - done)).map (fun i =>
        ({ bank := k, frame := f.seq, exposure := e, row := done + i, bits := bits, stamp := st, flags := 0,
           padded := true, samples := List.replicate w (inFld s p k 0x14 15 0) } : Line))
      let s2 := setBank s1 p k { b with frame := some { f1 with placed := setAt f.placed e (row + 1) } }
      let s3 := skipped.foldl (fun s l => storeLine s p k l) s2
      let s4 := if skipped = [] then s3 else
        updFrameIn (markFrame s3 p k flSHORTFRAME) (bankStream s p k) f.seq
          (fun r => { r with padRows := r.padRows + skipped.length })
      let fl := lineFlags w pk.samples.length pk.crcOk
      storeLine (markFrame s4 p k fl) p k
        { bank := k, frame := f.seq, exposure := e, row := row, bits := bits, stamp := st, flags := fl, padded := false,
          samples := fitLine w (inFld s p k 0x14 15 0) pk.samples }

/-- The echo of a frame tag in a frame's embedded data, once enough of it has come (R54, R60): low byte first (DESIGN CHOICE, log 68). -/
def tagEcho (tag : Option (Nat × Nat)) (emb : List Nat) : Option Nat :=
  match tag with
  | some (_, off) => if off + 2 ≤ emb.length then some (emb.getD off 0 % 256 + emb.getD (off + 1) 0 % 256 * 256) else none
  | none => none

/-- An embedded-data packet (R54, R60): one of the lines the profile declares; their payloads, in order of arrival, are the embedded data in
which the frame tag is echoed. -/
def embeddedLine (s : State) (p k : Nat) (pk : LongPacket) : State :=
  match (bankOf s p k).frame, streamOf s (bankStream s p k) with
  | some f, some x =>
    let s1 := markFrame s p k (eccFlag pk.ecc ||| (if pk.crcOk then 0 else flCRC))
    if f.embN < x.profile.embLines.length then
      let emb := f.emb ++ pk.samples
      setBank s1 p k { bankOf s1 p k with frame := some { f with emb := emb, embN := f.embN + 1, tag := tagEcho x.profile.frameTag emb } }
    else s1
  | _, _ => s

/-- CSI_LONG_PACKET (R38, R39, R41, R42, R44, R47, R48). A packet of a type that R38 does not accept for the kind of its entry is discarded
and counted in `IN_CNT_UNMAPPED`, the port's only counter of discarded packets (DESIGN CHOICE, log 68). -/
def execCsiLongPacket (pk : LongPacket) (s : State) : Out :=
  let p := pk.port
  if !portOpen s p then .next s
  else match pk.ecc with
    | .uncorrectable => .next (headerBad s p)
    | _ =>
      let s1 := if pk.crcOk then s else setWbit (bump s (intakeBase p + 0x10C)) (intakeBase p + 4) 3 true
      match (vcEntries s1 p).find? (fun e => fld e 4 1 = pk.vc && fld e 10 5 = pk.dt) with
      | none => .next (bump s1 (intakeBase p + 0x100))
      | some e =>
        match armedBanks s1 p [fld e 19 15] with
        | [] => .next s1
        | k :: _ =>
          if fld e 12 11 = 0 then
            match dtBits pk.dt with
            | some bits =>
              let n := fld e 19 15
              let s2 := noteUse s1 (26 + p / 4) (1072 + n) ((streamOf s1 n).map (fun x => x.ctx)) pk.samples.length
              .next (imageLine s2 p k (fld e 14 13) bits pk)
            | none => .next (bump s1 (intakeBase p + 0x100))
          else if fld e 12 11 = 1 then
            .next (if pk.dt = 0x12 then embeddedLine s1 p k pk else bump s1 (intakeBase p + 0x100))
          else .next s1

/-- CSI_FRAME_END (R45 to R48, R51): not processed where a reset of the same event tick takes precedence, nor again where it took effect
before a frame start of the tick (R46). -/
def execCsiFrameEnd (port vc : Nat) (ecc : HdrEcc) (s : State) : Out :=
  if !portOpen s port then .next s
  else match ecc with
    | .uncorrectable => .next (headerBad s port)
    | _ =>
      if portResetDue s port then .next s
      else .next (forAll (armedBanks s port (vcStreams s port vc)) (fun s k =>
        if (port, vc, k) ∈ s.endsTaken then { s with endsTaken := s.endsTaken.erase (port, vc, k) }
        else endFrame s port vc k ecc) s)

/-- FRAME_TIMEOUT (R47): no frame end within the frame timeout after the frame start. -/
def execFrameTimeout (port bank : Nat) (s : State) : Out :=
  match (bankOf s port bank).frame with
  | some f =>
    if portOpen s port && decide (f.start + inFld s port bank 0x18 23 0 * 1000 ≤ stamp s port) then
      .next (closeMissingEnd s port bank)
    else .next s
  | none => .next s

/-- TRIGGER_FRAME_MISSING (R50): no frame start came within the window of the oldest trigger; the frame is delivered as
rows of the pad value with LATE_FRAME and SHORT_FRAME. -/
def execTriggerFrameMissing (port bank : Nat) (s : State) : Out :=
  let b := bankOf s port bank
  match oldestTrigger b with
  | some (t, q) =>
    if portOpen s port && b.armed && bitOf (inWord s port bank 0) 1 && b.frame.isNone &&
        decide (t + (inWord s port bank 0x1C).toNat + inFld s port bank 0x20 15 0 * 1000 < stamp s port) then
      let s1 := setBank s port bank { b with trigs := b.trigs.tail }
      .next (closeFrame (openFrame s1 port bank q 0 (stamp s port) (flLATE ||| flSHORTFRAME) b.nextSeq) port bank)
    else .next s
  | none => .next s

/-! ### Trigger pins (R50, R61) -/

/-- A trigger on a pin at a time (R50): every armed triggered bank whose trig_pin names it takes the next number. -/
def pinTrigger (s : State) (pin t : Nat) : State :=
  forAll (List.range 256) (fun s i =>
    let p := i / 16; let k := i % 16; let b := bankOf s p k
    if bankTakes s p k && bitOf (inWord s p k 0x34) 7 && bitOf (inWord s p k 0) 1 && decide (inFld s p k 0 11 8 = pin) &&
        portOpen s p then
      setBank s p k { b with trigs := b.trigs ++ [(t, b.nextSeq)], nextSeq := seqAfter b.nextSeq }
    else s) s

/-- EXTERNAL_TRIGGER (R61): an active edge sampled on a pin in input mode. -/
def execExternalTrigger (pin : Nat) (s : State) : Out :=
  if decide (pin < 16) && decide (wfld s (intakeBase pin + 0x200) 1 0 = 3) && !heldInReset s (.port pin) then
    .next (pinTrigger (bump s (intakeBase pin + 0x118)) pin s.clk.now)
  else .next s

/-- A pulse of an output pin launched (R61): a pulse still active is extended to the later end; width 0 suppresses it. A
trigger output is a trigger of the streams that name the pin (R50). -/
def pinLaunch (s : State) (pin t : Nat) : State :=
  let cfg := word s (intakeBase pin + 0x200)
  let stop := s.clk.up + fld cfg 23 4 * 4
  let s1 := if fld cfg 1 0 = 1 ∨ fld cfg 1 0 = 2 then
      if fld cfg 23 4 = 0 then s
      else
        let old := ((s.pulses.find? (fun x => x.1 = pin)).map (fun x => x.2)).getD 0
        { s with pulses := s.pulses.filter (fun x => x.1 ≠ pin) ++ [(pin, max old stop)] }
    else s
  if fld cfg 1 0 = 1 then pinTrigger s1 pin t else s1

/-- TRIG_PULSE_END (R61): the pulse of a pin has lasted its event ticks. -/
def execTrigPulseEnd (pin : Nat) (s : State) : Out :=
  .next { s with pulses := s.pulses.filter (fun x => !(decide (x.1 = pin) && decide (x.2 ≤ s.clk.up))) }

/-! ### PHY -/

/-- PHY_LOCK_CHANGE (R30, R62): the lanes of an enabled port lock or lose lock. -/
def execPhyLockChange (port : Nat) (locked : Bool) (s : State) : Out :=
  if portOpen s port then .next { s with ports := tset false s.ports port locked } else .next s

/-- DESKEW_SEQUENCE (R38, R62): a sequence that does not converge sets deskew_fail, when deskew is honoured. -/
def execDeskewSequence (port : Nat) (converged : Bool) (s : State) : Out :=
  if portOpen s port && wbit s (intakeBase port + 8) 4 && !converged then
    .next (setWbit s (intakeBase port + 4) 5 true)
  else .next s

/-! ### Ending a frame from outside (R51) -/

/-- The frame in arrival of a bank ended with status CANCELLED and its lines discarded (R51: STOP, CANCEL, shutdown). -/
def cancelFrame (s : State) (p k : Nat) : State :=
  let b := bankOf s p k
  match b.frame with
  | some f =>
    let s1 := updFrameIn (identify s p k f) (bankStream s p k) f.seq (fun r => { r with cancelled := true, close := some (stamp s p) })
    setBank s1 p k { b with frame := none, armed := false, trigs := [],
                            lines := b.lines.filter (fun l => l.frame ≠ f.seq) }
  | none => setBank s p k { b with armed := false, trigs := [] }

end Sys2Proof.Machine
end

