-- ==== Sys2Proof/Machine/Plate.lean ====
section
/-!
DEFINITION. Sys2Proof/Machine/Plate.lean: the Plate pipelines (R43, R52, R64 to R74, R84, R87, R95) and the statistics
engine (R75 to R77).
-/
namespace Sys2Proof.Machine

/-! ### One pixel -/

/-- A field of a frame's latched Plate copy. -/
def plFld (f : FrameRec) (off hi lo : Nat) : Nat := fld (plWord f.plate off) hi lo

/-- The phase of a pixel. -/
def phaseOf (x y : Nat) : Nat := 2 * (y % 2) + x % 2

/-- The stored line of a row and exposure of a frame. -/
def lineAt (b : Bank) (seq e row : Nat) : Option Line :=
  b.lines.find? (fun l => l.frame = seq && l.exposure = e && l.row = row)

/-- Black level (R65). -/
def blackLevel (f : FrameRec) (e c bits v : Nat) : Nat :=
  let b := plFld f (0x10 + 8 * e + c / 2 * 4) (if c % 2 = 0 then 15 else 31) (if c % 2 = 0 then 0 else 16)
  v * 2 ^ (16 - bits) - b

/-- A linearisation point (R66, R88). -/
def linPoint (s : State) (n bank e i : Nat) : Nat :=
  numAt s (frontBase + 0x10000 + n * 0x2000 + bank * 0x1000 + e * 0x500 + i * 4) 4 % 2 ^ 20

/-- Linearisation (R66). -/
def linearise (s : State) (n : Nat) (f : FrameRec) (e x : Nat) : Nat :=
  if bitOf (plWord f.plate 0) 5 then
    let bank := plFld f 0 4 4
    let p0 : Int := linPoint s n bank e (x / 256)
    let p1 : Int := linPoint s n bank e (x / 256 + 1)
    (clampI 0 0xFFFFF (p0 + sar ((p1 - p0) * (x % 256 : Nat)) 8)).toNat
  else x * 16

/-- The linearised value of an exposure at a pixel; a row that is not there reads as 0. -/
def linAt (s : State) (n : Nat) (b : Bank) (f : FrameRec) (e x y : Nat) : Nat :=
  match lineAt b f.seq e y with
  | some l => linearise s n f e (blackLevel f e (phaseOf x y) l.bits (l.samples.getD x 0))
  | none => 0

/-- The merge step of exposure e into the value of the shorter ones (R67). -/
def mergeStep (f : FrameRec) (v : List Nat) (sc : List Nat) (m e : Nat) : Nat :=
  let band := plFld f (0x30 + 4 * e) 23 20
  let w : Int := (2 ^ band : Nat)
  let a := (clampI 0 w ((plFld f (0x30 + 4 * e) 19 0 : Int) - v.getD e 0)).toNat
  (sc.getD e 0 * a + m * (2 ^ band - a)) / 2 ^ band

/-- Exposure merge of 1 to 3 linearised values (R67). -/
def mergeExps (f : FrameRec) (v : List Nat) : Nat :=
  let n := v.length
  let sc := (List.range n).map (fun e => if e = 0 then v.getD 0 0
    else min (v.getD e 0 * plFld f (0x34 + 4 * e) 19 0 / 256) 0xFFFFFF)
  min ((List.range (n - 1)).reverse.foldl (mergeStep f v sc) (sc.getD (n - 1) 0)) 0xFFFFFF

/-- The merged value of a pixel. -/
def mergedAt (s : State) (n : Nat) (b : Bank) (f : FrameRec) (exps x y : Nat) : Nat :=
  mergeExps f ((List.range exps).map (fun e => linAt s n b f e x y))

/-! ### Pixel Correction Map -/

/-- An entry of the map (R68). -/
structure PcmEntry where
  raw : Nat
  port : Nat
  y : Nat
  x : Nat
  kind : Nat
  value : Nat
  deriving DecidableEq, Repr

/-- The entry at an index. -/
def pcmEntry (s : State) (i : Nat) : PcmEntry :=
  let v := numAt s (pcmBase + i * 8) 8
  { raw := v, port := v / 2 ^ 60, y := v / 2 ^ 47 % 8192, x := v / 2 ^ 34 % 8192, kind := v / 2 ^ 31 % 8,
    value := v / 2 ^ 15 % 65536 }

/-- The entries of a segment that apply, and the number skipped and counted (R69, R70): kind none is skipped uncounted. Their order is that
of the bits that are not spare (R68). -/
def pcmScan (port : Nat) : List PcmEntry → Option Nat → List PcmEntry × Nat
  | [], _ => ([], 0)
  | e :: t, prev =>
    let r := pcmScan port t (some (e.raw / 2 ^ 15))
    if e.kind = 0 then r
    else if (match prev with | some q => decide (e.raw / 2 ^ 15 ≤ q) | none => false) || e.port ≠ port || e.kind = 7 then
      (r.1, r.2 + 1)
    else (e :: r.1, r.2)

/-- The segment of a frame (R70). -/
def pcmSegment (s : State) (f : FrameRec) (port : Nat) : List PcmEntry × Nat :=
  if bitOf (plWord f.plate 0) 6 then
    pcmScan port ((List.range (plFld f 0x44 21 0)).map (fun i => pcmEntry s ((plFld f 0x40 20 0 + i) % 2097152))) none
  else ([], 0)

/-- Whether a pixel carries an entry of an interpolating kind (R71). -/
def interpolated (es : List PcmEntry) (x y : Nat) : Bool :=
  es.any (fun e => e.x = x && e.y = y && (e.kind = 1 || e.kind = 5 || e.kind = 6))

/-- The neighbours at a distance along the directions of a kind that are not excluded (R71). -/
def neighbours (es : List PcmEntry) (w h x y d kind : Nat) : List (Nat × Nat) :=
  let hor := (if d ≤ x then [(x - d, y)] else []) ++ (if x + d < w then [(x + d, y)] else [])
  let ver := (if d ≤ y then [(x, y - d)] else []) ++ (if y + d < h then [(x, y + d)] else [])
  let all := if kind = 5 then hor else if kind = 6 then ver else hor ++ ver
  all.filter (fun p => !interpolated es p.1 p.2)

/-- Defect correction of a pixel from the merged values `m` (R69, R71): the value, and whether it stayed unresolved. -/
def pcmApply (es : List PcmEntry) (f : FrameRec) (m : Nat → Nat → Nat) (w h x y : Nat) : Nat × Bool :=
  match es.find? (fun e => e.x = x && e.y = y) with
  | none => (m x y, false)
  | some e =>
    if e.kind = 2 then (min (e.value * 256) 0xFFFFFF, false)
    else if e.kind = 3 then ((clampI 0 0xFFFFFF ((m x y : Int) + sext 16 e.value)).toNat, false)
    else if e.kind = 4 then (min (m x y * e.value / 2 ^ 14) 0xFFFFFF, false)
    else
      let d := if plFld f 0 3 1 = 0 then 1 else 2
      let near := neighbours es w h x y d e.kind
      let used := if near = [] then neighbours es w h x y (2 * d) e.kind else near
      if used = [] then (m x y, true)
      else ((used.map (fun p => m p.1 p.2)).sum / used.length, false)

/-! ### Shading and output -/

/-- A shading gain point (R73, R88). -/
def shadePoint (s : State) (slot c i j : Nat) : Nat :=
  numAt s (frontBase + 0x100000 + slot * 0x10000 + c * 0x4000 + j * 132 + i * 2) 2

/-- Lens shading (R73). -/
def shade (s : State) (f : FrameRec) (x y m : Nat) : Nat :=
  if bitOf (plWord f.plate 0) 7 then
    let cw := 2 ^ (5 + plFld f 0x48 6 4); let ch := 2 ^ (5 + plFld f 0x48 9 7)
    let i := min (x / cw) 63; let fx := if 64 ≤ x / cw then cw else x % cw
    let j := min (y / ch) 63; let fy := if 64 ≤ y / ch then ch else y % ch
    let g (a b : Nat) : Nat := shadePoint s (plFld f 0x48 3 0) (phaseOf x y) a b
    let gain := ((g i j * (cw - fx) + g (i + 1) j * fx) * (ch - fy) +
                 (g i (j + 1) * (cw - fx) + g (i + 1) (j + 1) * fx) * fy) / (cw * ch)
    min (m * gain / 4096) 0xFFFFFF
  else m

/-- Output shift (R74). -/
def outShift (f : FrameRec) (m : Nat) : Nat := min (m / 2 ^ plFld f 0 15 12) 0xFFFF

/-- A row of Plate output, and the number of unresolved interpolations. -/
def plateRow (s : State) (n : Nat) (b : Bank) (f : FrameRec) (es : List PcmEntry) (exps w h y : Nat) : List Nat × Nat :=
  let px := (List.range w).map (fun x => pcmApply es f (fun a c => mergedAt s n b f exps a c) w h x y)
  ((px.zip (List.range w)).map (fun p => outShift f (shade s f p.2 y p.1.1)), (px.filter (fun p => p.2)).length)

/-! ### Statistics (R75, R76) -/

/-- A saturating 32-bit count. -/
def satAdd (t : Tbl Nat) (k v : Nat) : Tbl Nat := tset 0 t k (min (tget 0 t k + v) 0xFFFFFFFF)

/-- The zone of a pixel, none outside all zones. -/
def zoneOf (f : FrameRec) (x y : Nat) : Option Nat :=
  let zw := plFld f 0x54 12 0; let zh := plFld f 0x54 28 16
  let zx := plFld f 0x50 9 4; let zy := plFld f 0x50 15 10
  if zw ≠ 0 ∧ zh ≠ 0 ∧ x / zw < zx ∧ y / zh < zy then some (y / zh * zx + x / zw) else none

/-- A row's per-exposure histogram values, of the exposures whose row the intake did not fill (R76). -/
def statExps (s : State) (n : Nat) (b : Bank) (f : FrameRec) (exps w y : Nat) (a : StatAcc) : StatAcc :=
  (List.range exps).foldl (fun a e => match lineAt b f.seq e y with
    | some l =>
      if l.padded then a
      else { a with histExp := (List.range w).foldl (fun t x => satAdd t (e * 256 + linAt s n b f e x y / 4096) 1) a.histExp }
    | none => a) a

/-- A row of Plate output taken into the statistics. -/
def statRow (f : FrameRec) (row : List Nat) (y : Nat) (a : StatAcc) : StatAcc :=
  (row.zip (List.range row.length)).foldl (fun a p =>
    let v := p.1; let x := p.2
    let a1 := { a with pixels := min (a.pixels + 1) 0xFFFFFFFF, histOut := satAdd a.histOut (v / 256) 1 }
    match zoneOf f x y with
    | none => a1
    | some z =>
      let wb := if v < plFld f 0x50 31 16 then satAdd (satAdd a1.wb (z * 5 + phaseOf x y) v) (z * 5 + 4) 1 else a1.wb
      let fc := if zoneOf f (x + 2) y = some z ∧ x + 2 < row.length then
          satAdd a1.focus z ((v : Int) - (row.getD (x + 2) 0 : Int)).natAbs
        else a1.focus
      { a1 with wb := wb, focus := fc }) a

/-- Whether the intake filled a row of every exposure wholly with the pad value (R76). -/
def rowFilled (b : Bank) (seq exps y : Nat) : Bool :=
  (List.range exps).all (fun e => match lineAt b seq e y with | some l => l.padded | none => true)

/-! ### Taking and finishing stripes -/

/-- Rows of an intake stripe. -/
def stripeRowsOf (s : State) (x : Stream) (j : Nat) : List Nat :=
  let rows := bankRows s (dPort x) x.bank; let h := bankHeight s (dPort x) x.bank
  (List.range (min rows (h - j * rows))).map (fun i => j * rows + i)

/-- Whether an intake stripe may go to the Plate stage (R43, R44): its rows and the 4 after them are stored, or, for the last stripe as for
every stripe whose rows are short, the frame has closed; a dropped stripe goes on as a marker. -/
def stripeEligible (s : State) (x : Stream) (f : FrameRec) (j : Nat) : Bool :=
  let p := dPort x; let b := bankOf s p x.bank
  let rows := bankRows s p x.bank; let h := bankHeight s p x.bank
  decide (j ∈ f.droppedStripes) || f.close.isSome ||
    (decide ((j + 1) * rows < h) && (List.range (min (rows + 4) (h - j * rows))).all (fun i =>
      (List.range (bankExps s p x.bank)).all (fun e => (lineAt b f.seq e (j * rows + i)).isSome)))

/-- The stripe of a stream that is next for the Plate stage (R52: in order), when eligible and when the ring has room
(R95): frame, stripe, deadline. -/
def nextPlateStripe (s : State) (x : Stream) : Option (FrameRec × Nat × Nat) :=
  let p := dPort x
  let rows := bankRows s p x.bank; let h := bankHeight s p x.bank
  match x.frames.find? (fun f => !f.cancelled && decide (f.platedNext < ceilDiv h rows)) with
  | none => none
  | some f =>
    let j := f.platedNext
    let need := (stripeRowsOf s x j).length
    if rows ≠ 0 && bitOf (plWord f.plate 0) 0 && stripeEligible s x f j && decide (x.ring.length + need ≤ dRingRows x) then
      let first := tget f.start f.stamps (j * rows / 8)
      some (f, j, first + (inWord s p x.bank 0x24).toNat)
    else none

/-- The candidates of all ports with their place in the order of R52: deadline, class, port, channel. -/
def plateCandidates (s : State) : List (Nat × Stream × FrameRec × Nat × Nat) :=
  s.streams.filterMap (fun e => match e.2 with
    | some x =>
      if carries x && !heldInReset s (.port (dPort x)) then
        (nextPlateStripe s x).map (fun c =>
          (e.1, x, c.1, c.2.1,
           ((c.2.2 * 4 + (3 - inFld s (dPort x) x.bank 0 5 4)) * 16 + dPort x) * 32 + firstVc s (dPort x) e.1))
      else none
    | none => none)

/-- A saturating 32-bit counter register raised by a number (R62). -/
def addCount (s : State) (key k : Nat) : State := setWord s key (BitVec.ofNat 32 (min ((word s key).toNat + k) 0xFFFFFFFF))

/-- The entries of a frame's segment that are skipped, counted as its first stripe reaches the Plate stage (R69, R70). -/
def countSkips (s : State) (n p : Nat) (f : FrameRec) (j : Nat) : State :=
  if j = 0 then addCount s (plReg n 0x80) (pcmSegment s f p).2 else s

/-- PLATE_STRIPE_TAKE (R43, R52, R69, R70, R86, R95, R446): a free pipeline that is not retired takes the eligible stripe with the earliest
deadline. -/
def execPlateStripeTake (pipe : Nat) (s : State) : Out :=
  if decide (4 ≤ pipe) || heldInReset s (.plate pipe) || decide (.plate pipe ∈ s.retire.others) || (tget none s.plates pipe).isSome then .next s
  else match minBy (fun (c : Nat × Stream × FrameRec × Nat × Nat) => c.2.2.2.2) (plateCandidates s) with
    | none => .next s
    | some (n, x, f, j, _) =>
      let rows := stripeRowsOf s x j
      let slots := (rows.zip (List.range rows.length)).map (fun r =>
        ({ frame := f.seq, row := r.1, slot := (x.ringNext + r.2) % dRingRows x, missing := false, ready := false } : RingRow))
      let x1 := updFrame { x with ring := x.ring ++ slots, ringNext := (x.ringNext + rows.length) % dRingRows x } f.seq
        (fun r => { r with platedNext := j + 1,
                           plateStart := match r.plateStart with | some t => some t | none => some s.clk.now })
      .next { setStream (countSkips s n (dPort x) f j) n (some x1) with
        plates := tset none s.plates pipe
          (some { stream := n, frame := f.seq, stripe := j, port := dPort x, bank := x.bank, started := s.clk.now }) }

/-- Lines of a frame that no stripe still to be read needs (R43): every stripe whose window reaches the row has ended. -/
def freeLines (s : State) (x : Stream) (seq : Nat) : State :=
  let p := dPort x
  let rows := bankRows s p x.bank; let h := bankHeight s p x.bank
  let busy := s.plates.filterMap (fun e => match e.2 with
    | some j => if j.frame = seq && j.port = p && j.bank = x.bank then some j.stripe else none
    | none => none)
  match frameOf x seq with
  | none => s
  | some f =>
    let open' (j : Nat) : Bool := decide (f.platedNext ≤ j) && decide (j ∉ f.droppedStripes) || decide (j ∈ busy)
    let b := bankOf s p x.bank
    setBank s p x.bank { b with
      lines := b.lines.filter (fun l => decide (l.frame ≠ seq) || (stripesNeeding rows h l.row).any open') }

/-- The ring rows of a stripe made ready, missing where the stripe was dropped or discarded (R102). -/
def readyRows (x : Stream) (seq : Nat) (rows : List Nat) (missing : Bool) : Stream :=
  { x with ring := x.ring.map (fun r => if r.frame = seq && decide (r.row ∈ rows) then { r with ready := true, missing := missing }
                                        else r) }

/-- The bytes of a ring row. -/
def ringRowBytes (row : List Nat) : List Byte := row.flatMap (fun v => leBytes 2 v)

/-- Rows written into the Plate output ring through the stream's translation (R91, R95); a row whose page faults is lost and reported. -/
def ringStore (s : State) (n : Nat) (x : Stream) (rows : List (Nat × List Byte)) : State :=
  forAll rows (fun s r => match xlateStore s (.stroke n) (dXlate x) r.1 r.2 with
    | some s1 => s1
    | none => iommuFault s (.stroke n) (some x.ctx) r.1) s

/-- A stripe that ends as a marker (R44, R87, R102): rows of zeros marked missing, its lines freed. -/
def plateMarker (s : State) (n : Nat) (x : Stream) (job : PlateJob) : State :=
  let rows := stripeRowsOf s x job.stripe
  let x1 := updFrame (readyRows x job.frame rows true) job.frame
    (fun f => orFlags (flDROPPED ||| flOVERRUN)
      { f with
        platedRows := f.platedRows + rows.length
        droppedStripes := (f.droppedStripes ++ [job.stripe]).eraseDups })
  let zeros := rows.filterMap (fun r => (x.ring.find? (fun q => q.frame = job.frame && q.row = r)).map
    (fun q => (ringAddr x q.slot, List.replicate (dWidth x * 2) (0 : Byte))))
  freeLines (ringStore (setStream s n (some x1)) n x zeros) x1 job.frame

/-- PLATE_STRIPE_DONE (R64 to R76, R95, R102): the stripe's rows are corrected and written into the Plate output ring, the
statistics take them, its lines are freed. -/
def execPlateStripeDone (pipe : Nat) (s : State) : Out :=
  match tget none s.plates pipe with
  | none => .next s
  | some job =>
    let s0 := { s with plates := tset none s.plates pipe none }
    match streamOf s0 job.stream with
    | none => .next s0
    | some x =>
      match frameOf x job.frame with
      | none => .next s0
      | some f =>
        if f.cancelled then .next (freeLines s0 x job.frame)
        else if job.stripe ∈ f.droppedStripes then .next (plateMarker s0 job.stream x job)
        else
          let p := dPort x; let b := bankOf s0 p x.bank
          let w := bankWidth s0 p x.bank; let h := bankHeight s0 p x.bank; let exps := bankExps s0 p x.bank
          let seg := pcmSegment s0 f p
          let rows := stripeRowsOf s0 x job.stripe
          let outs := rows.map (fun y => (y, plateRow s0 job.stream b f seg.1 exps w h y))
          let unres := (outs.map (fun o => o.2.2)).sum
          let stat := if bitOf (plWord f.plate 0) 8 then
              outs.foldl (fun a o =>
                let a1 := statExps s0 job.stream b f exps w o.1 a
                if rowFilled b f.seq exps o.1 then a1 else statRow f o.2.1 o.1 a1) f.stat
            else f.stat
          let bytes := outs.filterMap (fun o => (x.ring.find? (fun q => q.frame = f.seq && q.row = o.1)).map
            (fun q => (ringAddr x q.slot, ringRowBytes o.2.1)))
          let x1 := updFrame (readyRows x f.seq rows false) f.seq
            (fun r => { r with platedRows := r.platedRows + rows.length, stat := stat })
          let s1 := addCount (ringStore (setStream s0 job.stream (some x1)) job.stream x bytes) (plReg job.stream 0x84) unres
          let s2 := noteUse (noteUse s1 (30 + pipe / 2) (1072 + job.stream) (some x.ctx) (w * rows.length)) 49 (1072 + job.stream) (some x.ctx)
            ((bytes.map (fun b => b.2.length)).sum)
          .next (freeLines s2 x1 f.seq)

/-- A Plate pipeline reset while it processes a stripe (R87). -/
def plateReset (s : State) (pipe : Nat) : State :=
  match tget none s.plates pipe with
  | none => s
  | some job =>
    let s0 := { s with plates := tset none s.plates pipe none }
    match streamOf s0 job.stream with
    | none => s0
    | some x => plateMarker s0 job.stream x job

/-! ### Statistics records (R75, R77) -/

/-- Words of a table part, in order. -/
def statWords (t : Tbl Nat) (n : Nat) : List Byte := (List.range n).flatMap (fun i => leBytes 4 (tget 0 t i))

/-- The statistics record of a frame (R75), padded to a multiple of 64 bytes. -/
def statRecord (n : Nat) (f : FrameRec) (exps : Nat) : List Byte :=
  let cfg := plWord f.plate 0x50
  let zones := fld cfg 9 4 * fld cfg 15 10
  let body := leBytes 2 1 ++ leBytes 1 n ++ leBytes 1 (fld cfg 3 0) ++ leBytes 4 f.seq ++ leBytes 2 f.ident ++ leBytes 2 0 ++
    leBytes 4 f.flags ++ leBytes 8 f.start ++ leBytes 8 (f.close.getD 0) ++ leBytes 4 f.stat.pixels ++ List.replicate 28 0 ++
    (if bitOf cfg 0 then statWords f.stat.histExp (256 * exps) else []) ++
    (if bitOf cfg 1 then statWords f.stat.histOut 256 else []) ++
    (if bitOf cfg 2 then statWords f.stat.wb (zones * 5) else []) ++
    (if bitOf cfg 3 then statWords f.stat.focus zones else [])
  padTo (roundUp body.length 64) body

/-- The frame whose statistics record is next: closed, its last stripe out of the Plate stage, in frame order (R77). -/
def statFrame (x : Stream) : Option FrameRec :=
  match x.frames.find? (fun f => !f.statDone && bitOf (plWord f.plate 0) 8 && !f.cancelled) with
  | some f => if f.close.isSome && decide (dHeight x ≤ f.platedRows) then some f else none
  | none => none

/-- Frames whose result record is written and whose statistics, when enabled, are done leave the stream. -/
def dropFinished (x : Stream) : Stream :=
  { x with frames := x.frames.filter (fun f =>
      !(f.recorded && (f.statDone || f.cancelled || !bitOf (plWord f.plate 0) 8))) }

/-- STAT_RECORD_WRITE (R75, R77, R285): record, count and header are written and the flag incremented; without a free slot or
a translation the record is dropped and counted. -/
def execStatRecordWrite (stream : Nat) (s : State) : Out :=
  match streamOf s stream with
  | none => .next s
  | some x =>
    match statFrame x with
    | none => .next s
    | some f =>
      if heldInReset s .stat then .next s
      else
        let s1 := setStream s stream (some (dropFinished (updFrame x f.seq (fun r => { r with statDone := true }))))
        let base := plFld f 0x58 31 6 * 64 + plFld f 0x5C 7 0 * 2 ^ 32
        let rec' := statRecord stream f (bankExps s (dPort x) x.bank)
        let lost (st : State) : State := bump st (plReg stream 0x88)
        match xlateRead s1 (.endpoint 0) (dXlate x) (base + 32) 4 with
        | none => .next (lost (iommuFault s1 (.stroke stream) (some x.ctx) (base + 32)))
        | some (s1, rd) =>
          let s2 := setWord s1 (plReg stream 0x68) (BitVec.ofNat 32 (leNat rd))
          let wr := (word s2 (plReg stream 0x64)).toNat
          let n := plFld f 0x60 12 0
          if n ≤ (wr + 2 ^ 32 - leNat rd) % 2 ^ 32 then .next (lost s2)
          else
            let a := base + 64 + wr % n * rec'.length
            match xlateStore s2 (.endpoint 0) (dXlate x) a rec' with
            | none => .next (lost (iommuFault s2 (.stroke stream) (some x.ctx) a))
            | some s3 =>
              let s4 := setWord s3 (plReg stream 0x64) (BitVec.ofNat 32 (wr + 1))
              match xlateStore s4 (.endpoint 0) (dXlate x) base (leBytes 4 (wr + 1)) with
              | none => .next (iommuFault s4 (.stroke stream) (some x.ctx) base)
              | some s5 => .next (signalFlag s5 (.stroke stream) (plFld f 0x6C 15 0) true 1)

/-! ### Commits (R83, R85) -/

/-- The copy a commit makes pending, after the copy pending before it: the words, whether for a named frame, and that frame. A copy it
replaces in the same event tick is kept for a frame start of that tick. -/
def commitCopy (old : Option PendCopy) (now : Nat) (words : Tbl Word) (next : Nat) (value : Word) : PendCopy × Bool :=
  let d := (fld value 31 16 + 65536 - next % 65536) % 65536
  let older := match old with
    | some c => if c.tick = now then c.older else some (c.words, c.atFrame, c.target)
    | none => none
  if bitOf value 1 then
    if d < 32768 then ({ words := words, atFrame := true, target := (next + d) % 2 ^ 32, tick := now, older := older }, false)
    else ({ words := words, atFrame := true, target := next, tick := now, older := older }, true)
  else ({ words := words, atFrame := false, target := 0, tick := now, older := older }, false)

/-- Whether a frame start of a stream waits in the queue of commands: it falls in this event tick (log 7). -/
def startDue (s : State) (x : Stream) : Bool :=
  s.pending.any (fun c => match c with
    | .csiFrameStart p v _ e =>
      decide (p = dPort x) && decide (e ≠ .uncorrectable) && decide (v = firstVc s (dPort x) (bankStream s (dPort x) x.bank))
    | _ => false)

/-- The number of a stream's next frame to start after this event tick (R50, R83): that of the oldest unanswered trigger, else the next
number; a frame start of this tick comes first. -/
def commitNext (s : State) (stream : Nat) : Nat :=
  match streamOf s stream with
  | some x =>
    let b := bankOf s (dPort x) x.bank
    let nums := b.trigs.map (fun t => t.2)
    if startDue s x && b.armed then
      (match nums with
       | _ :: q :: _ => q
       | [_] => b.nextSeq
       | [] => seqAfter b.nextSeq)
    else nums.headD b.nextSeq
  | none => 0

/-- The shadow copy of a stream's Plate parameters committed (R83). -/
def commitPlate (s : State) (stream : Nat) (value : Word) : State :=
  let c := commitCopy (tget none s.plPend stream) s.clk.up (plShadow s stream) (commitNext s stream) value
  let s1 := { s with plPend := tset none s.plPend stream (some c.1) }
  if c.2 then setWbit s1 (plReg stream 8) 2 true else s1

/-- Whether a frame of a stream starts in this event tick. -/
def startNow (s : State) (stream : Nat) : Bool :=
  match streamOf s stream with
  | some x =>
    let b := bankOf s (dPort x) x.bank
    (startDue s x && b.armed) || (b.frame.isSome && decide (b.lastStart = stamp s (dPort x)))
  | none => false

/-- The shadow copy of a stream's colour parameters committed (R83). In the tick of a frame start it is for the following frame, whose
stripes reach the stage later. -/
def commitColour (s : State) (stream : Nat) (value : Word) : State :=
  let r := commitCopy none s.clk.up (clShadow s stream) (commitNext s stream) value
  let c := if !r.1.atFrame && startNow s stream then ({ r.1 with atFrame := true, target := commitNext s stream }, r.2) else r
  let s1 := { s with clPend := tset none s.clPend stream (some c.1) }
  if c.2 then setWbit s1 (clReg stream 8) 2 true else s1

/-- PL_COMMIT (R83, R85, R88). -/
def execPlCommit (src : Src) (stream : Nat) (value : Word) (s : State) : Out :=
  let a := plReg stream 4
  if 32 ≤ stream then .next s
  else match meets s src a with
    | .here =>
      if anyCarries s && !isApgil src then .next (denied s src a)
      else if bitOf value 0 then .next (commitPlate s stream value)
      else .next s
    | m => .next (refuse s src a m)

/-- CL_COMMIT (R83, R85, R88). -/
def execClCommit (src : Src) (stream : Nat) (value : Word) (s : State) : Out :=
  let a := clReg stream 4
  if 32 ≤ stream then .next s
  else match meets s src a with
    | .here =>
      if anyCarries s && !isApgil src then .next (denied s src a)
      else if bitOf value 0 then .next (commitColour s stream value)
      else .next s
    | m => .next (refuse s src a m)

end Sys2Proof.Machine
end

