-- ==== Sys2Proof/Machine/Colour.lean ====
section
/-!
DEFINITION. Sys2Proof/Machine/Colour.lean: the two colour stages (R78 to R83, R86, R87, R100 to R102).
-/
namespace Sys2Proof.Machine

/-! ### Arithmetic of one pixel (R79, R80) -/

def sat16 (v : Int) : Nat := (clampI 0 0xFFFF v).toNat

/-- White-balance gain of channel k (R79 step 1). -/
def wbGain (t : Tbl Word) (k v : Nat) : Nat :=
  sat16 (v * (if k = 0 then fld (clWord t 0x10) 15 0 else if k = 1 then fld (clWord t 0x10) 31 16
              else fld (clWord t 0x14) 15 0) / 4096 : Nat)

/-- A coefficient or offset of the matrix (R88). -/
def clCoef (t : Tbl Word) (k : Nat) : Int := sext 16 (fld (clWord t (0x20 + 4 * k)) 15 0)

/-- Colour matrix row r (R79 step 2). -/
def matrixRow (t : Tbl Word) (r : Nat) (x : List Nat) : Nat :=
  sat16 (sar (clCoef t (4 * r) * x.getD 0 0 + clCoef t (4 * r + 1) * x.getD 1 0 + clCoef t (4 * r + 2) * x.getD 2 0) 12 +
         clCoef t (4 * r + 3))

/-- A tone-curve point (R79, R88). -/
def tonePoint (s : State) (n bank c i : Nat) : Nat :=
  numAt s (frontBase + 0x80000 + n * 0x4000 + bank * 0x2000 + c * 0x800 + i * 2) 2

/-- Tone curve of channel c (R79 step 3). -/
def tone (s : State) (n : Nat) (t : Tbl Word) (c y : Nat) : Nat :=
  if bitOf (clWord t 0) 2 then
    let b := fld (clWord t 0) 1 1; let i := y / 64
    if i < 1023 then
      let p0 : Int := tonePoint s n b c i
      sat16 (p0 + sar (((tonePoint s n b c (i + 1) : Int) - p0) * (y % 64 : Nat)) 6)
    else tonePoint s n b c 1023
  else y

/-- Steps 1 to 3 of R79 on one pixel. -/
def colourPixel (s : State) (n : Nat) (t : Tbl Word) (rgb : List Nat) : List Nat :=
  let x := (List.range 3).map (fun k => wbGain t k (rgb.getD k 0))
  (List.range 3).map (fun r => tone s n t r (matrixRow t r x))

/-- Luma and colour-difference coefficients with 14 fractional bits, nearest (R80; PRESUMED from the three standards,
log 11): rows Y, Cb, Cr. -/
def yuvCoef (m : Nat) : List (List Int) :=
  if m = 0 then [[4899, 9617, 1868], [-2765, -5427, 8192], [8192, -6860, -1332]]
  else if m = 1 then [[3483, 11718, 1183], [-1877, -6315, 8192], [8192, -7441, -751]]
  else [[4304, 11108, 972], [-2288, -5904, 8192], [8192, -7533, -659]]

/-- Y16, Cb16, Cr16 of a pixel (R80 step 1). -/
def yuv16 (m : Nat) (p : List Nat) : List Nat :=
  (yuvCoef m).zipIdx.map (fun c =>
    sat16 (sar ((List.range 3).foldl (fun a k => a + c.1.getD k 0 * (p.getD k 0 : Int)) 0) 14 +
           (if c.2 = 0 then 0 else 32768)))

/-- An n-bit value of a 16-bit one, full or limited range (R80 steps 2, 3). -/
def yuvRange (full : Bool) (bits : Nat) (chroma : Bool) (v : Nat) : Nat :=
  if full then v / 2 ^ (16 - bits)
  else if chroma then
    (sar (((v : Int) - 32768) * 224 * (2 ^ (bits - 8) : Nat)) 16 + 128 * (2 ^ (bits - 8) : Nat)).toNat
  else v * 219 * 2 ^ (bits - 8) / 65536 + 16 * 2 ^ (bits - 8)

/-- Bits of a depth code. -/
def depthBits (d : Nat) : Nat := if d = 0 then 8 else if d = 3 then 16 else 10

/-- The samples of a line in the layout of a depth code (R81): bytes, 10-bit groups of 4 in 5 bytes, 16-bit places. -/
def packLine (d : Nat) (v : List Nat) : List Byte :=
  if d = 0 then v.map (BitVec.ofNat 8)
  else if d = 1 then
    (List.range (ceilDiv v.length 4)).flatMap (fun g =>
      leBytes 5 ((List.range 4).foldl (fun a k => a + v.getD (4 * g + k) 0 * 2 ^ (10 * k)) 0))
  else v.flatMap (leBytes 2)

/-! ### Rows -/

/-- Mean of a list, truncated. -/
def meanOf (l : List Nat) : Nat := l.sum / l.length

/-- The lines a stripe writes: plane, row of the plane, bytes (R80, R81). `rows` holds (row, pixels of 3 values). -/
def outLines (t : Tbl Word) (w : Nat) (rows : List (Nat × List (List Nat))) : List (Nat × Nat × List Byte) :=
  let cfg := clWord t 0
  let d := fld cfg 8 7; let bits := depthBits d; let fmt := fld cfg 6 4
  if fmt = 2 then
    rows.flatMap (fun r => (List.range 3).map (fun c => (c, r.1, packLine d (r.2.map (fun p => p.getD c 0 / 2 ^ (16 - bits))))))
  else
    let m := fld cfg 10 9; let full := bitOf cfg 11
    let conv := rows.map (fun r => (r.1, r.2.map (fun p =>
      let y := yuv16 m p
      [yuvRange full bits false (y.getD 0 0), yuvRange full bits true (y.getD 1 0), yuvRange full bits true (y.getD 2 0)])))
    let luma := conv.map (fun r => (0, r.1, packLine d (r.2.map (fun p => p.getD 0 0))))
    let pair (ps : List (List (List Nat))) (i : Nat) : List Nat :=
      [1, 2].map (fun c => meanOf (ps.flatMap (fun row =>
        [(row.getD (2 * i) []).getD c 0, (row.getD (min (2 * i + 1) (w - 1)) []).getD c 0])))
    let chromaRow (ps : List (List (List Nat))) : List Nat := (List.range (ceilDiv w 2)).flatMap (pair ps)
    if fmt = 1 then luma ++ conv.map (fun r => (1, r.1, packLine d (chromaRow [r.2])))
    else luma ++ (conv.filter (fun r => r.1 % 2 = 0)).map (fun r =>
      let below := ((conv.find? (fun q => q.1 = r.1 + 1)).map (fun q => q.2)).getD r.2
      (1, r.1 / 2, packLine d (chromaRow [r.2, below])))

/-- A raw passthrough line (R79, R81). -/
def rawLine (t : Tbl Word) (row : List Nat) : List Byte :=
  let d := fld (clWord t 0) 8 7
  packLine d (row.map (fun v => v / 2 ^ (16 - depthBits d)))

/-- The lines of a marker stripe: the value 0 in every output plane (R102). -/
def zeroLines (t : Tbl Word) (w : Nat) (rows : List Nat) : List (Nat × Nat × List Byte) :=
  let d := fld (clWord t 0) 8 7; let fmt := fld (clWord t 0) 6 4
  let line (n : Nat) : List Byte := packLine d (List.replicate n 0)
  if fmt = 3 then rows.map (fun r => (0, r, line w))
  else if fmt = 2 then rows.flatMap (fun r => (List.range 3).map (fun c => (c, r, line w)))
  else rows.map (fun r => (0, r, line w)) ++
    (rows.filter (fun r => fmt = 1 || r % 2 = 0)).map (fun r => (1, if fmt = 1 then r else r / 2, line (2 * ceilDiv w 2)))

/-! ### Resampler (R82) -/

/-- Source position of an output index: whole part and fraction. -/
def rsPos (step i : Nat) : Nat × Nat :=
  let x := i * step + step / 2 - 0x8000
  (x / 65536, x / 256 % 256)

/-- One interpolation step. -/
def rsMix (a b f : Nat) : Nat := (a * (256 - f) + b * f) / 256

/-- A row of the copy from two source rows of one channel. -/
def rsRow (stepX outW w fy : Nat) (top bottom : List Nat) : List Nat :=
  (List.range outW).map (fun i =>
    let p := rsPos stepX i
    let hor (l : List Nat) : Nat := rsMix (l.getD p.1 0) (l.getD (min (p.1 + 1) (w - 1)) 0) p.2
    rsMix (hor top) (hor bottom) fy)

/-- Output rows of the copy that the rows up to `last` complete, from `next` on; `src` gives a source row's channels. -/
def rsRows (t : Tbl Word) (w h last : Nat) (src : Nat → List (List Nat)) : Nat → Nat → List (Nat × List (List Nat))
  | 0, _ => []
  | fuel + 1, next =>
    let p := rsPos (fld (clWord t 0x64) 23 0) next
    let below := min (p.1 + 1) (h - 1)
    if fld (clWord t 0x68) 29 16 ≤ next ∨ last < below ∨ last < p.1 then []
    else
      let a := src p.1; let b := src below
      (next, (List.range 3).map (fun c =>
        rsRow (fld (clWord t 0x60) 23 0) (fld (clWord t 0x68) 13 0) w p.2 (a.getD c []) (b.getD c []))) ::
      rsRows t w h last src fuel (next + 1)

/-! ### What the stage takes -/

/-- The last tile of a string. -/
def lastTile (g : Strg) : Nat := g.tiles.getLast?.getD 0

/-- The string that has parked a stripe, with the tile and buffer it lies in. -/
def parkedAt (x : Stream) (j : Nat) : Option (Strg × Park) :=
  x.strings.findSome? (fun g => (g.parked.find? (fun p => p.stripe = j)).map (fun p => (g, p)))

/-- Output rows of the stripe numbered j (R94). -/
def rowsOf (x : Stream) (j : Nat) : List Nat :=
  let k := j % stripesOf x
  (List.range (min (dH x) (dHeight x - k * dH x))).map (fun i => k * dH x + i)

/-- The frame of the stripe numbered j. -/
def stripeFrame (x : Stream) (j : Nat) : Option FrameRec := frameOf x (stripeSeq x j)

/-- Whether every row of stripe j is in the ring, and whether one of them is missing. -/
def ringHas (x : Stream) (f : FrameRec) (rows : List Nat) : Bool :=
  rows.all (fun r => x.ring.any (fun q => q.frame = f.seq && q.row = r && q.ready))
def ringMissing (x : Stream) (f : FrameRec) (rows : List Nat) : Bool :=
  rows.any (fun r => x.ring.any (fun q => q.frame = f.seq && q.row = r && q.missing))

/-- Whether stripe head of a stream can go to the colour stage, and whether as a marker (R100 to R102). -/
def headReady (x : Stream) : Option Bool :=
  if stripesOf x = 0 then none
  else match stripeFrame x x.head with
    | none => none
    | some f =>
      if x.head ∈ x.markers then some true
      else if (parkedAt x x.head).isSome then some false
      else if dStrings x = 0 ∧ ringHas x f (rowsOf x x.head) then some (ringMissing x f (rowsOf x x.head))
      else none

/-- The deadline of a stripe: the stamp of its first row plus `IN_DEADLINE` (R52). -/
def stripeDeadline (s : State) (x : Stream) (j : Nat) : Nat :=
  let first := match stripeFrame x j with
    | some f => tget f.start f.stamps (j % stripesOf x * dH x / 8)
    | none => 0
  first + (inWord s (dPort x) x.bank 0x24).toNat

/-- The pending colour copy latched at the first stripe of a frame (R83). -/
def latchColour (s : State) (n seq : Nat) : State :=
  match tget none s.clPend n with
  | some c =>
    if copyDueAt c.atFrame c.target seq then
      let s1 := { s with clPend := tset none s.clPend n none }
      if clBad c.words then setWbit s1 (clReg n 8) 1 true else { s1 with clLatch := tset [] s1.clLatch n c.words }
    else s
  | none => s

/-- The streams of a colour stage whose head stripe can go to it, and whether as a marker. -/
def colourCandidates (s : State) (stage : Nat) : List (Nat × Stream × Bool) :=
  s.streams.filterMap (fun e => match e.2 with
    | some x =>
      if carries x && decide (dStage x = stage) && x.colourFrame.isNone then
        (headReady x).map (fun m => (e.1, x, m)) else none
    | none => none)

/-- A marker of a stream without strings counted among its frame's dropped stripes; with strings the dispatcher or the remap has counted
it (R102, R105). -/
def markerCount (x : Stream) (seq : Nat) (marker : Bool) : Stream :=
  if marker && x.strings.isEmpty && decide (x.head ∉ x.markers) then updFrame x seq (fun f => { f with dropped := f.dropped + 1 }) else x

/-- COLOUR_STRIPE_TAKE (R78, R83, R101): a free stage takes the next in-order stripe with the earliest deadline; ties go to
the lower stream number. -/
def execColourStripeTake (stage : Nat) (s : State) : Out :=
  if decide (2 ≤ stage) || heldInReset s (.colour stage) || (tget none s.colours stage).isSome then .next s
  else
    match minBy (fun (c : Nat × Stream × Bool) => stripeDeadline s c.2.1 c.2.1.head) (colourCandidates s stage) with
    | none => .next s
    | some (n, x, m) =>
      let seq := stripeSeq x x.head; let k := x.head % stripesOf x
      let s1 := if k = 0 then latchColour s n seq else s
      let job : ColourJob := { stream := n, stripe := x.head, frame := seq, index := k, marker := m }
      .next { setStream s1 n (some (markerCount x seq m)) with colours := tset none s1.colours stage (some job) }

/-! ### Finishing a stripe -/

/-- The 16-bit samples of a row as the stage reads them: planes of the park buffer, or the ring's plane (R101). -/
def stageRow (s : State) (x : Stream) (f : FrameRec) (j c row : Nat) : List Nat :=
  match parkedAt x j with
  | some (g, p) =>
    match stringVariant s x g with
    | some v =>
      let base := tileBase p.tile + (v.parkBank + c) % 64 * 32768 + v.parkOff + p.buf * v.parkBytes +
        (row - j % stripesOf x * dH x) * v.parkRow
      (List.range (dWidth x)).map (fun i => numAt s (base + 2 * i) 2)
    | none => List.replicate (dWidth x) 0
  | none =>
    match x.ring.find? (fun q => q.frame = f.seq && q.row = row) with
    | some q =>
      match xlateRead s (.colour (dStage x)) (dXlate x) (ringAddr x q.slot) (dWidth x * 2) with
      | some (_, bs) => (List.range (dWidth x)).map (fun i => leAt bs (2 * i) 2)
      | none => List.replicate (dWidth x) 0
    | none => List.replicate (dWidth x) 0

/-- The tone-mapped pixels of a stripe's rows. -/
def stagePixels (s : State) (n : Nat) (x : Stream) (f : FrameRec) (t : Tbl Word) (j : Nat) :
    List (Nat × List (List Nat)) :=
  (rowsOf x j).map (fun r =>
    let p0 := stageRow s x f j 0 r; let p1 := stageRow s x f j 1 r; let p2 := stageRow s x f j 2 r
    (r, (List.range (dWidth x)).map (fun i => colourPixel s n t [p0.getD i 0, p1.getD i 0, p2.getD i 0])))

/-- Channel rows of pixels: three lists of samples. -/
def channels (px : List (List Nat)) : List (List Nat) := (List.range 3).map (fun c => px.map (fun p => p.getD c 0))

/-- Lines written through the stream's translation; none where a page faults: the address. -/
def writeLines (s : State) (n xl : Nat) : List (Nat × List Byte) → State × Option Nat
  | [] => (s, none)
  | (a, bs) :: t => match xlateStore s (.stroke n) xl a bs with
    | some s1 => writeLines s1 n xl t
    | none => (s, some a)

/-- Stripe head finished: its park buffer freed, head advanced, the frame's end pending after its last stripe (R100, R101). -/
def advanceHead (s : State) (x : Stream) : Stream :=
  let j := x.head; let last := decide (j % stripesOf x + 1 = stripesOf x)
  let x1 := { x with
    head := j + 1
    markers := x.markers.filter (fun m => m ≠ j)
    strings := x.strings.map (fun g => { g with parked := g.parked.filter (fun p => p.stripe ≠ j) })
    colourFrame := if last then some (stripeSeq x j) else x.colourFrame
    rsRow := if last then [] else x.rsRow
    rsNext := if last then 0 else x.rsNext }
  ringFreed s x1

/-- Tiles whose park buffers have been read out and that no string holds any more: what they kept for the colour stage is released
(R100, R205; log 15). -/
def parkReleased (s : State) (x y : Stream) : State :=
  let kept (z : Stream) : List Nat := z.strings.flatMap (fun g => g.parked.map (fun p => p.tile))
  let gone := ((kept x).eraseDups).filter (fun t => !decide (t ∈ kept y) && !y.strings.any (fun g => decide (t ∈ g.tiles)))
  forAll gone (fun s t => releaseAll s (tileGranules t) .killed) s

/-- What a stage makes of a stripe: the writes of its output lines and detection-copy rows, the rows of the detection copy, and the
tone-mapped channels of its last row (R79 to R82, R101, R102). -/
def stageWork (s : State) (x : Stream) (f : FrameRec) (job : ColourJob) : List (Nat × List Byte) × Nat × List (List Nat) :=
  let t := tget [] s.clLatch job.stream
  let w := dWidth x; let h := dHeight x; let rows := rowsOf x job.stripe
  let raw := decide (fld (clWord t 0) 6 4 = 3)
  let px := if job.marker then rows.map (fun r => (r, List.replicate w [0, 0, 0]))
            else if raw then [] else stagePixels s job.stream x f t job.stripe
  let lines := if job.marker then zeroLines t w rows
               else if raw then rows.map (fun r => (0, r, rawLine t (stageRow s x f job.stripe 0 r)))
               else outLines t w px
  let slot := job.frame % max 1 (dOutSlots x)
  let out := lines.map (fun l => (dOutBase x l.1 + slot * dOutPitch x + l.2.1 * dOutStride x l.1, l.2.2))
  let rs := bitOf (clWord t 0) 3 && !raw
  let last := rows.getLast?.getD 0
  let src (r : Nat) : List (List Nat) :=
    match px.find? (fun p => p.1 = r) with | some p => channels p.2 | none => x.rsRow
  let det := if rs then rsRows t w h last src (h + 1) x.rsNext else []
  let deep := bitOf (clWord t 0) 12
  let detLines := det.flatMap (fun d => (List.range 3).map (fun c =>
    (dDetBase x c + slot * dDetPitch x + d.1 * dDetStride x c,
     if deep then packLine 3 (d.2.getD c []) else packLine 0 ((d.2.getD c []).map (fun v => v / 256)))))
  (out ++ detLines, det.length, match px.getLast? with | some p => channels p.2 | none => x.rsRow)

/-- The writes of a stripe that are made: none while the stage's output is disabled. -/
def stageWrites (s : State) (x : Stream) (f : FrameRec) (job : ColourJob) : List (Nat × List Byte) :=
  if bitOf (clWord (tget [] s.clLatch job.stream) 0) 0 then (stageWork s x f job).1 else []

/-- COLOUR_STRIPE_DONE (R79 to R82, R100 to R102, R111, R285): output lines and detection-copy rows written; a translation
fault stalls the stage. The stripes of a frame a STOP cancelled are discarded. -/
def execColourStripeDone (stage : Nat) (s : State) : Out :=
  match tget none s.colours stage with
  | none => .next s
  | some job =>
    let free (st : State) : State := { st with colours := tset none st.colours stage none }
    match streamOf s job.stream with
    | none => .next (free s)
    | some x =>
      match frameOf x job.frame with
      | none => .next (free s)
      | some f =>
        if f.cancelled then .next (free (parkReleased (setStream s job.stream (some (advanceHead s x))) x (advanceHead s x)))
        else
          match writeLines s job.stream (dXlate x) (stageWrites s x f job) with
          | (s1, some a) => .next (iommuFault { s1 with mem := s.mem } (.stroke job.stream) (some x.ctx) a)
          | (s1, none) =>
            let work := stageWork s x f job
            let x1 := { x with rsNext := x.rsNext + work.2.1, rsRow := work.2.2 }
            let moved := ((stageWrites s x f job).map (fun b => b.2.length)).sum
            let s2 := noteUse (noteUse s1 (30 + stage) (1072 + job.stream) (some x.ctx) (dWidth x * (rowsOf x job.stripe).length))
              49 (1072 + job.stream) (some x.ctx) moved
            .next (free (parkReleased (setStream s2 job.stream (some (advanceHead s2 x1))) x (advanceHead s2 x1)))

/-- The wait on bru_flag of the oldest frame whose colour stage has ended and whose record is not written (R104). -/
def startBruWait (s : State) (n : Nat) : State :=
  match streamOf s n with
  | none => s
  | some x =>
    match x.frames.find? (fun f => !f.recorded) with
    | some f =>
      if dDet x && !f.cancelled && f.colourEnd.isSome && f.waitFrom.isNone then
        let s1 := setStream s n (some (updFrame x f.seq (fun r => { r with waitFrom := some s.clk.now })))
        match startWait s1 (1072 + n) (some x.ctx) (dBruFlag x) false (BitVec.ofNat 32 (f.seq + 1)) (dBruTimeout x) with
        | some s2 => s2
        | none => s1
      else s
    | none => s

/-- The first stream of a colour stage with a frame whose end is pending, and the frame. -/
def frameEndHit (s : State) (stage : Nat) : Option (Nat × Stream × Nat) :=
  s.streams.findSome? (fun e => match e.2 with
    | some x => if carries x && decide (dStage x = stage) then x.colourFrame.map (fun q => (e.1, x, q)) else none
    | none => none)

/-- COLOUR_FRAME_END (R101, R104, R111): the frame's output writes have arrived; it ends, det_flag is incremented, and the wait on
bru_flag starts. Of a frame that a STOP cancelled the detection copy never arrived: nothing is signalled or waited for. -/
def execColourFrameEnd (stage : Nat) (s : State) : Out :=
  match frameEndHit s stage with
  | none => .next s
  | some (n, x, q) =>
    let s1 := setStream s n (some (updFrame { x with colourFrame := none } q
      (fun r => { r with colourEnd := some s.clk.now })))
    if (match frameOf x q with | some f => f.cancelled | none => true) then .next s1
    else
      let s2 := if dDet x then signalFlag s1 (.stroke n) (dDetFlag x) true 1 else s1
      .next (startBruWait s2 n)

/-- A colour stage reset while it processes a stripe (R87, R102): the stripe stays as a marker, whose frame carries STRIPE_DROPPED and
OVERRUN; one that already was a marker is counted once. -/
def colourReset (s : State) (stage : Nat) : State :=
  match tget none s.colours stage with
  | none => s
  | some job =>
    let s0 := { s with colours := tset none s.colours stage none }
    match streamOf s0 job.stream with
    | none => s0
    | some x =>
      let y := updFrame { x with
          markers := (job.stripe :: x.markers).eraseDups
          strings := x.strings.map (fun g => { g with parked := g.parked.filter (fun p => p.stripe ≠ job.stripe) }) } job.frame
        (fun f => orFlags (flDROPPED ||| flOVERRUN) { f with dropped := f.dropped + b2n (!job.marker) })
      parkReleased (setStream s0 job.stream (some y)) x y

end Sys2Proof.Machine
end

