-- ==== Sys2Proof/Machine/FlashOps.lean ====
section
/-!
DEFINITION. Sys2Proof/Machine/FlashOps.lean: records of the Archive flash and the transactions that wait to write them (R419
to R425), and the retirement of engines during service (R405, R208).
-/
namespace Sys2Proof.Machine

/-- A record to be written; sequence number and time are given when it is appended. -/
def flashRec (typ inst : Nat) (payload : List Byte) : FlashRec :=
  { typ := typ, inst := inst, seq := 0, time := 0, payload := payload, done := false }

/-- A transaction queued (R425: transactions never interleave). -/
def flashQueue (s : State) (recs : List FlashRec) (reply : Option (Nat × Nat × Nat × Nat)) : State :=
  { s with flash := { s.flash with waiting := s.flash.waiting ++ [{ recs := recs, reply := reply }] } }

/-- The payload of the retirement map (R405): for each tile and core, whether retired and how often, then the causes. Its bytes are the
model's (log 14). -/
def retireMap (s : State) : List Byte :=
  ((List.range 72).flatMap (fun n => let r := tget (false, 0) s.retire.tiles n; leBytes 1 (b2n r.1 + 2 * r.2))) ++
  ((List.range 8).flatMap (fun n => let r := tget (false, 0) s.retire.cores n; leBytes 1 (b2n r.1 + 2 * r.2))) ++
  ((List.range 80).flatMap (fun n => leBytes 1 (tget 0 s.retire.cause n)))

/-- The retirement map written. -/
def writeRetireMap (s : State) : State := flashQueue s [flashRec 0x0002 0 (retireMap s)] none

/-- A tile marked as retired, once more, with its cause (R405). -/
def markTile (s : State) (n cause : Nat) : State :=
  { s with retire := { s.retire with
    tiles := tset (false, 0) s.retire.tiles n (true, (tget (false, 0) s.retire.tiles n).2 + 1)
    cause := tset 0 s.retire.cause n cause } }

/-- A core marked as retired, once more, with its cause (R405). -/
def markCore (s : State) (n cause : Nat) : State :=
  { s with retire := { s.retire with
    cores := tset (false, 0) s.retire.cores n (true, (tget (false, 0) s.retire.cores n).2 + 1)
    cause := tset 0 s.retire.cause (72 + n) cause } }

/-- A tile retired in service for a cause (R208, R405): 1 a failed self-test, 2 a failure at work. -/
def retireTile (s : State) (n cause : Nat) : State :=
  let s0 := markTile s n cause
  let s1 := { s0 with retire := { s0.retire with
    inService := s0.retire.inService.filter (fun k => k ≠ n),
    untested := s0.retire.untested.filter (fun k => k ≠ n) } }
  writeRetireMap (raiseOpen s1 0x308 stRETIRED n none)

/-- A core retired in service for a cause (R404, R405). -/
def retireCore (s : State) (n cause : Nat) : State :=
  writeRetireMap (raiseOpen (markCore s n cause) 0x308 stRETIRED (72 + n) none)

/-! ### The controller (R426, R427) -/

/-- The next operation started when none runs: the SMI's first, then a suspended erase, then Apgil's. -/
def flashNext (f : Flash) : Flash :=
  if f.running.isSome then f
  else match f.opsSmi, f.suspended, f.opsMain with
    | o :: t, _, _ => { f with running := some o, opsSmi := t }
    | [], some o, _ => { f with running := some o, suspended := none }
    | [], none, o :: t => { f with running := some o, opsMain := t }
    | [], none, [] => f

/-- Operations asked for by one of the two ports; an erase that runs is suspended for an SMI program. -/
def flashSubmit (f : Flash) (ops : List FlashOp) : Flash :=
  ops.foldl (fun f o =>
    let g := if o.smi then { f with opsSmi := f.opsSmi ++ [o] } else { f with opsMain := f.opsMain ++ [o] }
    match g.running with
    | some r =>
      if o.smi ∧ !o.erase ∧ r.erase ∧ !r.smi ∧ g.suspended = none then flashNext { g with running := none, suspended := some r }
      else g
    | none => flashNext g) f

/-- Whether a port has an operation that is not done. -/
def flashPortBusy (f : Flash) (smi : Bool) : Bool :=
  (match f.running with | some r => decide (r.smi = smi) | none => false) ||
  (match f.suspended with | some r => decide (r.smi = smi) | none => false) ||
  (if smi then !f.opsSmi.isEmpty else !f.opsMain.isEmpty)

/-! ### Pages (R419, R421, R426) -/

/-- Bytes of a record: header and padded payload (R419). -/
def recBytes (r : FlashRec) : Nat := 32 + roundUp r.payload.length 32

/-- Pages of a list of records, each written in pages of its own. -/
def recPages (l : List FlashRec) : Nat := (l.map (fun r => ceilDiv (recBytes r) 256)).sum

/-- Journal pages of the transaction in work that are not programmed; Apgil's page programs go to block 516 for the journal. -/
def journalLeft (f : Flash) : Nat :=
  ((f.running.toList ++ f.suspended.toList ++ f.opsMain).filter (fun o => !o.smi && !o.erase && decide (o.block = 516))).length

/-- Whether the commit record of the transaction in work is written (R421). -/
def txCommitted (f : Flash) : Bool := decide (2 ≤ f.step) || (decide (f.step = 1) && decide (journalLeft f = 0))

/-- How many records of a transaction whose journal copies are in work are wholly programmed. -/
def journalled (f : Flash) : Nat :=
  match f.step, f.waiting with
  | 1, t :: _ =>
    let pages := recPages t.recs + 1 - journalLeft f
    ((List.range t.recs.length).filter (fun m => decide (recPages (t.recs.take (m + 1)) ≤ pages))).length
  | _, _ => 0

/-! ### Records in force (R420, R432) -/

/-- The records that count: those of the home rings and those of a transaction whose commit record is written. -/
def countedRecs (f : Flash) : List FlashRec :=
  f.home ++ (if txCommitted f then (match f.waiting with | t :: _ => t.recs | [] => []) else [])

/-- The record of a type and instance in force (R420). -/
def recInForce (f : Flash) (typ inst : Nat) : Option FlashRec :=
  (countedRecs f).foldl (fun o r =>
    if r.typ = typ ∧ r.inst = inst then (match o with | some q => if r.seq < q.seq then o else some r | none => some r) else o) none

/-- The anti-rollback counter (R432): the greater of its record and the OTP floor. -/
def antiRollback (s : State) : Nat :=
  max (match recInForce s.flash 0x0006 0 with | some r => leAt r.payload 0 4 | none => 0) s.fuses.otpRollback

/-- Whether an item has a record in force that is no removal (R420). -/
def recThere (s : State) (typ inst : Nat) : Bool := match recInForce s.flash typ inst with | some r => !r.payload.isEmpty | none => false

/-- Whether the stored trims of a channel or link may be used (R435): a record stands; what the eye check after loading them measures, and
whether the parts are those of the record, is a free value (log 1). -/
def trimsHold (s : State) (typ inst : Nat) : Bool × State :=
  let r := freshNat 74 s
  (recThere s typ inst && decide (r.1 % 2 = 0), r.2)

end Sys2Proof.Machine
end

