-- ==== Sys2Proof/Machine/Ledger.lean ====
section
/-!
DEFINITION. Sys2Proof/Machine/Ledger.lean: estimates, correction factors, available energy (R382 to R388).
-/
namespace Sys2Proof.Machine

/-- Units of an item of a shape [W, H, N, T] (R384). -/
def itemUnits (v : Variant) (shape : List Nat) : Nat :=
  if v.perPixel then shape.getD 0 0 * shape.getD 1 0 * max 1 (shape.getD 2 0) else max 1 (shape.getD 2 0)

/-- The estimate of an item in µJ (R384): rounded up. -/
def estimate (v : Variant) (shape : List Nat) : Nat := v.energy0 + ceilDiv (v.energyUnit * itemUnits v shape) 1000

/-- k in thousandths of a list of (measured, estimated) pairs (R384): 1.0 to 4.0, 1.0 below 8 items, rounded up. -/
def kOf (items : List (Nat × Nat)) : Nat :=
  if items.length < 8 then 1000
  else
    let m := (items.map (fun p => p.1)).sum
    let e := (items.map (fun p => p.2)).sum
    if e = 0 then 1000 else min 4000 (max 1000 (ceilDiv (m * 1000) e))

/-- k of a variant of a loaded package. -/
def variantK (p : Package) (v : Nat) : Nat := kOf (tget [] p.kfac v)

/-- The corrected estimate: the estimate times k, rounded up to a whole µJ (R384). -/
def corrected (est k : Nat) : Nat := ceilDiv (est * k) 1000

/-- A package changed. -/
def updPackage (s : State) (ident : Nat) (f : Package → Package) : State :=
  { s with host := { s.host with packages := s.host.packages.map (fun p => if p.ident = ident then f p else p) } }

/-- A completed item of a variant (R384): the last 64 count; the first time k exceeds 1.25 the host gets ESTIMATE_LOW. -/
def itemDone (s : State) (ident v measured est : Nat) : State :=
  match packageOf s ident with
  | none => s
  | some p =>
    let l := tget [] p.kfac v ++ [(measured, est)]
    let l := l.drop (l.length - 64)
    let k := kOf l
    let first := decide (1250 < k) && decide (v ∉ p.low)
    let s1 := updPackage s ident (fun q => { q with kfac := tset [] q.kfac v l, low := if first then q.low ++ [v] else q.low })
    if first then
      notify s1 p.ctx 0 stOK 8 okPACKAGE ident (leBytes 2 v ++ leBytes 2 0 ++ leBytes 4 k) []
    else s1

/-- What an admitted frame of a stream still keeps from the balance (R386): measured energy counts to the oldest frame
(DESIGN CHOICE, log 13). -/
def streamOutstanding (x : Stream) : Nat :=
  if dReal x then 0
  else
    let adm := (x.frames.filter (fun f => f.admitted && !f.recorded)).map (fun f => f.corrected)
    match adm with
    | [] => 0
    | c :: t => (c - (x.measured - x.measuredAt)) + t.sum

/-- What the running work of a context still keeps from its balance (R386). -/
def outstanding (s : State) (c : Nat) : Nat :=
  ((s.host.jobs.map (fun e => match e.2 with
    | some j => if j.ctx = c && (decide (j.st = .running) || decide (j.st = .placed)) then j.corrected - j.measured else 0
    | none => 0)).sum) +
  ((s.streams.map (fun e => match e.2 with
    | some x => if x.ctx = c && carries x then streamOutstanding x else 0
    | none => 0)).sum)

/-- The available energy of a context in µJ (R386). -/
def available (s : State) (c : Nat) : Int :=
  match contextOf s c with
  | some x => x.balance - (outstanding s c : Int)
  | none => 0

/-- Budget in mJ per window and cap of a context (R383, R394). -/
def budgetReg (c : Nat) : Nat := powerBase + 0x600 + 4 * c
def budgetOf (s : State) (c : Nat) : Nat := wfld s (budgetReg c) 9 0
def capOf (s : State) (c : Nat) : Nat := wfld s (budgetReg c) 19 16 + 1

/-- The value of an ENERGY_STATE TLV (R383). -/
def energyState (s : State) (c : Nat) : List Byte :=
  match contextOf s c with
  | some x => leBytes 8 x.charged ++ leBytes 4 (wrapI 32 x.balance) ++ leBytes 4 x.reserved
  | none => List.replicate 16 0

/-- The value of a JOB_ENERGY TLV (R388). -/
def jobEnergy (j : Job) : List Byte := leBytes 8 j.measured ++ leBytes 8 j.estimate ++ leBytes 2 j.variant ++ leBytes 2 0

end Sys2Proof.Machine
end

