-- ==== Sys2Proof/Machine/Pages.lean ====
section
/-!
DEFINITION. Sys2Proof/Machine/Pages.lean: the DDR5 pages Apgil gives to contexts, and the translation tables it keeps (R196, R283, R284,
R292).
-/
namespace Sys2Proof.Machine

/-- A range of DDR5 taken from the top down for a context, zero-filled (R292), a level 1 table aligned to its 8 KiB (R284); none when DDR5 is used up (log 26). -/
def allocPages (s : State) (ctx bytes : Nat) : Option (Nat × State) :=
  let low := s.host.pages.foldl (fun m p => min m p.2.1) (s.ddrBytes - 0x1000)
  let n := roundUp bytes 4096
  if low < n then none
  else
    let size := if n % 8192 = 0 then 8192 else 4096
    let a := (low - n) / size * size
    some (a, { clearMem s a n with host := { s.host with pages := s.host.pages ++ [(ctx, a, n)] } })

/-- The address of the IOMMU's context table entry of a translation context (R284). -/
def xlateEntry (s : State) (xlate : Nat) : Nat :=
  wfld s (iommuBase + 8) 31 12 * 0x1000 + wfld s (iommuBase + 0xC) 7 0 * 2 ^ 32 + xlate * 16

/-- The IOMMU as Apgil sets it up at a boot: the context table in the last page of DDR5, translation on (R284; log 26). -/
def iommuSetup (s : State) : State :=
  let a := (s.ddrBytes - 0x1000) / 0x1000 * 0x1000
  setWbit (setWord (setWord s (iommuBase + 8) (BitVec.ofNat 32 a)) (iommuBase + 0xC) (BitVec.ofNat 32 (a / 2 ^ 32 % 256))) iommuBase 0 true

/-- A translation context given to an execution context with an empty level 1 table (log 26). -/
def openXlate (s : State) (xlate ctx : Nat) : Option State :=
  match allocPages s 64 8192 with
  | some (a, s1) => some (store s1 (xlateEntry s1 xlate) (leBytes 4 (1 + ctx % 64 * 256) ++ leBytes 4 (a % 2 ^ 32) ++ leBytes 8 (a / 2 ^ 32)))
  | none => none

/-- A table entry's table, made when it is not there. -/
def subTable (s : State) (at' : Nat) : Option (Nat × State) :=
  let e := tableEntry s at'
  if e % 2 = 1 ∧ e / 2 % 2 = 1 then some (e / 4096 % 2 ^ 28 * 4096, s)
  else match allocPages s 64 4096 with
    | some (a, s1) => some (a, store s1 at' (leBytes 8 (a + 3)))
    | none => none

/-- One 4 KiB page of a translation context mapped to a physical page with read and write permission (R284). -/
def mapPage (s : State) (xlate io pa : Nat) : Option State :=
  let ce := xlateEntry s xlate
  let l1 := numAt s (ce + 4) 4 + numAt s (ce + 8) 4 * 2 ^ 32
  match subTable s (l1 + io / 2 ^ 30 % 1024 * 8) with
  | none => none
  | some (l2, s1) =>
    match subTable s1 (l2 + io / 2 ^ 21 % 512 * 8) with
    | none => none
    | some (l3, s2) => some (store s2 (l3 + io / 2 ^ 12 % 512 * 8) (leBytes 8 (pa / 4096 * 4096 + 13)))

/-- The pages of a declared buffer that are not mapped yet mapped to zero-filled DDR5 (R196). -/
def mapBuffer (s : State) (ctx xlate io bytes : Nat) : Option State :=
  let first := io / 4096
  let n := if bytes = 0 then 0 else (io + bytes - 1) / 4096 + 1 - first
  (List.range n).foldl (fun st i =>
    match st with
    | none => none
    | some s =>
      let a := (first + i) * 4096
      if (translate s xlate true a).isSome || (translate s xlate false a).isSome then some s
      else match allocPages s ctx 4096 with
        | some (pa, s1) => mapPage s1 xlate a pa
        | none => none) (some s)

/-- The pages of a context given back. -/
def freePages (s : State) (ctx : Nat) : State :=
  { s with host := { s.host with pages := s.host.pages.filter (fun p => p.1 ≠ ctx) } }

/-- The entry of level 3 that maps a page of a translation context, none while a table is not there (R284). -/
def pageEntry (s : State) (xlate io : Nat) : Option Nat :=
  let ce := xlateEntry s xlate
  let sub (at' : Nat) : Option Nat :=
    let e := tableEntry s at'
    if e % 2 = 1 ∧ e / 2 % 2 = 1 then some (e / 4096 % 2 ^ 28 * 4096) else none
  (sub (numAt s (ce + 4) 4 + numAt s (ce + 8) 4 * 2 ^ 32 + io / 2 ^ 30 % 1024 * 8)).bind (fun l2 =>
    (sub (l2 + io / 2 ^ 21 % 512 * 8)).map (fun l3 => l3 + io / 2 ^ 12 % 512 * 8))

/-- A page of a translation context unmapped; its page of DDR5 goes back. -/
def unmapPage (s : State) (xlate io : Nat) : State :=
  match pageEntry s xlate io with
  | none => s
  | some e =>
    let pa := tableEntry s e / 4096 % 2 ^ 28 * 4096
    { store s e (List.replicate 8 0) with host := { s.host with pages := s.host.pages.filter (fun p => p.2.1 ≠ pa) } }

/-- The pages of declared buffers that are not mapped: I/O addresses (R196). -/
def unmappedPages (s : State) (xlate : Nat) (l : List (Nat × Nat)) : List Nat :=
  (l.flatMap (fun b => (pageSpans (b.2 / 4096 + 2) b.1 b.2).map (fun p => p.1 / 4096 * 4096))).filter (fun a =>
    (translate s xlate true a).isNone && (translate s xlate false a).isNone)

/-- A table entry of level 2 that maps 2 MiB of a translation context (R284). -/
def mapBig (s : State) (xlate io pa flags : Nat) : Option State :=
  let ce := xlateEntry s xlate
  let l1 := numAt s (ce + 4) 4 + numAt s (ce + 8) 4 * 2 ^ 32
  match subTable s (l1 + io / 2 ^ 30 % 1024 * 8) with
  | none => none
  | some (l2, s1) => some (store s1 (l2 + io / 2 ^ 21 % 512 * 8) (leBytes 8 (pa + flags)))

/-- The I/O addresses at which Apgil maps the memories of physical tile and core n in the translation context of their work (log 32). -/
def tileIo (n : Nat) : Nat := 0xFC00000000 + n * 0x400000
def coreIo (n : Nat) : Nat := 0xFB00000000 + n * 0x400000

/-- An engine's 4 MiB mapped in a translation context or taken out of it. -/
def mapEngine (s : State) (xlate io pa : Nat) : State :=
  (((mapBig s xlate io pa 13).bind (fun s => mapBig s xlate (io + 0x200000) (pa + 0x200000) 13))).getD s
def unmapEngine (s : State) (xlate io : Nat) : State :=
  (((mapBig s xlate io 0 0).bind (fun s => mapBig s xlate (io + 0x200000) 0 0))).getD s

/-- The Plate output ring of a stream taken out of its translation context. -/
def unmapRing (s : State) (x : Stream) : State :=
  forAll (List.range (x.shmBanks.length * 64)) (fun s i => unmapPage s (dXlate x) (dRing x + 4096 * i)) s

/-- Physical pages mapped one after the other from an I/O address on. -/
def mapRange (s : State) (xlate io pa pages : Nat) : Option State :=
  (List.range pages).foldl (fun st i => st.bind (fun s => mapPage s xlate (io + 4096 * i) (pa + 4096 * i))) (some s)

end Sys2Proof.Machine
end

