-- ==== Sys2Proof/Machine/Ends.lean ====
section
/-!
DEFINITION. Sys2Proof/Machine/Ends.lean: bindings given back, and how jobs end (R141, R223, R255, R270, R287, R388, R446,
R469).
-/
namespace Sys2Proof.Machine

/-! ### Starts -/

/-- A start event of a tile (R137): from IDLE or DONE it runs from `GT_PC_START`, otherwise err_start is set. -/
def tileGo (s : State) (n : Nat) : State :=
  let t := tileOf s n
  if t.st = .idle ∨ t.st = .done then
    setTile s n { t with st := .running, code := stOK, pc := wfld s (gtReg n 8) 13 0, loops := [], ran := 0, ranFull := 0,
                         haltAt := false, stall := none, ringCredits := 0, rotOut := [], rotDue := [], touched := [],
                         lastRecord := s.clk.up }
  else setWbit s (gtReg n 4) 17 true

/-- First physical addresses of a core's DMEM and IMEM (R33). -/
def dmemBase (n : Nat) : Nat := coreBase n
def eimemBase (n : Nat) : Nat := coreBase n + 0x100000

/-- A start event of a core (R218, R233): every register, accumulator and the loop stack are 0. -/
def coreGo (s : State) (n : Nat) : State :=
  let c := coreOf s n
  if c.st = .idle ∨ c.st = .done then
    setCore s n { c with
      st := .running, code := stOK, pc := wfld s (ecReg n 8) 12 0, sc := [], vec := [], pred := [], acc := [], loops := [],
      ready := [], cycle := 0, satSeen := false, haltAt := false, met := false, waitEv := none, stall := none, touched := [] }
  else setWbit s (ecReg n 4) 17 true

/-! ### Partitions -/

/-- A partition enabled (R389); a tripped device enables none (R393). -/
def enablePart (s : State) (p : Nat) : State :=
  if s.power.tripped then s
  else
    let x := partOf s p
    let s1 := setWbit s (powerBase + 4 * p) 0 true
    match x.st with
    | .off => setPart s1 p { x with st := .poweringUp, disableNext := false }
    | .poweringUp => setPart s1 p { x with disableNext := false }
    | .on => s1
    | .poweringDown => setPart s1 p { x with st := .enablePending }
    | .enablePending => s1

/-- The partitions that tiles need: their Graver groups and the clusters their fetches go through. -/
def tileParts (tiles : List Nat) : List Nat := tiles.map (fun t => t / 4) ++ tiles.map (fun t => 32 + t % 12 / 3)

/-- Every partition of a list enabled. -/
def enableAll (s : State) (l : List Nat) : State := forAll l enablePart s

/-! ### Bindings -/

/-- Engines unbound by Apgil (R141, R223, R270); the lines of a channel are no longer granted (R255). -/
def unbindTile (s : State) (n : Nat) : State := setWord s (gtReg n 0x10) 0x7F0000
def unbindCore (s : State) (n : Nat) : State := setWord s (ecReg n 0x10) 0xF0000
def unbindChan (s : State) (c : Nat) : State :=
  forAll (List.range 256) (fun s l => if lineChan s l = some c then setWord (setWord s (lineReg l 4) 0) (lineReg l 0) 0 else s)
    (setWord s (dmReg c 0x10) 0)

/-- Granules of an engine that its context owns, released. -/
def releaseTile (s : State) (n : Nat) (how : LetGo) : State := releaseAll s (tileGranules n) how
def releaseCore (s : State) (n : Nat) (how : LetGo) : State := releaseAll s (coreGranules n) how

/-- Whether a code ends a program normally. -/
def goodCode (c : Nat) : Bool := c = stOK || c = stEMPTY

/-- An Etch image loaded into a core (R217, R223). -/
def loadCore (s : State) (n ctx : Nat) (e : EtchImage) : State :=
  let s1 := setWord s (ecReg n 0x10) (BitVec.ofNat 32 (ctx % 64 + e.logical % 8 * 2 ^ 16))
  storeAll (setWord (store s1 (eimemBase n) e.bundles) (ecReg n 8) (BitVec.ofNat 32 (e.entry % 8192)))
    (e.segs.map (fun g => (dmemBase n + g.1, g.2)))

/-! ### Jobs -/

/-- The channels of a job whose programs load its tiles, or its others (R202). -/
def jobChans (s : State) (j : Job) (pre : Bool) : List Nat :=
  match packageOf s j.plan with
  | some p => ((j.chans.zip p.content.dmas).filter (fun e => decide (e.2.pre = pre))).map (fun e => e.1)
  | none => []

/-- The tiles, cores and remaining channels of a job started (R137, R202, R218, R268). -/
def goJob (s : State) (jn : Nat) (j : Job) : State :=
  let s1 := setJob s jn (some { j with loading := false })
  let s2 := forAll j.first (fun s t => tileGo (setWbit s (gtReg t 0) 2 j.drain) t) s1
  forAll (jobChans s j false) (fun s c => chanGo s c) (forAll j.cores coreGo s2)

/-- The next image of a job on each core that has finished one (R446). -/
def nextTurns (s : State) (jn : Nat) (j : Job) : State :=
  match packageOf s j.plan with
  | none => s
  | some p =>
    forAll j.cores (fun s n =>
      match jobOf s jn with
      | none => s
      | some j =>
        match j.turns.find? (fun e => e.1 = n) with
        | some e =>
          if (coreOf s n).st = .done ∧ goodCode (coreOf s n).code = true then
            (match p.content.cores[e.2]? with
             | some im => coreGo (loadCore (setJob s jn (some { j with turns := j.turns.erase e })) n j.ctx im) n
             | none => s)
          else s
        | none => s) s

/-- The memories of a job's engines taken out of its translation context. -/
def unmapJob (s : State) (j : Job) : State :=
  if j.chans = [] then s
  else forAll j.cores (fun s n => unmapEngine s j.ctx (coreIo n)) (forAll j.tiles (fun s n => unmapEngine s j.ctx (tileIo n)) s)

/-- The pages a launch mapped for a job taken back: its request fails and the context is as it was before (R15, R196). -/
def unmapLaunch (s : State) (j : Job) : State := forAll j.mapped (fun s a => unmapPage s j.ctx a) s

/-- A job ends with a status (R388, R446, R469): engines still at work are cancelled, its engines unbound, their granules
released, its lines given back, the item counted in k, JOB_END sent; a launch that still waits for its engines is answered. -/
def endJob (s : State) (jn : Nat) (status : Nat) : State :=
  match jobOf s jn with
  | none => s
  | some j =>
    let how : LetGo := if goodCode status then .ended j.keep else .killed
    let s1 := forAll j.tiles (fun s n => unbindTile (releaseTile (tileCancel s n) n how) n) s
    let s2 := forAll j.cores (fun s n => unbindCore (releaseCore (coreCancel s n) n how) n) s1
    let s3 := forAll j.chans (fun s c => unbindChan (chanCancel s c) c) s2
    let s4 := setJob (closeExports (unmapJob s3 j) (2, jn)) jn none
    let s5 := if goodCode status ∧ status ≠ stEMPTY then itemDone s4 j.plan j.variant j.measured j.estimate else s4
    let s6 := if j.st = .placed then answer (unmapLaunch s5 j) j.req.sess j.req.seq j.req.typ j.req.ctx status [detailTlv 8 jn] else s5
    notify s6 j.ctx 0x0035 status 6 okJOB jn (leBytes 4 j.plan ++ leBytes 2 j.variant)
      [(0x0013, energyState s6 j.ctx), (0x0014, jobEnergy j)]

/-- The codes of a job's engines that have ended. A tile of a string that the job did not start is idle; while its loading programs run no
engine but their channels counts. -/
def jobCodes (s : State) (j : Job) : List (EngState × Nat) :=
  let chan (c : Nat) : EngState × Nat := match (chanOf s c).st with
    | .done => (.done, (chanOf s c).code) | .error => (.error, (chanOf s c).code) | _ => (.running, 0)
  if j.loading then (.running, 0) :: (jobChans s j true).map chan
  else
  (j.tiles.map (fun n => (match (tileOf s n).st with | .idle => (EngState.done, stEMPTY) | st => (st, (tileOf s n).code)))) ++
  (j.cores.map (fun n => ((coreOf s n).st, (coreOf s n).code))) ++
  j.chans.map chan

/-- The status with which a job ends now, none while it runs: the code of a failed engine, else when all engines are done
EMPTY if all are EMPTY, else OK. -/
def jobEndsWith (s : State) (j : Job) : Option Nat :=
  let l := jobCodes s j
  match l.find? (fun p => p.1 = .error || (p.1 = .done && !goodCode p.2)) with
  | some p => some p.2
  | none =>
    if l.all (fun p => decide (p.1 = .done)) then some (if l.all (fun p => p.2 = stEMPTY) then stEMPTY else stOK) else none

/-- A running job examined: its next images start, its engines once they are loaded, and it ends when they have (R202, R388, R446). -/
def jobCheck (s : State) (jn : Nat) (j : Job) : State :=
  let s1 := nextTurns s jn j
  if j.loading && (jobChans s1 j true).all (fun c => decide ((chanOf s1 c).st = .done) && goodCode (chanOf s1 c).code) then goJob s1 jn j
  else match jobEndsWith s1 j with | some c => endJob s1 jn c | none => s1

/-- Jobs examined after an engine has ended. -/
def jobsCheck (s : State) : State :=
  forAll (jobList s) (fun s jn => match jobOf s jn with
    | some j => if j.st = .running then jobCheck s jn j else s
    | none => s) s

end Sys2Proof.Machine
end

