-- ==== Sys2Proof/Machine/Fit.lean ====
section
/-!
DEFINITION. Sys2Proof/Machine/Fit.lean: Apgil's choice of stripe height, variant and strings, and the placement of logical tiles on
physical ones (R190, R192, R193, R206).
-/
namespace Sys2Proof.Machine

/-! ### The choice (R192) -/

/-- An affine need at a width and a height (R190). -/
def needAt (a : Affine) (w h : Nat) : Nat := a.a + a.b * w + a.c * h

/-- The plan's time of a segment for a shape, in ns: cycles of the tile's 2 ns clock (R190). -/
def segTime (g : Segment) (w h : Nat) : Nat := 2 * needAt g.cycles w h

/-- Whether a segment fits one tile's memories (R192). -/
def segFits (g : Segment) (w h : Nat) : Bool :=
  decide (needAt g.am w h ≤ 0x200000) && decide (needAt g.wm w h ≤ 0x100000) && decide (needAt g.pm w h ≤ 0x80000) &&
    decide (needAt g.imem w h ≤ 0x10000)

/-- The time of the slowest tile per stripe, in ns. -/
def slowest (v : Variant) (w h : Nat) : Nat := v.segs.foldl (fun m g => max m (segTime g w h)) 0

/-- Strings needed: each at most 90 % busy. The rate is in mHz, the number of stripes of a frame `k`. -/
def stringsNeeded (v : Variant) (rate k w h : Nat) : Nat :=
  max 1 (ceilDiv (rate * k * slowest v w h * 10) (1000 * 1000000000 * 9))

/-- A choice: height, variant, strings. -/
structure Choice where
  h : Nat
  v : Nat
  strings : Nat
  deriving DecidableEq, Repr

/-- The allowed heights, largest first (R190). -/
def heightsOf (mask : Nat) : List Nat := ((List.range 16).filter (fun i => mask.testBit i)).reverse.map (fun i => 8 * (i + 1))

/-- The receptive radius of a plan at a height (R190). -/
def radiusAt (c : PlanContent) (h : Nat) : Nat := ((c.radii.find? (fun e => e.h = h)).map (fun e => e.radius)).getD 0

/-- The best of some variants at one height: fewest tiles, then fewest strings, then listed first. -/
def bestAt (c : PlanContent) (only : List Nat) (free rate height w h : Nat) : Option (Nat × Nat × Nat) :=
  (c.variants.zipIdx).foldl (fun best p =>
    let v := p.1
    if !decide (p.2 ∈ only) || !v.segs.all (fun g => segFits g w h) || v.segs.isEmpty then best
    else
      let st := stringsNeeded v rate (ceilDiv height h) w h
      let total := st * v.segs.length
      if 8 < st ∨ free < total then best
      else match best with
        | none => some (p.2, st, total)
        | some b => if total < b.2.2 ∨ (total = b.2.2 ∧ st < b.2.1) then some (p.2, st, total) else best) none

/-- R192: the largest height at which some variant fits. -/
def chooseAll (c : PlanContent) (only hs : List Nat) (free rate height w : Nat) : Option Choice :=
  hs.findSome? (fun h => (bestAt c only free rate height w h).map (fun b => { h := h, v := b.1, strings := b.2.1 }))

/-- Whether a stream's strings hold a tile. -/
def heldTile (s : State) (n : Nat) : Bool :=
  s.streams.any (fun e => match e.2 with | some x => x.strings.any (fun g => decide (n ∈ g.tiles)) | none => false)

/-- Whether a tile is free to take a segment: in service, unbound, not at work (R192, R206). A SLOW tile in service is free like any other. -/
def freeTile (s : State) (n : Nat) : Bool :=
  tileInService s n && decide (tileCtx s n = none) && !heldTile s n && !decide (.tile n ∈ s.resetting) &&
    (decide ((tileOf s n).st = .idle) || decide ((tileOf s n).st = .done))

/-- The tiles in service that are free (R192, R206). -/
def freeTiles (s : State) : List Nat := (List.range 72).filter (freeTile s)

/-! ### Placement (R193) -/

/-- The ring groups of a variant (R190): the logical tiles of each. -/
def ringGroups (v : Variant) : List (List Nat) :=
  ((v.segs.filter (fun g => decide (g.ring ≠ 0))).map (fun g => g.ring)).eraseDups.map (fun k =>
    (v.segs.filter (fun g => g.ring = k)).map (fun g => g.logical))

/-- The serpentine order of the tiles. -/
def serpentine : List Nat :=
  (List.range 12) ++ (List.range 12).map (fun i => 23 - i) ++ (List.range 12).map (fun i => 24 + i) ++
    (List.range 12).map (fun i => 47 - i) ++ (List.range 12).map (fun i => 48 + i) ++ (List.range 12).map (fun i => 71 - i)

/-- The first run of k places of a list that are all free. -/
def firstRun (free : List Nat) (k : Nat) : List Nat → Option (List Nat)
  | [] => if k = 0 then some [] else none
  | n :: t => if k ≤ (n :: t).length ∧ ((n :: t).take k).all (fun m => decide (m ∈ free)) then some ((n :: t).take k) else firstRun free k t

/-- How unevenly tiles lie over the four DMA clusters: the sum of the squares of their counts. -/
def spread (l : List Nat) : Nat :=
  ((List.range 4).map (fun k => let n := (l.filter (fun t => t % 12 / 3 = k)).length; n * n)).sum

/-- The places a ring group of g tiles may take: one row first, else two adjacent rows. -/
def ringPlaces (free : List Nat) (g : Nat) : List (List Nat) :=
  let ok (l : List Nat) : Bool := l.all (fun t => decide (t ∈ free))
  let one := (List.range 6).flatMap (fun r => (List.range 12).filterMap (fun c =>
    let l := (List.range g).map (fun i => 12 * r + c + i)
    if c + g ≤ 12 ∧ ok l then some l else none))
  if one ≠ [] then one
  else
    let a := ceilDiv g 2; let b := g / 2
    (List.range 6).flatMap (fun r => ([r + 1] ++ (if 0 < r then [r - 1] else [])).flatMap (fun q => (List.range 12).filterMap (fun c =>
      let l := (List.range a).map (fun i => 12 * r + c + i) ++ ((List.range b).map (fun i => 12 * q + c + i)).reverse
      if q < 6 ∧ c + a ≤ 12 ∧ ok l then some l else none)))

/-- The place of a ring group: spread most evenly, then the lowest first index. -/
def ringPlace (free : List Nat) (g : Nat) : Option (List Nat) := minBy (fun l => spread l * 128 + l.headD 0) (ringPlaces free g)

/-- Ring groups placed in turn: each logical tile with its physical one. -/
def placeRings : List (List Nat) → List Nat → Option (List (Nat × Nat))
  | [], _ => some []
  | g :: t, free =>
    match ringPlace free g.length with
    | none => none
    | some l => (placeRings t (free.filter (fun n => !decide (n ∈ l)))).map (fun m => g.zip l ++ m)

/-- Tiles that a list of placements does not take. -/
def without (free : List Nat) (m : List (Nat × Nat)) : List Nat := free.filter (fun n => !m.any (fun p => p.2 = n))

/-- The ring groups of n strings placed, before any string. -/
def placeRingSets (v : Variant) : Nat → List Nat → Option (List (List (Nat × Nat)))
  | 0, _ => some []
  | n + 1, free =>
    match placeRings (ringGroups v) free with
    | none => none
    | some m => (placeRingSets v n (without free m)).map (fun l => m :: l)

/-- Strings placed one after the other, each in the first run that is long enough for its tiles outside ring groups. The physical tiles come
in segment order. -/
def placeRuns (v : Variant) : List (List (Nat × Nat)) → List Nat → Option (List (List Nat))
  | [], _ => some []
  | rings :: t, free =>
    let rest := v.segs.filter (fun g => g.ring = 0)
    match firstRun free rest.length serpentine with
    | none => none
    | some run =>
      let all := rings ++ (rest.map (fun g => g.logical)).zip run
      (placeRuns v t (free.filter (fun n => !decide (n ∈ run)))).map (fun l =>
        v.segs.filterMap (fun g => (all.find? (fun p => p.1 = g.logical)).map (fun p => p.2)) :: l)

/-- Every string of a choice placed: the ring groups of all first, then the strings. -/
def placeStrings (n : Nat) (free : List Nat) (v : Variant) : Option (List (List Nat)) :=
  match placeRingSets v n free with
  | none => none
  | some sets => placeRuns v sets (without free sets.flatten)

/-- What a Stroke gets: its height, variant and the tiles of its strings. -/
structure Fit where
  h : Nat
  variant : Nat
  strings : List (List Nat)
  deriving DecidableEq, Repr

/-- A choice among some variants placed on a pool of tiles. -/
def fitIn (pool : List Nat) (c : PlanContent) (only hs : List Nat) (rate height width : Nat) : Option Fit :=
  match chooseAll c only hs pool.length rate height width with
  | none => none
  | some ch => match c.variants[ch.v]? with
    | none => none
    | some v => (placeStrings ch.strings pool v).map (fun l => { h := ch.h, variant := ch.v, strings := l })

/-- A choice among some variants placed on the tiles then free and on those the stream holds. -/
def fitFor (s : State) (c : PlanContent) (only hs held : List Nat) (rate height width : Nat) : Option Fit :=
  fitIn ((List.range 72).filter (fun t => freeTile s t || decide (t ∈ held))) c only hs rate height width

/-- The stripe heights of a plan, largest first (R190). -/
def planHeights (c : PlanContent) : List Nat := heightsOf c.heights

end Sys2Proof.Machine
end

