-- ==== Sys2Proof/Machine/Layer.lean ====
section
/-!
DEFINITION. Sys2Proof/Machine/Layer.lean: one LAYER record of a Graver tile (R115 to R117, R126 to R134, R142 to R168): shapes,
operands, accumulation, epilogue, writes. A layer is its 32 words, loop steps and pointer entry added.
-/
namespace Sys2Proof.Machine

/-! ### Fields -/

def lw (l : List Word) (k : Nat) : Word := l.getD k 0
def lf (l : List Word) (k hi lo : Nat) : Nat := fld (lw l k) hi lo
def lb (l : List Word) (k i : Nat) : Bool := bitOf (lw l k) i

def lOp (l : List Word) : Nat := lf l 0 3 0
def lAct (l : List Word) : Nat := lf l 0 7 4
def lWgt (l : List Word) : Nat := lf l 0 11 8
def lOut (l : List Word) : Nat := lf l 0 15 12

/-- Whether the operation uses the array (R127). -/
def lArray (l : List Word) : Bool := decide (lOp l < 3)

/-- Bits of an element of a format (R128, R142). -/
def fmtBits (f : Nat) : Nat :=
  if f = 0 ∨ f = 9 then 4 else if f = 2 ∨ f = 5 ∨ f = 6 then 16 else if f = 11 then 32 else 8

/-- Integer formats, microscaling formats. -/
def fmtInt (f : Nat) : Bool := decide (f < 3)
def fmtMx (f : Nat) : Bool := decide (7 ≤ f) && decide (f ≤ 10)

/-- The floating layout of a format's elements. -/
def fmtFp (f : Nat) : FpFmt :=
  if f = 3 ∨ f = 7 then fpE4M3 else if f = 4 ∨ f = 8 then fpE5M2 else if f = 5 then fpBF16
  else if f = 9 then fpE2M1 else fpFP16

/-- The NaN code written in a format (R150). -/
def fmtNan (f : Nat) : Nat := if f = 5 then 0x7FC0 else if f = 6 then 0x7E00 else 0x7F

/-- An element's value as a floating number: MXINT8 codes count 2⁻⁶. -/
def fmtValue (f v : Nat) : Fv :=
  if f = 10 then (let k := sext 8 v; .fin (decide (k < 0)) k.natAbs (-6)) else fpDecode (fmtFp f) v

/-- Input and output lanes and partial-sum bytes of a format pair (R116). -/
def lanes (act wgt : Nat) : Nat × Nat × Nat :=
  if act = 0 ∨ act = 9 then (128, 128, 4)
  else if act = 2 then (32, 128, 8)
  else if act = 5 ∨ act = 6 then (32, 64, 4)
  else if wgt = 0 then (64, 128, 4) else (64, 128, 4)

/-- The regroup factor (R126). -/
def rgF (l : List Word) : Nat := 2 ^ lf l 19 3 2
def rgMode (l : List Word) : Nat := lf l 19 1 0
def rgAfter (l : List Word) : Bool := lb l 19 4

/-- Whether the layer reads a regrouped view of its input (R166). -/
def rgIn (l : List Word) : Bool := decide (rgMode l ≠ 0) && !rgAfter l && (lArray l || decide (lOp l = 4))
def rgOut (l : List Word) : Bool := decide (rgMode l ≠ 0) && rgAfter l && lArray l

/-- The held input: width, height, channels. -/
def heldDims (l : List Word) : Nat × Nat × Nat := (lf l 2 13 0, lf l 2 29 16, lf l 3 14 0)

/-- The effective input (R166). -/
def effDims (l : List Word) : Nat × Nat × Nat :=
  let h := heldDims l; let f := rgF l
  if rgIn l then
    (if rgMode l = 1 then (ceilDiv h.1 f, ceilDiv h.2.1 f, h.2.2 * f * f) else (h.1 * f, h.2.1 * f, h.2.2 / (f * f)))
  else h

/-- The written tensor. -/
def outDims (l : List Word) : Nat × Nat × Nat := (lf l 6 13 0, lf l 6 29 16, lf l 7 14 0)

/-- The pooling window and stride of a layer (R167). -/
def poolW (l : List Word) : Nat := lf l 18 4 2 + 1
def poolH (l : List Word) : Nat := lf l 18 7 5 + 1
def poolSx (l : List Word) : Nat := lf l 18 10 8 + 1
def poolSy (l : List Word) : Nat := lf l 18 13 11 + 1
def poolMode (l : List Word) : Nat := lf l 18 1 0

/-- What an array layer computes before pooling, and after it (R166, R167). -/
def pooledDims (l : List Word) : Nat × Nat × Nat :=
  let o := outDims l; let f := rgF l
  if rgOut l then
    (if rgMode l = 2 then (ceilDiv o.1 f, ceilDiv o.2.1 f, o.2.2 * f * f) else (o.1 * f, o.2.1 * f, o.2.2 / (f * f)))
  else o
def compDims (l : List Word) : Nat × Nat × Nat :=
  let p := pooledDims l
  if poolMode l = 0 then p else (p.1 * poolW l, p.2.1 * poolH l, p.2.2)

/-- Whether a layer is empty (R132). -/
def lEmpty (l : List Word) : Bool :=
  let o := outDims l
  decide (o.1 = 0) || decide (o.2.1 = 0) || decide (o.2.2 = 0)

/-! ### Tile memories -/

def amBase (n : Nat) : Nat := tileBase n
def wmBase (n : Nat) : Nat := tileBase n + 0x200000
def pmBase (n : Nat) : Nat := tileBase n + 0x300000
def imemBase (n : Nat) : Nat := tileBase n + 0x380000

/-- The AM byte offset and nibble of an element (R115). -/
def elemAt (bits bank off row plane c x y : Nat) : Nat × Nat :=
  (((bank + c) % 64) * 32768 + off + c / 64 * plane + y * row + x * bits / 8, if bits = 4 then x % 2 else 0)

/-- An element's code read from a tile's AM. -/
def amRead (s : State) (n bits : Nat) (p : Nat × Nat) : Nat :=
  if bits = 4 then numAt s (amBase n + p.1) 1 / (if p.2 = 1 then 16 else 1) % 16 else numAt s (amBase n + p.1) (bits / 8)

/-- The code of the held input at channel c, column x, row y. -/
def heldCode (s : State) (n : Nat) (l : List Word) (second : Bool) (c x y : Nat) : Nat :=
  let w := if second then 29 else 1
  amRead s n (fmtBits (lAct l))
    (elemAt (fmtBits (lAct l)) (lf l w 20 15) (lf l w 14 0) (lf l 4 14 0) (lf l 4 30 16) c x y)

/-- The scale code of the held input's block (R144). -/
def heldScale (s : State) (n : Nat) (l : List Word) (second : Bool) (c x y : Nat) : Nat :=
  let k := c / 32
  let w := if second then 29 else 1
  amRead s n 8 (elemAt 8 (lf l w 20 15) (lf l w 14 0 + ceilDiv (lf l 3 14 0) 64 * lf l 4 30 16) (lf l 4 14 0) (lf l 4 30 16) k x y)

/-- The held element behind an element of the effective input, none outside the held region (R165). -/
def effSource (l : List Word) (c x y : Nat) : Option (Nat × Nat × Nat) :=
  let h := heldDims l; let f := rgF l
  if rgIn l then
    if rgMode l = 1 then
      let q := c / max 1 h.2.2
      let sx := f * x + q % f; let sy := f * y + q / f
      if sx < h.1 ∧ sy < h.2.1 then some (c % max 1 h.2.2, sx, sy) else none
    else
      let oc := h.2.2 / (f * f)
      some ((f * (y % f) + x % f) * oc + c, x / f, y / f)
  else some (c, x, y)

/-- The effective input's element at integer coordinates, none for padding (R131). -/
def inputAt (l : List Word) (c : Nat) (ix iy : Int) : Option (Nat × Nat × Nat) :=
  let e := effDims l
  if 0 ≤ ix ∧ ix < (e.1 : Int) ∧ 0 ≤ iy ∧ iy < (e.2.1 : Int) then effSource l c ix.toNat iy.toNat else none

/-- The pad value's code. -/
def padCode (l : List Word) : Nat := lf l 11 15 0 % 2 ^ fmtBits (lAct l)

/-- Zero points as signed values of their formats (R146, R149). -/
def inZp (l : List Word) : Int := if fmtInt (lAct l) then sext 16 (lf l 16 15 0) else 0
def outZp (l : List Word) : Int := if fmtInt (lOut l) then sext (fmtBits (lOut l)) (lf l 16 31 16) else 0

/-- An activation after its zero point: integer formats. -/
def actInt (s : State) (n : Nat) (l : List Word) (c : Nat) (ix iy : Int) : Int :=
  match inputAt l c ix iy with
  | some p => sext (fmtBits (lAct l)) (heldCode s n l false p.1 p.2.1 p.2.2) - inZp l
  | none => sext (fmtBits (lAct l)) (padCode l) - inZp l

/-- A floating value times 2^k. -/
def fvScale (v : Fv) (k : Int) : Fv := match v with | .fin a m e => .fin a m (e + k) | w => w

/-- A floating value under an E8M0 scale code (R145). -/
def underScale (v : Fv) (code : Nat) : Fv := if code = 255 then .nan else fvScale v ((code : Int) - 127)

/-- The floating value of the held input at channel c, column x, row y. -/
def heldFv (s : State) (n : Nat) (l : List Word) (second : Bool) (c x y : Nat) : Fv :=
  let v := fmtValue (lAct l) (heldCode s n l second c x y)
  if fmtMx (lAct l) then underScale v (heldScale s n l second c x y) else v

/-- An activation: floating and microscaling formats. -/
def actFv (s : State) (n : Nat) (l : List Word) (c : Nat) (ix iy : Int) : Fv :=
  match inputAt l c ix iy with
  | some p => heldFv s n l false p.1 p.2.1 p.2.2
  | none => fmtValue (lAct l) (padCode l)

/-! ### Weight sets (R159) -/

/-- Bytes of a set. -/
def setSize (l : List Word) : Nat :=
  let w := lWgt l
  if lOp l = 2 then (if fmtMx w then 128 else 64)
  else if w = 9 then 8704 else if fmtMx w then 8448
  else if lAct l = 2 then 4096 else if w = 5 ∨ w = 6 then 4096 else 8192

/-- A 4- to 16-bit element of a byte string in WM. -/
def wmElem (s : State) (n bits base i : Nat) : Nat :=
  if bits = 4 then numAt s (wmBase n + base + i / 2) 1 / (if i % 2 = 1 then 16 else 1) % 16
  else numAt s (wmBase n + base + i * (bits / 8)) (bits / 8)

/-- The code of the weight of a set from input lane i to output lane j, and its block's scale code. -/
def weightCode (s : State) (n : Nat) (l : List Word) (set il ol i j : Nat) : Nat × Nat :=
  let base := lf l 12 19 0 + set * setSize l
  let bits := fmtBits (lWgt l)
  if fmtMx (lWgt l) then
    let blk := 1 + 32 * bits / 8
    let row := if lOp l = 2 then 0 else j * (il / 32) * blk
    let at' := base + row + i / 32 * blk
    (wmElem s n bits (at' + 1) (i % 32), numAt s (wmBase n + at') 1)
  else (wmElem s n bits base (if lOp l = 2 then i else i * ol + j), 127)

/-- A weight as an integer, as a floating value. -/
def weightInt (s : State) (n : Nat) (l : List Word) (set il ol i j : Nat) : Int :=
  sext (fmtBits (lWgt l)) (weightCode s n l set il ol i j).1
def weightFv (s : State) (n : Nat) (l : List Word) (set il ol i j : Nat) : Fv :=
  let w := weightCode s n l set il ol i j
  if fmtMx (lWgt l) then underScale (fmtValue (lWgt l) w.1) w.2 else fmtValue (lWgt l) w.1

/-! ### The loop of R130 -/

/-- What the loop of a layer needs: lanes, groups, kernel, block. -/
structure LoopDims where
  il : Nat
  ol : Nat
  ps : Nat
  groups : Nat
  cig : Nat
  cog : Nat
  igs : Nat
  cgs : Nat
  kw : Nat
  kh : Nat
  bw : Nat
  bh : Nat
  bxs : Nat
  bys : Nat
  deriving DecidableEq, Repr

/-- The loop of a layer (R130, R159, R160). DIAG treats a group of input lanes as the group of outputs. -/
def loopDims (l : List Word) : LoopDims :=
  let a := lanes (lAct l) (lWgt l)
  let e := effDims l; let o := compDims l
  let diag := decide (lOp l = 2)
  let g := if diag then 1 else max 1 (lf l 3 30 16)
  let cig := e.2.2 / g; let cog := o.2.2 / g
  let bw := max 1 (lf l 27 10 0); let bh := max 1 (lf l 27 22 16)
  { il := a.1, ol := a.2.1, ps := a.2.2, groups := g, cig := cig, cog := cog,
    igs := if diag then 1 else ceilDiv cig a.1, cgs := if diag then ceilDiv e.2.2 a.1 else ceilDiv cog a.2.1,
    kw := if lOp l = 1 then 1 else lf l 9 3 0 + 1, kh := if lOp l = 1 then 1 else lf l 9 7 4 + 1,
    bw := bw, bh := bh, bxs := ceilDiv o.1 bw, bys := ceilDiv o.2.1 bh }

/-- The input column and row of a tap (R131). -/
def tapX (l : List Word) (ox kx : Nat) : Int :=
  ((ox * (lf l 9 10 8 + 1) : Nat) : Int) - sext 16 (lf l 10 15 0) + ((kx * lf l 9 22 16 : Nat) : Int)
def tapY (l : List Word) (oy ky : Nat) : Int :=
  ((oy * (lf l 9 13 11 + 1) : Nat) : Int) - sext 16 (lf l 10 31 16) + ((ky * lf l 9 29 23 : Nat) : Int)

/-- Whether culling applies at all (R133). -/
def cullOn (l : List Word) : Bool :=
  lb l 0 22 && (if fmtInt (lAct l) then decide (sext (fmtBits (lAct l)) (padCode l) = inZp l) else decide (padCode l = 0))

/-- Whether a tap of a block is culled (R133): every valid column, or every valid row, reads outside the input. -/
def culled (l : List Word) (d : LoopDims) (bx byy kx ky : Nat) : Bool :=
  let e := effDims l; let o := compDims l
  let x0 := bx * d.bw; let x1 := min ((bx + 1) * d.bw) o.1
  let y0 := byy * d.bh; let y1 := min ((byy + 1) * d.bh) o.2.1
  cullOn l &&
    (((List.range (x1 - x0)).all (fun i => decide (tapX l (x0 + i) kx < 0) || decide ((e.1 : Int) ≤ tapX l (x0 + i) kx))) ||
     ((List.range (y1 - y0)).all (fun i => decide (tapY l (y0 + i) ky < 0) || decide ((e.2.1 : Int) ≤ tapY l (y0 + i) ky))))

/-- The taps of a block that are computed. -/
def liveTaps (l : List Word) (d : LoopDims) (bx byy : Nat) : List (Nat × Nat) :=
  (List.range d.kh).flatMap (fun ky => (List.range d.kw).filterMap (fun kx =>
    if culled l d bx byy kx ky then none else some (kx, ky)))

/-- The number of a weight set (R159). -/
def setNumber (l : List Word) (d : LoopDims) (cgi ig kx ky : Nat) : Nat :=
  if lOp l = 2 then cgi * (d.kw * d.kh) + ky * d.kw + kx
  else ((cgi * d.igs) + ig) * (d.kw * d.kh) + ky * d.kw + kx

/-- The output channel of lane j of the lane group cgi, none for an invalid lane. -/
def outChan (l : List Word) (d : LoopDims) (cgi j : Nat) : Option Nat :=
  if lOp l = 2 then (if j < d.il ∧ cgi * d.il + j < d.cog then some (cgi * d.il + j) else none)
  else
    let k := cgi % d.cgs * d.ol + j
    if k < d.cog then some (cgi / d.cgs * d.cog + k) else none

/-- The input channel of lane i of lane group ig for the lane group cgi, none for an invalid lane. -/
def inChan (l : List Word) (d : LoopDims) (cgi ig i : Nat) : Option Nat :=
  if lOp l = 2 then (if cgi * d.il + i < d.cig then some (cgi * d.il + i) else none)
  else
    let k := ig * d.il + i
    if k < d.cig then some (cgi / d.cgs * d.cig + k) else none

/-- Lanes that feed output lane j: all input lanes, or its own in diagonal mode (R116). -/
def feeding (l : List Word) (d : LoopDims) (j : Nat) : List Nat := if lOp l = 2 then [j] else List.range d.il

/-- One exact lane sum of integers (R146). -/
def laneSum (s : State) (n : Nat) (l : List Word) (d : LoopDims) (cgi ig j : Nat) (ix iy : Int) (kx ky : Nat) : Int :=
  ((feeding l d j).map (fun i => match inChan l d cgi ig i with
    | some c => actInt s n l c ix iy * weightInt s n l (setNumber l d cgi ig kx ky) d.il d.ol i j
    | none => 0)).foldl (· + ·) 0

/-- An integer partial sum (R147): lane sums added one after another; at a limit it stays there for the rest of the block. -/
def sumInt (bits : Nat) (init : Int) (terms : List Int) : Int × Bool :=
  terms.foldl (fun a t => if a.2 then a else
    let v := a.1 + t
    let c := satS bits v
    (c, decide (c ≠ v))) (init, false)

/-- The products of a floating or microscaling pair for one tap and lane group: one for each lane, or for each pair of
blocks the exact block sum rounded to FP32 (R143, R145). -/
def laneTerms (s : State) (n : Nat) (l : List Word) (d : LoopDims) (cgi ig j : Nat) (valid : Bool) (ix iy : Int) (kx ky : Nat) :
    List Fv :=
  let zero : Fv := .fin false 0 0
  let prod (i : Nat) : Fv :=
    match inChan l d cgi ig i with
    | none => zero
    | some c =>
      let a := if valid then actFv s n l c ix iy else zero
      let w := if (outChan l d cgi j).isSome then weightFv s n l (setNumber l d cgi ig kx ky) d.il d.ol i j else zero
      fvMul a w
  if fmtMx (lAct l) then
    (List.range (d.il / 32)).map (fun b =>
      fpRound fpFP32 .even false (((feeding l d j).filter (fun i => i / 32 = b)).foldl (fun a i => fvAdd a (prod i)) zero))
  else (feeding l d j).map prod

/-- The partial sum of one lane at one block position: its bits, and whether an integer sum saturated. -/
def partialSum (s : State) (n : Nat) (l : List Word) (d : LoopDims) (taps : List (Nat × Nat)) (cgi j ox oy : Nat) (init : Nat) :
    Nat × Bool :=
  let o := compDims l
  let valid := decide (ox < o.1) && decide (oy < o.2.1)
  let steps := (List.range d.igs).flatMap (fun ig => taps.map (fun t => (ig, t)))
  if fmtInt (lAct l) then
    let bits := if d.ps = 8 then 48 else 32
    let i0 := sext bits init
    if valid && (outChan l d cgi j).isSome then
      let r := sumInt bits i0 (steps.map (fun p => laneSum s n l d cgi p.1 j (tapX l ox p.2.1) (tapY l oy p.2.2) p.2.1 p.2.2))
      (wrapI (8 * d.ps) r.1, r.2)
    else (wrapI (8 * d.ps) i0, false)
  else
    let v := steps.foldl (fun a p =>
      fpSumOf .even (Config.fpOrder s.free [0, cgi, j, ox, oy, p.1, p.2.1, p.2.2])
        (a :: laneTerms s n l d cgi p.1 j valid (tapX l ox p.2.1) (tapY l oy p.2.2) p.2.1 p.2.2)) (f32 init)
    (f32Bits v, false)

/-! ### Epilogue (R134, R148 to R152, R155) -/

/-- A value between the steps of the epilogue: an integer code, or an FP32 value. -/
inductive Ev where
  | int (v : Int)
  | fp (v : Fv)
  deriving DecidableEq, Repr

/-- Bias and requantisation (R148, R149) of a partial sum's bits. -/
def requant (s : State) (n : Nat) (l : List Word) (accInt : Bool) (accBits c acc : Nat) : Ev :=
  let bias := if lb l 0 19 then numAt s (wmBase n + lf l 14 19 0 + 4 * c) 4 else 0
  let m := numAt s (wmBase n + lf l 15 19 0 + 8 * c) 4
  let sh := numAt s (wmBase n + lf l 15 19 0 + 8 * c + 4) 4 % 64
  let out := lOut l
  if accInt then
    let t := satS accBits (sext accBits acc + sext 32 bias)
    if out = 11 then .int (satS 32 t)
    else if fmtInt out then .int (satS (fmtBits out) (satS 32 (sar (t * sext 32 m) sh) + outZp l))
    else .fp (fMulZ (fpRound fpFP32 .zero false (fvInt t)) (f32 m))
  else
    let a := fAddZ (f32 acc) (f32 bias)
    if out = 11 then .fp (if lb l 0 19 then a else f32 acc)
    else if fmtInt out then .int (satS (fmtBits out) (fvFloorSat 32 (fMulZ a (f32 m)) + outZp l))
    else .fp (fMulZ a (f32 m))

/-- A word of a nonlinear table's segment (R153). -/
def nlfWord (s : State) (n table seg k : Nat) : Nat := (word s (gtReg n (0x800 + table * 0x400 + seg * 16 + k * 4))).toNat

/-- Segments of a table in use (R152): up to the first whose start is not above the one before; `ends i j` says whether the
start of segment i is at most that of segment j (with a NaN it is not, so a NaN ends no table). -/
def nlfUsed (ends : Nat → Nat → Bool) : Nat → Nat → Nat
  | 0, i => i
  | fuel + 1, i => if i = 0 then nlfUsed ends fuel 1 else if 64 ≤ i then 64 else if ends i (i - 1) then i else nlfUsed ends fuel (i + 1)

/-- The nonlinear unit (R152). -/
def nlf (s : State) (n : Nat) (l : List Word) (v : Ev) : Ev :=
  let sel := lf l 0 24 23
  if sel = 0 ∨ sel = 3 then v
  else
    let t := sel - 1
    match v with
    | .int x =>
      let st (i : Nat) : Int := sext 32 (nlfWord s n t i 0)
      let used := nlfUsed (fun a b => decide (st a ≤ st b)) 70 0
      let seg := ((List.range used).filter (fun i => decide (i = 0) || decide (st i ≤ x))).getLast?.getD 0
      .int (satS (fmtBits (lOut l)) (sext 32 (nlfWord s n t seg 1) +
        sar ((x - st seg) * sext 32 (nlfWord s n t seg 2)) (nlfWord s n t seg 3 % 64)))
    | .fp x =>
      if isNan x then .fp .nan
      else
        let st (i : Nat) : Fv := f32 (nlfWord s n t i 0)
        let used := nlfUsed (fun a b => fvLe (st a) (st b)) 70 0
        let seg := ((List.range used).filter (fun i => decide (i = 0) || fvLe (st i) x)).getLast?.getD 0
        .fp (fAddZ (fMulZ (fSubZ x (st seg)) (f32 (nlfWord s n t seg 2))) (f32 (nlfWord s n t seg 1)))

/-- The clamp bounds of a floating out_fmt. -/
def clampFv (l : List Word) (max' : Bool) : Fv :=
  let code := if max' then lf l 28 31 16 else lf l 28 15 0
  if fmtMx (lOut l) then fpDecode fpBF16 code else fpDecode (fmtFp (lOut l)) (code % 2 ^ fmtBits (lOut l))

/-- The clamp (R155). -/
def clampEv (l : List Word) (v : Ev) : Ev :=
  match v with
  | .int x => .int (clampI (sext (fmtBits (lOut l)) (lf l 28 15 0)) (sext (fmtBits (lOut l)) (lf l 28 31 16)) x)
  | .fp x => .fp (fvClamp (clampFv l false) (clampFv l true) x)

/-- Steps 1 to 4 of the epilogue; PSUM32 takes only the first. -/
def finish (s : State) (n : Nat) (l : List Word) (accInt : Bool) (accBits c acc : Nat) : Ev :=
  let v := requant s n l accInt accBits c acc
  if lOut l = 11 then v else clampEv l (nlf s n l v)

/-- Pooling of a window's values (R155, R167), a floating mean's additions in the order `order`; none for an empty window. -/
def poolEv (mode : Nat) (order : Nat → Nat) : List Ev → Option Ev
  | [] => none
  | v :: t =>
    if mode = 1 then
      some (t.foldl (fun a b => match a, b with
        | .int x, .int y => .int (if x < y then y else x)
        | .fp x, .fp y => .fp (fvMax x y)
        | a, _ => a) v)
    else
      match v with
      | .int x => some (.int ((t.foldl (fun a b => match b with | .int y => a + y | .fp _ => a) x) / ((t.length + 1 : Nat) : Int)))
      | .fp x => some (.fp (fDivNat
          (fpSumOf .zero order (x :: t.map (fun b => match b with | .fp y => y | .int _ => .fin false 0 0))) (t.length + 1)))

/-! ### Writing (R115, R132, R150, R151) -/

/-- A value's code in a format that is not a microscaling one. -/
def narrow (f : Nat) (v : Ev) : Nat :=
  match v with
  | .int x => wrapI (fmtBits f) x
  | .fp x => if f = 11 then f32Bits x else fpEncode (fmtFp f) (fmtNan f) (fpRound (fmtFp f) .zero true x)

/-- The exponent of the leading bit of a magnitude. -/
def floorLog2 (m : Nat) (e : Int) : Int := (Nat.log2 m : Nat) + e

/-- A microscaling block of values (R151): its scale code and element codes. An infinity is above every finite magnitude, so
that it takes the scale to its limit of 127. -/
def mxBlock (f : Nat) (vs : List Fv) : Nat × List Nat :=
  if vs.any isNan then (255, vs.map (fun _ => 0))
  else
    let emax : Int := if f = 7 then 8 else if f = 8 then 15 else if f = 9 then 2 else 0
    let lead := vs.filterMap (fun v => match v with | .fin _ m e => if m = 0 then none else some (floorLog2 m e) | _ => some 1024)
    match lead with
    | [] => (0, vs.map (fun v => if f = 10 then 0 else fpEncode (fmtFp f) 0 (match v with | .fin n _ _ => .fin n 0 0 | _ => v)))
    | a :: t =>
      let x := clampI (-127) 127 (t.foldl max a - emax)
      ((x + 127).toNat,
       vs.map (fun v =>
         let u := fvScale v (-x)
         if f = 10 then wrapI 8 (clampI (-128) 127 (fvFloorSat 32 (fvScale u 6)))
         else fpEncode (fmtFp f) (fmtNan f) (fpRound (fmtFp f) .zero true u)))

/-- One element to write: AM byte offset, nibble, bits, code. -/
structure ElemW where
  addr : Nat
  nib : Nat
  bits : Nat
  code : Nat
  deriving DecidableEq, Repr

/-- The element of the written tensor. -/
def outElem (l : List Word) (c x y code : Nat) : ElemW :=
  let b := fmtBits (lOut l)
  let p := elemAt b (lf l 5 20 15) (lf l 5 14 0) (lf l 8 14 0) (lf l 8 30 16) c x y
  { addr := p.1, nib := p.2, bits := b, code := code }

/-- The scale of a written block (R144, R151). -/
def outScale (l : List Word) (k x y code : Nat) : ElemW :=
  let p := elemAt 8 (lf l 5 20 15) (lf l 5 14 0 + ceilDiv (lf l 7 14 0) 64 * lf l 8 30 16) (lf l 8 14 0) (lf l 8 30 16) k x y
  { addr := p.1, nib := 0, bits := 8, code := code }

/-- The writes of a position's channels (R151 for microscaling formats), given as (channel, value). -/
def writesAt (l : List Word) (x y : Nat) (vs : List (Nat × Ev)) : List ElemW :=
  if fmtMx (lOut l) then
    ((vs.map (fun p => p.1 / 32)).eraseDups).flatMap (fun k =>
      let b := vs.filter (fun p => p.1 / 32 = k)
      let r := mxBlock (lOut l) (b.map (fun p => match p.2 with | .fp v => v | .int v => fvInt v))
      outScale l k x y r.1 :: (b.zip r.2).map (fun q => outElem l q.1.1 x y q.2))
  else vs.map (fun p => outElem l p.1 x y (narrow (lOut l) p.2))

/-- A value found at a position and channel of the computed tensor. -/
abbrev Comp := List ((Nat × Nat × Nat) × Ev)

/-- The value at a position and channel. -/
def compAt (vs : Comp) (x y c : Nat) : Option Ev := (vs.find? (fun p => p.1 = (x, y, c))).map (fun p => p.2)

/-- Step 5: the pooled value at a position (R167); `fr` numbers the open order of a floating mean's sum. -/
def pooledAt (fr : Nat) (l : List Word) (vs : Comp) (x y c : Nat) : Option Ev :=
  if poolMode l = 0 ∨ lOut l = 11 then compAt vs x y c
  else
    let win := (List.range (poolH l)).flatMap (fun j => (List.range (poolW l)).filterMap (fun i =>
      compAt vs (x * poolW l + i) (y * poolH l + j) c))
    poolEv (poolMode l) (Config.fpOrder fr [1, x, y, c]) win

/-- Step 6: the value of the written tensor at a position (R165, R166). -/
def regroupedAt (fr : Nat) (l : List Word) (vs : Comp) (x y c : Nat) : Option Ev :=
  let f := rgF l; let p := pooledDims l
  if rgOut l && decide (lOut l ≠ 11) then
    if rgMode l = 2 then
      let oc := p.2.2 / (f * f)
      pooledAt fr l vs (x / f) (y / f) ((f * (y % f) + x % f) * oc + c)
    else
      let q := c / max 1 p.2.2
      pooledAt fr l vs (f * x + q % f) (f * y + q / f) (c % max 1 p.2.2)
  else pooledAt fr l vs x y c

/-- The writes of a whole pass. -/
def passWrites (fr : Nat) (l : List Word) (vs : Comp) : List ElemW :=
  let o := outDims l
  (List.range o.2.1).flatMap (fun y => (List.range o.1).flatMap (fun x =>
    writesAt l x y ((List.range o.2.2).filterMap (fun c => (regroupedAt fr l vs x y c).map (fun v => (c, v))))))

/-! ### Array layers -/

/-- Words of a layer in one pass of its pointer list (R126, R164). -/
def passLayer (s : State) (n : Nat) (l : List Word) (p : Nat) : List Word :=
  if lf l 21 12 0 = 0 then l
  else
    let base := wmBase n + lf l 20 19 0 + 16 * p
    let add (l : List Word) (k i : Nat) : List Word := l.set k (lw l k + wordAt s (base + 4 * i))
    add (add (add (add l 1 0) 5 1) 12 2) 29 3

/-- The nest of R130: (pass, lane group, block row, block column), in the visit order. -/
def nest (order p c h w : Nat) : List (Nat × Nat × Nat × Nat) :=
  let P := List.range p; let C := List.range c; let H := List.range h; let W := List.range w
  if order = 1 then P.flatMap (fun n => H.flatMap (fun y => W.flatMap (fun x => C.map (fun k => (n, k, y, x)))))
  else if order = 2 then P.flatMap (fun n => H.flatMap (fun y => C.flatMap (fun k => W.map (fun x => (n, k, y, x)))))
  else if order = 3 then C.flatMap (fun k => P.flatMap (fun n => H.flatMap (fun y => W.map (fun x => (n, k, y, x)))))
  else if order = 4 then H.flatMap (fun y => W.flatMap (fun x => P.flatMap (fun n => C.map (fun k => (n, k, y, x)))))
  else if order = 5 then W.flatMap (fun x => H.flatMap (fun y => P.flatMap (fun n => C.map (fun k => (n, k, y, x)))))
  else P.flatMap (fun n => C.flatMap (fun k => H.flatMap (fun y => W.map (fun x => (n, k, y, x)))))

/-- What running a layer has given so far: the state (PM), the computed values by pass, cycles, culled combinations,
whether an integer sum saturated. -/
structure RunAcc where
  st : State
  comp : List (Nat × Comp)
  cycles : Nat
  culls : Nat
  sat : Bool

/-- One block of one lane group (R117, R130, R134). -/
def runBlock (n : Nat) (l0 : List Word) (a : RunAcc) (q : Nat × Nat × Nat × Nat) : RunAcc :=
  let l := passLayer a.st n l0 q.1
  let d := loopDims l
  let o := compDims l
  let taps := liveTaps l d q.2.2.2 q.2.2.1
  let pos := (List.range d.bh).flatMap (fun by' => (List.range d.bw).map (fun bx' => (bx', by')))
  let base := pmBase n + lf l 17 18 0
  let addr (bx' by' j : Nat) : Nat := base + ((by' * d.bw + bx') * d.ol + j) * d.ps
  let sums := pos.map (fun p => (p, (List.range d.ol).map (fun j =>
    partialSum a.st n l d taps q.2.1 j (q.2.2.2 * d.bw + p.1) (q.2.2.1 * d.bh + p.2)
      (if lb l 0 20 then numAt a.st (addr p.1 p.2 j) d.ps else 0))))
  let bytes := sums.flatMap (fun p => p.2.flatMap (fun v => leBytes d.ps v.1))
  let s1 := store a.st base bytes
  let accInt := fmtInt (lAct l)
  let vals : Comp := if lb l 0 21 then [] else
    sums.flatMap (fun p =>
      let ox := q.2.2.2 * d.bw + p.1.1; let oy := q.2.2.1 * d.bh + p.1.2
      if o.1 ≤ ox ∨ o.2.1 ≤ oy then []
      else (p.2.zip (List.range d.ol)).filterMap (fun v => (outChan l d q.2.1 v.2).map (fun c =>
        ((ox, oy, c), finish a.st n l accInt (if d.ps = 8 then 48 else 32) c v.1.1))))
  { st := s1, comp := a.comp ++ [(q.1, vals)],
    cycles := a.cycles + d.bw * d.bh * (taps.length * d.igs),
    culls := a.culls + (d.kw * d.kh - taps.length) * d.igs,
    sat := a.sat || sums.any (fun p => p.2.any (fun v => v.2)) }

/-- A CONV, MATMUL or DIAG layer: the state with PM, the writes in order, cycles, culled combinations, saturation. -/
def runArray (s : State) (n : Nat) (l : List Word) : RunAcc × List ElemW :=
  let d := loopDims l
  let passes := max 1 (lf l 21 12 0)
  let r := (nest (lf l 0 18 16) passes (d.groups * d.cgs) d.bys d.bxs).foldl (runBlock n l)
    { st := s, comp := [], cycles := 0, culls := 0, sat := false }
  let ws := if lb l 0 21 then [] else
    (List.range passes).flatMap (fun p =>
      passWrites s.free (passLayer s n l p) ((r.comp.filter (fun c => c.1 = p)).flatMap (fun c => c.2)))
  (r, ws)

/-! ### Records without the array (R155, R165, R167) -/

/-- The value of an input code in act_fmt. -/
def codeEv (f v : Nat) : Ev := if fmtInt f then .int (sext (fmtBits f) v) else .fp (fmtValue f v)

/-- A code passed through the clamp unchanged (COPY, REGROUP, POOL). -/
def clampCode (l : List Word) (v : Nat) : Nat :=
  let f := lOut l
  match codeEv f v with
  | .int _ => narrow f (clampEv l (codeEv f v))
  | .fp x =>
    if fvLt x (clampFv l false) then lf l 28 15 0 % 2 ^ fmtBits f
    else if fvLt (clampFv l true) x then lf l 28 31 16 % 2 ^ fmtBits f else v

/-- The accumulator of ADD and NLF at an element (R155): its bits. -/
def elemAcc (s : State) (n : Nat) (l : List Word) (c x y : Nat) : Nat :=
  let a := heldCode s n l false c x y
  let b := heldCode s n l true c x y
  let bits := fmtBits (lAct l)
  if fmtInt (lAct l) then
    wrapI 32 (sext bits a - inZp l + (if lOp l = 5 then sext bits b - inZp l else 0))
  else
    let v := fpRound fpFP32 .zero false (heldFv s n l false c x y)
    f32Bits (if lOp l = 5 then fAddZ v (fpRound fpFP32 .zero false (heldFv s n l true c x y)) else v)

/-- The positions of the input in the window of a POOL record's output (R167). -/
def poolWin (l : List Word) (x y : Nat) : List (Nat × Nat) :=
  let h := heldDims l
  (List.range (poolH l)).flatMap (fun j => (List.range (poolW l)).filterMap (fun i =>
    let ix : Int := ((x * poolSx l + i : Nat) : Int) - sext 16 (lf l 10 15 0)
    let iy : Int := ((y * poolSy l + j : Nat) : Int) - sext 16 (lf l 10 31 16)
    if 0 ≤ ix ∧ ix < (h.1 : Int) ∧ 0 ≤ iy ∧ iy < (h.2.1 : Int) then some (ix.toNat, iy.toNat) else none))

/-- The pooled code of a POOL record (R155, R167). -/
def poolCode (s : State) (n : Nat) (l : List Word) (c x y : Nat) : Nat :=
  match (poolWin l x y).map (fun p => heldCode s n l false c p.1 p.2) with
  | [] => padCode l
  | v :: t =>
    if poolMode l = 1 then
      if (v :: t).any (fun u => match codeEv (lAct l) u with | .fp w => isNan w | .int _ => false) then fmtNan (lAct l)
      else t.foldl (fun a b => match codeEv (lAct l) a, codeEv (lAct l) b with
        | .int p, .int q => if p < q then b else a
        | .fp p, .fp q => if fvLt p q then b else a
        | _, _ => a) v
    else match poolEv 2 (Config.fpOrder s.free [2, x, y, c]) ((v :: t).map (codeEv (lAct l))) with
      | some r => narrow (lOut l) r
      | none => padCode l

/-- The value of a microscaling record without the array at a position and channel of its output (R155, R165, R167), before the
clamp. -/
def mxPlain (s : State) (n : Nat) (l : List Word) (c x y : Nat) : Fv :=
  let pad := fmtValue (lAct l) (padCode l)
  if lOp l = 3 then
    match poolEv (poolMode l) (Config.fpOrder s.free [2, x, y, c])
        ((poolWin l x y).map (fun p => .fp (heldFv s n l false c p.1 p.2))) with
    | some (.fp v) => v
    | _ => pad
  else match (if lOp l = 4 then inputAt l c x y else some (c, x, y)) with
    | some p => heldFv s n l false p.1 p.2.1 p.2.2
    | none => pad

/-- The writes of a microscaling COPY, REGROUP or POOL at a position: blocks are formed anew under R151; a copied block in which
the clamp changes nothing keeps its codes and its scale (R155). -/
def mxPlainWrites (s : State) (n : Nat) (l : List Word) (x y : Nat) : List ElemW :=
  let o := outDims l
  (List.range (ceilDiv o.2.2 32)).flatMap (fun k =>
    let cs := (List.range o.2.2).filter (fun c => c / 32 = k)
    let vs := cs.map (fun c => mxPlain s n l c x y)
    if lOp l = 7 ∧ vs.all (fun v => decide (clampEv l (.fp v) = .fp v)) = true then
      outScale l k x y (heldScale s n l false (32 * k) x y) :: cs.map (fun c => outElem l c x y (heldCode s n l false c x y))
    else writesAt l x y (cs.zip (vs.map (fun v => clampEv l (.fp v)))))

/-- The writes of one pass of a record without the array. -/
def plainWrites (s : State) (n : Nat) (l : List Word) : List ElemW :=
  let o := outDims l
  (List.range o.2.1).flatMap (fun y => (List.range o.1).flatMap (fun x =>
    let cs := List.range o.2.2
    if lOp l = 5 ∨ lOp l = 6 then
      writesAt l x y (cs.map (fun c => (c, finish s n l (fmtInt (lAct l)) 32 c (elemAcc s n l c x y))))
    else if fmtMx (lAct l) then mxPlainWrites s n l x y
    else
      cs.map (fun c =>
        let code := if lOp l = 3 then poolCode s n l c x y
          else match (if lOp l = 4 then inputAt l c x y else some (c, x, y)) with
            | some p => heldCode s n l false p.1 p.2.1 p.2.2
            | none => padCode l
        outElem l c x y (clampCode l code))))

/-- Cycles of a record without the array (R168). -/
def plainCycles (l : List Word) : Nat :=
  let h := heldDims l; let o := outDims l
  if lOp l = 3 then ceilDiv (o.1 * o.2.1 * o.2.2 * poolW l * poolH l * fmtBits (lAct l)) 512
  else ceilDiv (h.1 * h.2.1 * h.2.2 * fmtBits (lAct l)) 512

end Sys2Proof.Machine
end

