-- ==== Sys2Proof/Machine/Plan.lean ====
section
/-!
DEFINITION. Sys2Proof/Machine/Plan.lean: the programs of a plan as Apgil generates, binds and loads them (R119, R140, R141, R186, R191, R194,
R195, R249, R255, R269, R270).
-/
namespace Sys2Proof.Machine

/-! ### Tile programs -/

/-- Words of a tile record (R119); 0 for a reserved opcode. -/
def recWords (w : Word) : Nat :=
  let op := fld w 3 0
  if op = 1 then 33 else if op = 2 then 1 + fld w 7 6 else if op = 3 then 1 else if op = 4 ∨ op = 5 then 2
  else if op = 6 then 4 else if op = 7 then 1 else 0

/-- The records of a program: first word index and words. -/
def recordsOf : Nat → Nat → List Word → List (Nat × List Word)
  | 0, _, _ => []
  | _, _, [] => []
  | fuel + 1, i, w :: t =>
    let n := recWords w
    if n = 0 then [(i, w :: t)] else (i, (w :: t).take n) :: recordsOf fuel (i + n) ((w :: t).drop n)

/-- The value of a bound field (R191). -/
def boundValue (b : ShapeBinding) (dims : List Nat) : Nat := b.off + b.mul * dims.getD b.dim 0 / b.div

/-- The run-time count of a pointer list (R195). -/
def ptrCount (l : PtrList) (dims : List Nat) : Nat := match l.dim with | some d => dims.getD d 0 | none => l.count

/-- A LAYER record with the bindings that name it and the run-time counts of the pointer lists it uses, its checkword recomputed (R191,
R195). -/
def bindRecord (bs : List ShapeBinding) (ptrs : List PtrList) (dims : List Nat) (ws : List Word) : List Word :=
  let l := bs.foldl (fun (l : List Word) b => l.set (1 + b.word) (setFld (l.getD (1 + b.word) 0) b.hi b.lo (boundValue b dims))) ws
  let m := match (if fld (l.getD 22 0) 12 0 = 0 then none else ptrs.find? (fun q => q.base = fld (l.getD 21 0) 19 0)) with
    | some q => l.set 22 (setFld (l.getD 22 0) 12 0 (ptrCount q dims))
    | none => l
  if m = ws then ws else m.set 32 (crcWords ((m.drop 1).take 31))

/-- The outer visit order of a segment of a variant (R190, R194). -/
def outerOrder (c : PlanContent) (variant logical : Nat) : Nat :=
  ((c.variants[variant]?).bind (fun v => (v.segs.find? (fun g => g.logical = logical)).map (fun g => g.outer))).getD 0

/-- Source and destination of the record i of a program, where it makes a transfer in visit order (R194). -/
def pieceOf (c : PlanContent) (variant : Nat) (ps : List Pieces) (i : Nat) : Option (Nat × Nat) :=
  ps.findSome? (fun q =>
    let k := q.records.idxOf i
    let d (n : Nat) : Nat := q.dims.getD n 1
    ((nest (outerOrder c variant q.seg) (d 0) (d 1) (d 2) (d 3))[k]?).map (fun p =>
      let st (n : Nat) : Nat := q.strides.getD n 0
      (q.base + p.1 * st 0 + p.2.1 * st 1 + p.2.2.1 * st 2 + p.2.2.2 * st 3, q.dsts.getD (k % max 1 q.dsts.length) 0)))

/-- A LAYER record whose fetch takes its place in the visit order, its checkword recomputed (R194). -/
def placeFetch (at' : Option (Nat × Nat)) (ws : List Word) : List Word :=
  match at' with
  | none => ws
  | some (a, d) =>
    let l := ((ws.set 23 (BitVec.ofNat 32 a)).set 24 (setFld (ws.getD 24 0) 7 0 (a / 2 ^ 32))).set 25 (setFld (ws.getD 25 0) 20 0 d)
    l.set 32 (crcWords ((l.drop 1).take 31))

/-- A program of a variant with its shape bindings applied and its transfers laid out (R191, R194, R195). A binding names a record by its place
in program order. -/
def bindProg (c : PlanContent) (variant : Nat) (p : TileProg) (dims : List Nat) : List Word :=
  let mine := c.bindings.filter (fun b => b.variant = variant && b.tile = p.logical)
  ((recordsOf p.words.length 0 p.words).zipIdx).flatMap (fun r =>
    if fld (r.1.2.getD 0 0) 3 0 = 1 then
      placeFetch (pieceOf c variant p.pieces r.2) (bindRecord (mine.filter (fun b => b.record = r.2)) p.ptrs dims r.1.2)
    else r.1.2)

/-- The bytes of a tile's WM before it starts: its image and its pointer lists (R164, R195). -/
def wmImage (p : TileProg) (dims : List Nat) : List (Nat × List Byte) :=
  p.wm ++ p.ptrs.map (fun l =>
    (l.base, (List.range (ptrCount l dims)).flatMap (fun i => (List.range 4).flatMap (fun k => leBytes 4 (i * l.strides.getD k 0)))))

/-- A word of a nonlinear table as the register holds it (R140, R153). -/
def nlfMasked (k : Nat) (w : Word) : Word :=
  match tileSpec (0x800 + 4 * k) with | some r => w &&& BitVec.ofNat 32 r.rw | none => w

/-- A tile's program, WM image and nonlinear tables loaded by Apgil (R119, R140, R159, R195). -/
def loadTile (s : State) (n : Nat) (p : TileProg) (ws : List Word) (dims : List Nat) : State :=
  let s1 := store s (imemBase n) (ws.flatMap (fun w => leBytes 4 w.toNat))
  let s2 := storeAll s1 ((wmImage p dims).map (fun e => (wmBase n + e.1, e.2)))
  forAll (p.nlf.zipIdx) (fun s w => setWord s (gtReg n (0x800 + 4 * w.2)) (nlfMasked w.2 w.1)) (setWord s2 (gtReg n 8) 0)

/-- A tile bound by Apgil (R141). -/
def bindTile (s : State) (n ctx xlate logical : Nat) : State :=
  setWord s (gtReg n 0x10) (BitVec.ofNat 32 (ctx % 64 + xlate % 256 * 256 + logical % 128 * 65536))

/-- The loop a record opens (R121). -/
def tileLoop (pc : Nat) (ws : List Word) : LoopFrame :=
  { level := fld (ws.getD 0 0) 5 4, body := pc + ws.length, stop := 0, count := fld (ws.getD 0 0) 23 8 + 1, iter := 0,
    steps := (ws.drop 1).map (fun x => (fld x 4 0, sext 24 (fld x 31 8))) }

/-- The words of a layer with the steps of the active loops added (R121). -/
def stepWords (loops : List LoopFrame) (l : List Word) : List Word :=
  loops.foldl (fun l f => f.steps.foldl (fun l p => l.set p.1 (lw l p.1 + BitVec.ofInt 32 (p.2 * (f.iter : Int)))) l) l

/-- More steps than any program takes: four nested loops of 65,536. -/
def unrollFuel : Nat := 2 ^ 96

/-- The records a program executes from a word on, each with its place, its loops unrolled and their steps added to the layers (R119 to
R121, R199). -/
def tileRun : Nat → List Word → Nat → List LoopFrame → List (Nat × List Word)
  | 0, _, _, _ => []
  | fuel + 1, ws, pc, loops =>
    let n := recWords (ws.getD pc 0)
    let r := (ws.drop pc).take n
    let op := fld (ws.getD pc 0) 3 0
    if n = 0 then []
    else if op = 7 then [(pc, r)]
    else if op = 2 then (pc, r) :: tileRun fuel ws (pc + n) (tileLoop pc r :: loops)
    else if op = 3 then
      match loops with
      | f :: rest =>
        if f.iter + 1 < f.count then tileRun fuel ws f.body ({ f with iter := f.iter + 1 } :: rest) else tileRun fuel ws (pc + n) rest
      | [] => []
    else (pc, if op = 1 then r.take 1 ++ stepWords loops (r.drop 1) else r) :: tileRun fuel ws (pc + n) loops

/-- The layers a program runs: the record's number and the words of each turn. -/
def layerRun (ws : List Word) : List (Nat × List Word) :=
  let places := (recordsOf ws.length 0 ws).map (fun r => r.1)
  (tileRun unrollFuel ws 0 []).filterMap (fun r => if fld (r.2.getD 0 0) 3 0 = 1 then some (places.idxOf r.1, r.2.drop 1) else none)

/-! ### Channel programs of a plan (R186, R202, R255, R270) -/

/-- Channels free for a plan's programs. -/
def freeChans (s : State) : List Nat := (List.range 128).filter (fun c => decide (chanCtx s c = none) && chanFree (chanOf s c))

/-- The I/O address at which Apgil maps the program of a channel (log 32). -/
def progIo (c : Nat) : Nat := 0xFF00000000 + c * 0x40000

/-- A channel bound by Apgil with the request lines of its program (R255, R270). -/
def bindChan (s : State) (c ctx xlate : Nat) (lines : List Nat) : State :=
  forAll lines (fun s l => setWord (setWord s (lineReg l 0) (BitVec.ofNat 32 (1 + c / 32 * 2 + c % 32 * 8))) (lineReg l 4) 0)
    (setWord s (dmReg c 0x10) (BitVec.ofNat 32 (ctx % 64 + xlate % 256 * 2 ^ 8 + 2 ^ 17)))

/-- The instructions of a program after its header: place and words; a reserved or cut one ends the list with no words. -/
def dmaInstrs : Nat → Nat → List Word → List (Nat × List Word)
  | 0, _, _ => []
  | _, _, [] => []
  | fuel + 1, i, w :: t =>
    let n := dmaSize w
    if n = 0 ∨ (w :: t).length < n then [(i, [])] else (i, (w :: t).take n) :: dmaInstrs fuel (i + n) ((w :: t).drop n)

/-- The instructions of a program. -/
def dmaList (ws : List Word) : List (Nat × List Word) := dmaInstrs ws.length 4 (ws.drop 4)

/-- The instructions a program executes from a channel's place on, its loops unrolled: words, and what the instruction is as a MOVE with the
steps added (R251, R259). -/
def dmaRun : Nat → List Word → Chan → List (List Word × MoveWork)
  | 0, _, _ => []
  | fuel + 1, ws, x =>
    let n := dmaSize (ws.getD x.pc 0)
    let r := (ws.drop x.pc).take n
    if n = 0 then []
    else if fld (ws.getD x.pc 0) 3 0 = 2 then dmaRun fuel ws (dmaEnter x r)
    else (r, moveOf x r 0) :: dmaRun fuel ws (dmaNext 5 x (x.pc + n))

/-- What a program executes from its first instruction on. -/
def dmaItems (ws : List Word) : List (List Word × MoveWork) := dmaRun unrollFuel ws { pc := 4 }

/-- Every instance of every MOVE of a program. -/
def moveRun (ws : List Word) : List MoveWork :=
  (dmaItems ws).filterMap (fun r => if fld (r.1.getD 0 0) 3 0 = 1 then some r.2 else none)

/-- An I/O address that names the memory of a logical tile or core, as its physical one does (log 32). -/
def relocate (tiles cores : List (Nat × Nat)) (a : Nat) : Nat :=
  if tileIo 0 ≤ a ∧ a < tileIo 128 then
    match tiles.find? (fun p => p.1 = (a - tileIo 0) / 0x400000) with | some p => tileIo p.2 + a % 0x400000 | none => a
  else if coreIo 0 ≤ a ∧ a < coreIo 16 then
    match cores.find? (fun p => p.1 = (a - coreIo 0) / 0x400000) with | some p => coreIo p.2 + a % 0x400000 | none => a
  else a

/-- One address of a MOVE, in the words i and i + 1. -/
def moveAddr (ws : List Word) (i : Nat) : Nat := (ws.getD i 0).toNat + fld (ws.getD (i + 1) 0) 7 0 * 2 ^ 32
def setMoveAddr (ws : List Word) (i a : Nat) : List Word :=
  (ws.set i (BitVec.ofNat 32 a)).set (i + 1) (setFld (ws.getD (i + 1) 0) 7 0 (a / 2 ^ 32))

/-- A MOVE with its place in the visit order (R194) and its engines' physical addresses; other instructions as they are. -/
def placeMove (at' : Option (Nat × Nat)) (tiles cores : List (Nat × Nat)) (ws : List Word) : List Word :=
  if fld (ws.getD 0 0) 3 0 = 1 then
    let l := match at' with | some (a, d) => setMoveAddr (setMoveAddr ws 2 a) 4 d | none => ws
    setMoveAddr (setMoveAddr l 2 (relocate tiles cores (moveAddr l 2))) 4 (relocate tiles cores (moveAddr l 4))
  else ws

/-- A channel program of a plan as Apgil generates it for a variant and a placement, its checkword recomputed (R194, R249). -/
def bindDma (c : PlanContent) (variant : Nat) (d : DmaProg) (tiles cores : List (Nat × Nat)) : List Word :=
  let l := (dmaList d.words).zipIdx
  if d.pieces = [] ∧ tiles = [] ∧ cores = [] then d.words
  else
    let ws := d.words.take 4 ++ l.flatMap (fun r => placeMove (pieceOf c variant d.pieces r.2) tiles cores r.1.2)
    if ws = d.words then ws else ws.set 3 (crcWords (ws.take 3 ++ ws.drop 4))

/-- The program of a bound channel mapped, stored and named to it (R269). -/
def loadChan (s : State) (c ctx xlate : Nat) (ws : List Word) : State :=
  let io := progIo c
  let bytes := ws.flatMap (fun w => leBytes 4 w.toNat)
  let s1 := (mapBuffer s ctx xlate io bytes.length).getD s
  let s2 := (xlateStore s1 (.mgmt 0) xlate io bytes).getD s1
  setWord (setWord s2 (dmReg c 8) (BitVec.ofNat 32 (io % 2 ^ 32))) (dmReg c 0xC) (BitVec.ofNat 32 (io / 2 ^ 32))

/-- Channels cancelled and unbound. -/
def dropChans (s : State) (cs : List Nat) : State := forAll cs (fun s c => unbindChan (chanCancel s c) c) s

end Sys2Proof.Machine
end

