-- ==== Sys2Proof/Machine/Sensor.lean ====
section
/-!
DEFINITION. Sys2Proof/Machine/Sensor.lean: settings sets and the sensor-control buses (R55 to R60).
-/
namespace Sys2Proof.Machine

/-- The bank of a stream: its port and number. -/
def streamBank (x : Stream) : Nat × Nat := (dPort x, x.bank)

/-- The expected start of a stream's next frame (R49), none before there is a previous frame or trigger. -/
def expectedStart (s : State) (x : Stream) : Option Nat :=
  let p := dPort x; let b := bankOf s p x.bank
  let period := (inWord s p x.bank 0x1C).toNat
  if bitOf (inWord s p x.bank 0) 1 then (b.trigs.head?).map (fun t => t.1 + period)
  else if b.first then none else some (b.lastStart + period)

/-- The number of the stream's next frame to start. -/
def nextFrame (s : State) (x : Stream) : Nat :=
  let b := bankOf s (dPort x) x.bank
  match b.trigs.head? with
  | some t => t.2
  | none => b.nextSeq

/-- Whether the stream is in the blanking before its next frame (R57): no frame in arrival, the guard not begun. -/
def inBlanking (s : State) (x : Stream) : Bool :=
  (bankOf s (dPort x) x.bank).frame.isNone &&
    (match expectedStart s x with
     | some t => decide (s.clk.now + inFld s (dPort x) x.bank 0x2C 15 0 * 1000 ≤ t)
     | none => true)

/-- The first frame whose blanking can still take a write (R58). -/
def firstWritable (s : State) (x : Stream) : Nat :=
  if (bankOf s (dPort x) x.bank).frame.isSome || inBlanking s x then nextFrame s x else nextFrame s x + 1

/-- Whether every write of a set for frame n fits its blanking (R58). -/
def setFits (s : State) (x : Stream) (n : Nat) : Bool :=
  decide (firstWritable s x + x.profile.expo.latency ≤ n) && decide (firstWritable s x + x.profile.gain.latency ≤ n)

/-- Whether a set of the stream that has begun its writes targets frame n (R59). -/
def frameTaken (x : Stream) (n : Nat) : Bool :=
  x.sets.any (fun j => j.target = n && j.status = stOK && (j.expoIssued || j.gainIssued))

/-- The frame a set applies to (R58, R59): the target, or the first later one for which every write fits and whose set has
not begun its writes. Twice the latencies and the sets held bound the search. -/
def applyFrame (s : State) (x : Stream) (n : Nat) : Nat :=
  let lo := max n (firstWritable s x)
  let bound := x.profile.expo.latency + x.profile.gain.latency + x.sets.length + 1
  if setFits s x n && !frameTaken x n then n
  else (findFrom (fun m => setFits s x m && !frameTaken x m) bound lo).getD (lo + bound)

/-- A settings set scheduled (R58, R59): it is shifted where it cannot fit, and replaces an unwritten set of its frame,
which is reported CANCELLED: no notice of the spec says so, and QUERY of the stream shows it (DESIGN CHOICE, log 69). Answers the frame
and whether it was shifted. -/
def scheduleSet (s : State) (n : Nat) (x : Stream) (ident target : Nat) (values : List (Nat × Nat)) :
    State × Nat × Bool :=
  let m := applyFrame s x target
  let sets := x.sets.map (fun j => if j.target = m && j.status = stOK && !j.expoIssued && !j.gainIssued
                                   then { j with status := stCANCELLED } else j)
  let sets := sets.filter (fun j => decide (nextFrame s x ≤ j.target + 1))
  let job : SetJob :=
    { ident := ident, target := m, values := values, shifted := decide (m ≠ target), expoIssued := false,
      gainIssued := false, status := stOK }
  (setStream s n (some { x with sets := sets ++ [job] }), m, decide (m ≠ target))

/-- Whether a write of a set is due in the blanking that is open (R57): exposure L_exp frames before, gain L_gain before. -/
def dueNow (s : State) (x : Stream) (j : SetJob) : Bool × Bool :=
  let f := nextFrame s x
  if j.status = stOK && inBlanking s x then
    (!j.expoIssued && decide (j.target = f + x.profile.expo.latency),
     !j.gainIssued && decide (j.target = f + x.profile.gain.latency))
  else (false, false)

/-- Streams of a bus with a write due, by the time of their blanking, then by stream number (R56). -/
def dueStreams (s : State) (bus : Nat) : List (Nat × Stream) :=
  let l := s.streams.filterMap (fun e => match e.2 with
    | some x => if x.profile.bus = bus && carries x && x.sets.any (fun j => (dueNow s x j).1 || (dueNow s x j).2)
                then some (e.1, x) else none
    | none => none)
  sortBy (fun e => (expectedStart s e.2).getD 0) l

/-- The writes that give a parameter its values of all exposures (R54, R57): each value converted, and its bits put into the registers
the profile names. -/
def paramWrites (addr : Nat) (p : SensorParam) (values : List Nat) : List SensorWrite :=
  p.regs.map (fun r => { addr := addr, reg := r.reg, value := values.getD r.exposure 0 * p.mul / p.div / 2 ^ r.shift % 2 ^ r.bits })

/-- The writes of a settings set for one blanking (R56, R57): exposures with the identifier in the tag register, gains; framed by setting
(1) and clearing (0) the group-hold register when the sensor has one (the two values: DESIGN CHOICE, log 69). -/
def setWrites (f : SensorProfile) (j : SetJob) (due : Bool × Bool) : List SensorWrite :=
  let one (reg value : Nat) : SensorWrite := { addr := f.addr, reg := reg, value := value }
  let tag : List SensorWrite := match f.frameTag with | some t => [one t.1 j.ident] | none => []
  let body : List SensorWrite :=
    (if due.1 then paramWrites f.addr f.expo (j.values.map (fun v => v.1)) ++ tag else []) ++
      (if due.2 then paramWrites f.addr f.gain (j.values.map (fun v => v.2)) else [])
  match f.groupHold with
  | some h => one h 1 :: body ++ [one h 0]
  | none => body

/-- Whether a set of a stream has a write due. -/
def setDue (s : State) (x : Stream) (j : SetJob) : Bool := (dueNow s x j).1 || (dueNow s x j).2

/-- SENSOR_SETTINGS_WRITE (R55 to R57): the bus, in the sensor's mode, makes the writes that the next set has due in its blanking. A set
whose last write is made is in effect from its frame on. -/
def execSensorSettingsWrite (bus : Nat) (s : State) : Out :=
  match dueStreams s bus with
  | [] => .next s
  | (n, x) :: _ => match x.sets.find? (setDue s x) with
    | none => .next s
    | some j =>
      let d := dueNow s x j
      let j1 := { j with expoIssued := j.expoIssued || d.1, gainIssued := j.gainIssued || d.2 }
      let done := if j1.expoIssued && j1.gainIssued then [(j.target, j.ident)] else []
      let s1 := setStream s n (some { x with
        sets := x.sets.map (fun y => if y = j then j1 else y), setsDone := sortBy (fun e => e.1) (x.setsDone ++ done) })
      .next (setBus s1 bus { i2c := x.profile.i2c, made := setWrites x.profile j d, last := some (n, j.target, j.ident), retried := false })

/-- The stream and the set whose writes a bus has made last. -/
def nackHit (s : State) (bus : Nat) : Option (Nat × Stream × SetJob) :=
  match (busOf s bus).last with
  | none => none
  | some (n, target, ident) => match streamOf s n with
    | none => none
    | some x => (x.sets.find? (fun j => j.target = target && j.ident = ident && j.status = stOK && (j.expoIssued || j.gainIssued))).map
        (fun j => (n, x, j))

/-- SENSOR_WRITE_NACK (R56): the sensor did not acknowledge the bus's last write: it is made again; when the retry fails too, the set is
reported with WAIT_TIMEOUT, and the sensor keeps what it last accepted. -/
def execSensorWriteNack (bus : Nat) (s : State) : Out :=
  match nackHit s bus with
  | none => .next s
  | some (n, x, j) =>
    let b := busOf s bus
    if b.retried then
      .next (setBus (setStream s n (some { x with
        sets := x.sets.map (fun y => if y = j then { j with status := stTIMEOUT } else y)
        setsDone := x.setsDone.filter (fun e => !(e.1 = j.target && e.2 = j.ident)) })) bus { b with last := none, retried := false })
    else .next (setBus s bus { b with made := b.made ++ b.made.getLast?.toList, retried := true })

/-- Sets whose writes are not all issued reported CANCELLED (R59: STOP or CANCEL of the stream). -/
def cancelSets (x : Stream) : Stream :=
  { x with sets := x.sets.map (fun j => if j.expoIssued && j.gainIssued then j else { j with status := stCANCELLED }) }

end Sys2Proof.Machine
end

