-- ==== Sys2Proof/Machine/StrokeOps.lean ====
section
/-!
DEFINITION. Sys2Proof/Machine/StrokeOps.lean: tile programs and their start, the result ring, how Strokes end, and what a
failed tile does to its string or job (R103 to R112, R119, R137, R191, R203 to R208, R469).
-/
namespace Sys2Proof.Machine

/-! ### Strings -/

/-- A word of a stream's descriptor replaced. -/
def setDesc (x : Stream) (off v : Nat) : Stream := { x with desc := x.desc.set (off / 4) (BitVec.ofNat 32 v) }

/-- The descriptor's checkword made that of its bytes (R91). -/
def sealDesc (x : Stream) : Stream := { x with desc := x.desc.set 63 (crcWords (x.desc.take 63)) }

/-- Height, halo, strings and string table of a stream's descriptor (R91); the park buffers stay. -/
def putStrings (x : Stream) (h r v : Nat) (l : List (List Nat)) : Stream :=
  let x1 := setDesc x 8 (h + r * 2 ^ 8 + l.length * 2 ^ 16 + dPark x * 2 ^ 20)
  sealDesc ((List.range 8).foldl (fun y i => setDesc y (0xB0 + 4 * i) (if i < l.length then v % 256 + 2 ^ 31 else 0)) x1)

/-- The run-time shape of a Stroke's strings: W, H, N, T (R191). -/
def strokeDims (x : Stream) : List Nat := [dWidth x, dH x, 1, 1]

/-- The program of a logical tile of a string, bound to the Stroke's shape. -/
def segProg (s : State) (x : Stream) (g : Strg) (logical : Nat) : Option (TileProg × List Word) :=
  match packageOf s (dPlan x), stringVariant s x g with
  | some p, some v => (v.tiles.find? (fun t => t.logical = logical)).map (fun t => (t, bindProg p.content g.variant t (strokeDims x)))
  | _, _ => none

/-- The segments of a string, in order (R190). -/
def segsOf (s : State) (x : Stream) (g : Strg) : List Segment := match stringVariant s x g with | some v => v.segs | none => []

/-- A tile of a string bound and loaded for a segment. -/
def placeSeg (s : State) (x : Stream) (h : Strg) (n : Nat) (g : Segment) : State :=
  let s1 := bindTile s n x.ctx (dXlate x) g.logical
  match segProg s1 x h g.logical with
  | some p => loadTile s1 n p.1 p.2 (strokeDims x)
  | none => s1

/-- The flags of a string at their starting values (R104, R204): its credit flags at the buffers the receiver holds, the others at 0
(log 17). -/
def stringFlags (s : State) (x : Stream) (g : Strg) : State :=
  match stringVariant s x g with
  | some v =>
    let places := List.range (v.segs.length - 1)
    let zero := [inFlagOf v g.index, outFlagOf v g.index] ++ places.map (handFlagOf v g.index)
    let full := inCreditOf v g.index :: places.map (handCreditOf v g.index)
    forAll full (fun s f => apgilSet s f (BitVec.ofNat 32 v.buffers)) (forAll zero (fun s f => apgilSet s f 0) s)
  | none => s

/-- A string as its tiles start: in dispatch, empty, its first tile holding all input credits (R96, R204). -/
def freshString (s : State) (x : Stream) (g : Strg) : Strg :=
  { g with dispatch := true, inFlight := [], passed := g.tiles.map (fun _ => 0), remap := [], toVariant := none, creditAt := s.clk.up,
           credits := match stringVariant s x g with | some v => v.buffers | none => 0 }

/-- The tiles of a string bound and loaded (R93, R204). -/
def loadString (s : State) (x : Stream) (g : Strg) : State := forAll (g.tiles.zip (segsOf s x g)) (fun s p => placeSeg s x g p.1 p.2) s

/-- The flags of a string set, its loaded tiles started with a drain bit (R93, R204). -/
def goString (s : State) (x : Stream) (g : Strg) (drain : Bool) : State :=
  forAll g.tiles (fun s t => tileGo (setWbit s (gtReg t 0) 2 drain) t) (stringFlags s x g)

/-- A string loaded and started. -/
def startString (s : State) (x : Stream) (g : Strg) (drain : Bool) : State := goString (loadString s x g) x g drain

/-! ### The result ring (R104, R105) -/

/-- The bytes of a frame result record. -/
def frameRecord (n : Nat) (x : Stream) (f : FrameRec) (status late now : Nat) : List Byte :=
  leBytes 2 1 ++ leBytes 1 1 ++ leBytes 1 status ++ leBytes 4 (dStrokeId x) ++ leBytes 4 f.seq ++ leBytes 2 f.csiNo ++
    leBytes 2 f.ident ++ leBytes 4 f.flags ++ leBytes 1 n ++ leBytes 1 (f.seq % max 1 (dOutSlots x)) ++ leBytes 2 f.dropped ++
    leBytes 8 f.start ++ leBytes 8 (f.close.getD 0) ++ leBytes 8 (f.plateStart.getD 0) ++ leBytes 8 (f.colourEnd.getD 0) ++
    leBytes 8 now ++ leBytes 4 late ++ List.replicate 60 0

/-- The bytes of a Stroke end record. -/
def endRecord (n : Nat) (x : Stream) (status now : Nat) : List Byte :=
  leBytes 2 1 ++ leBytes 1 2 ++ leBytes 1 status ++ leBytes 4 (dStrokeId x) ++ leBytes 4 x.lastSeq ++ leBytes 4 0 ++
    leBytes 4 x.flagsOr ++ leBytes 4 n ++ leBytes 8 x.start ++ leBytes 8 x.stopAt ++ leBytes 8 x.completed ++
    leBytes 8 x.late ++ leBytes 8 now ++ leBytes 4 x.lost ++ leBytes 4 x.deferredN ++ leBytes 8 x.measured ++
    leBytes 8 x.estimated ++ List.replicate 40 0

/-- A record written to a stream's result ring: the record, then the count, then the flag (R104). Without a free slot it is
dropped and counted; on a translation fault nothing is written and the writer stalls (none, R285). -/
def writeRecord (s : State) (n : Nat) (rec' : List Byte) : State × Bool :=
  match streamOf s n with
  | none => (s, false)
  | some x =>
    let base := dResult x
    let fault (a : Nat) : State × Bool := (iommuFault s (.stroke n) (some x.ctx) a, false)
    match xlateRead s (.stroke n) (dXlate x) (base + 32) 4 with
    | none => fault (base + 32)
    | some (s, rd) =>
      if dResultN x ≤ (x.written + 2 ^ 32 - leNat rd) % 2 ^ 32 then
        (setStream s n (some { x with lost := x.lost + 1 }), true)
      else
        let a := base + 64 + x.written % dResultN x * 128
        match xlateStore s (.stroke n) (dXlate x) a rec' with
        | none => fault a
        | some s1 =>
          match xlateStore s1 (.stroke n) (dXlate x) base (leBytes 4 (x.written + 1)) with
          | none => fault base
          | some s2 =>
            (signalFlag (setStream s2 n (some { x with written := x.written + 1 })) (.stroke n) (dResultFlag x) true 1, true)

/-! ### Ends of a Stroke -/

/-- The tiles of a stream's strings. -/
def strokeTiles (x : Stream) : List Nat := x.strings.flatMap (fun g => g.tiles)

/-- The granules of a stream's SHM banks. -/
def strokeBanks (x : Stream) : List Nat := x.shmBanks.map (fun b => 8192 + b)

/-- The granules of a Stroke's tiles and Plate output ring. -/
def strokeGranules (x : Stream) : List Nat := (strokeTiles x).flatMap tileGranules ++ strokeBanks x

/-- The STROKE_END notice (R327). -/
def strokeEndNotice (s : State) (n : Nat) (x : Stream) (status cause : Nat) : State :=
  notify s x.ctx 0x0033 status 5 okSTREAM n (leBytes 4 (dStrokeId x) ++ leBytes 4 x.lastRec ++ leBytes 2 cause) []

/-- The reservation of a real-time Stroke given back (R385). -/
def unreserve (s : State) (x : Stream) : State :=
  match contextOf s x.ctx with
  | some c => setContext s x.ctx (some { c with reserved := c.reserved - x.reserved })
  | none => s

/-- The tiles reserved for a stream beside those of its strings: the replacements of failed tiles, and what its re-plan takes (R204, R206). -/
def reservedTiles (x : Stream) : List Nat :=
  let l := x.strings.flatMap (fun g => g.remap.map (fun p => p.2) ++ (match g.toVariant with | some t => t.2 | none => [])) ++
    (match x.replan with | some p => p.2.2.flatten | none => [])
  (l.filter (fun t => !decide (t ∈ strokeTiles x))).eraseDups

/-- Tiles outside the strings whose park buffers the colour stage has not read out. -/
def parkTiles (x : Stream) : List Nat :=
  ((x.strings.flatMap (fun g => g.parked.map (fun p => p.tile))).filter (fun t => !decide (t ∈ strokeTiles x))).eraseDups

/-- The moves and leaving tiles of a stream given up; a leaving tile's stripes are gone with the Stroke (R203, R207). -/
def dropMoves (s0 : State) (tiles : List Nat) : State :=
  let s := forAll (s0.moves.filter (fun m => decide (m.1 ∈ tiles))) (fun s m => releaseTile s m.2 .killed) s0
  { s with moves := s.moves.filter (fun m => !decide (m.1 ∈ tiles)), leaving := s.leaving.filter (fun e => !decide (e.spare ∈ tiles)) }

/-- A tile that stands idle once its Stroke ends; one in ERROR, in a stop or in reset stays so (R111, R137). -/
def tileRest (s : State) (t : Nat) : State :=
  let x := tileOf s t
  match x.st with
  | .running => withdrawWait (setTile (stallEnd s t) t { tileOf (stallEnd s t) t with st := .idle, haltAt := false }) t
  | .waiting => withdrawWait (setTile (stallEnd s t) t { tileOf (stallEnd s t) t with st := .idle, haltAt := false }) t
  | .done => setTile s t { x with st := .idle, haltAt := false }
  | _ => s

/-- The channels of a Stroke given up, its tiles' memories taken out of its translation context. -/
def dropLoads (s : State) (x : Stream) : State :=
  if x.chans = [] then s else forAll (strokeTiles x) (fun s t => unmapEngine s (dXlate x) (tileIo t)) (dropChans s x.chans)

/-- The deferral of a frame ends (R109, R110): the first tile of each string counts as ENERGY_THROTTLE what it stalled since the frame was
deferred while it held a free input credit. -/
def deferralEnd (s : State) (x : Stream) (f : FrameRec) : State :=
  match f.deferredAt with
  | none => s
  | some since =>
    forAll (x.strings.filter (fun g => decide (0 < g.credits))) (fun s g => forAll (g.tiles.take 1) (fun s n =>
      let t := tileOf s n
      match t.stall with
      | some (c, t0) =>
        let from' := max since (max g.creditAt t0)
        let fz := tileFrozen s n
        setTile s n { t with stall := some (c, s.clk.up)
                             cnt := cntAdd (cntAdd t.cnt fz c ((from' - t0) / 2)) fz 1 ((s.clk.up - from') / 2) }
      | none => s) s) s

/-- The end of a Stroke at its barrier or at once when its shape is zero (R92, R111): end record, tiles to IDLE, ring
released, reservation ended, a pending STOP answered, STROKE_END sent. -/
def endStroke (s : State) (n : Nat) (status : Nat) : State :=
  match streamOf s n with
  | none => s
  | some x =>
    match writeRecord s n (endRecord n x status s.clk.now) with
    | (s1, false) => s1
    | (s1, true) =>
      let s2 := dropLoads (forAll (strokeTiles x) tileRest (dropMoves s1 (strokeTiles x))) x
      let s3 := closeExports (releaseAll s2 (strokeGranules x) (.ended (x.options.testBit 0))) (1, n)
      let s4 := unreserve (updStream s3 n (fun y => { y with phase := .ended, ring := [], reserved := 0, stopReq := [], startReply := none, chans := [] })) x
      let s5 := forAll x.stopReq (fun s q => answer s q.1 q.2 0x0032 x.ctx stOK [])
        (forAll x.startReply.toList (fun s q => answer s q.1 q.2.1 0x0031 x.ctx stCANCELLED [detailTlv 8 n]) s4)
      strokeEndNotice s5 n ((streamOf s5 n).getD x) status 0

/-- Tiles reserved for a remap given back (R207): unbound, out of service when they were spares, to be scrubbed. -/
def returnSpares (s : State) (tiles : List Nat) : State :=
  forAll tiles (fun s t =>
    let s1 := unbindTile (releaseTile s t .killed) t
    if s1.retire.inService.length ≤ gradeTiles s1 then s1
    else { s1 with retire := { s1.retire with inService := s1.retire.inService.filter (fun k => k ≠ t) } }) s

/-- A Stroke ended at once (R112, R206, R207, R469): no further record, output or flag; the frame in arrival ends, the stages drop
its stripes, the tiles are cancelled, its regions become DIRTY, a remap ends and its tiles go back, a STOP in wait is answered CANCELLED. -/
def cancelStream (s : State) (n : Nat) (status cause : Nat) : State :=
  match streamOf s n with
  | none => s
  | some x =>
    if carries x then
      let s1 := cancelFrame (forAll (x.frames.filter (fun f => !f.admitted)) (fun s f => deferralEnd s x f) s) (dPort x) x.bank
      let s2 := setBank s1 (dPort x) x.bank { bankOf s1 (dPort x) x.bank with lines := [] }
      let s3 := { s2 with
        plates := s2.plates.filter (fun e => match e.2 with | some j => decide (j.stream ≠ n) | none => true)
        colours := s2.colours.filter (fun e => match e.2 with | some j => decide (j.stream ≠ n) | none => true) }
      let leavers := (s3.leaving.filter (fun e => decide (e.spare ∈ strokeTiles x))).map (fun e => e.slow)
      let s4 := dropLoads (forAll (strokeTiles x ++ leavers) tileCancel (dropMoves s3 (strokeTiles x))) x
      let gs := strokeGranules x ++ (parkTiles x ++ leavers).flatMap tileGranules
      let s5 := returnSpares (closeExports (releaseAll (withdrawGrants s4 gs x.ctx) gs .killed) (1, n)) (reservedTiles x)
      let s6 := withdrawWait s5 (1072 + n)
      let s7 := unreserve (updStream s6 n (fun y => cancelSets { y with
        phase := .ended, ring := [], frames := [], markers := [], colourFrame := none, reserved := 0, stopReq := [], startReply := none, cut := true,
        replan := none, chans := [],
        strings := y.strings.map (fun g => { g with dispatch := false, inFlight := [], parked := [], remap := [], toVariant := none }) })) x
      let s8 := forAll x.stopReq (fun s q => answer s q.1 q.2 0x0032 x.ctx stCANCELLED [detailTlv 8 x.lastRec])
        (forAll x.startReply.toList (fun s q => answer s q.1 q.2.1 0x0031 x.ctx stCANCELLED [detailTlv 8 n]) s7)
      strokeEndNotice s8 n x status cause
    else s

/-! ### Failed tiles (R203 to R208) -/

/-- The tile in whose place a tile works: that which took a leaving tile's segment (R203). -/
def placeTile (s : State) (n : Nat) : Nat := match s.leaving.find? (fun e => e.slow = n) with | some e => e.spare | none => n

/-- The string a tile belongs to: stream, its string, the tile's place. -/
def stringOf (s : State) (n : Nat) : Option (Nat × Stream × Strg × Nat) :=
  let m := placeTile s n
  s.streams.findSome? (fun e => match e.2 with
    | some x => if carries x then (x.strings.find? (fun g => decide (m ∈ g.tiles))).map (fun g => (e.1, x, g, g.tiles.idxOf m)) else none
    | none => none)

/-- The job a tile belongs to. -/
def jobOfTile (s : State) (n : Nat) : Option Nat :=
  s.host.jobs.findSome? (fun e => match e.2 with
    | some j => if decide (n ∈ j.tiles) then some e.1 else none
    | none => none)

/-- A string changed. -/
def updString (x : Stream) (i : Nat) (f : Strg → Strg) : Stream :=
  { x with strings := x.strings.map (fun g => if g.index = i then f g else g) }

/-- Stripes of a string turned into markers; their frames carry REMAPPED and STRIPE_DROPPED (R102, R103). -/
def toMarkers (x : Stream) (js : List Nat) : Stream :=
  js.foldl (fun x j => updFrame { x with markers := (j :: x.markers).eraseDups } (stripeSeq x j)
    (fun f => orFlags (flREMAPPED ||| flDROPPED) { f with dropped := f.dropped + 1 })) x

/-- The spare that is being loaded for a tile of a list (R203, R207). -/
def moveSpare (s : State) (tiles : List Nat) : Option Nat := (s.moves.find? (fun m => decide (m.1 ∈ tiles))).map (fun m => m.2)

/-- A spare no move is loading. -/
def spareFor (s : State) : Option Nat :=
  findBelow (fun n => isSpare s n && !heldTile s n && !decide (.tile n ∈ s.resetting) && !s.moves.any (fun m => m.2 = n)) 72

/-- A tile taken into service in place of another. -/
def serveFor (s : State) (old new : Nat) : State :=
  { s with retire := { s.retire with
      inService := (if decide (new ∈ s.retire.inService) then s.retire.inService else s.retire.inService ++ [new]).filter (fun k => k ≠ old) } }

/-- A replacement reserved for a failed tile of a string: bound to its logical index (R204). -/
def remapTo (s : State) (sn i n r : Nat) : State :=
  match streamOf s sn with
  | none => s
  | some x =>
    updStream (bindTile (unbindTile (serveFor s n r) n) r x.ctx (dXlate x) (wfld s (gtReg n 0x10) 22 16)) sn
      (fun y => updString y i (fun h => { h with remap := h.remap.filter (fun p => p.1 ≠ n) ++ [(n, r)] }))

/-- The stripes of the frame in dispatch that have not been handed out made markers, so that a new stripe height starts with a frame
(DESIGN CHOICE, log 70). -/
def markRest (x : Stream) : Stream :=
  let k := stripesOf x
  if k = 0 ∨ x.nextStripe % k = 0 then x
  else
    let next := (x.nextStripe / k + 1) * k
    { toMarkers x ((List.range (next - x.nextStripe)).map (fun i => x.nextStripe + i)) with nextStripe := next }

/-- R206: the Stroke of a failed tile re-planned under R192 with the tiles in service: the free ones and those its strings hold. A height
must keep the intake's stripes and the ring's size (log 70). -/
def replanFit (s : State) (x : Stream) (n : Nat) : Option Fit :=
  match packageOf s (dPlan x) with
  | none => none
  | some p =>
    let pool := (List.range 72).filter (fun t => decide (t ≠ n) && (freeTile s t || decide (t ∈ strokeTiles x ++ reservedTiles x)) &&
      !decide ((tileOf s t).st = .error) && !decide ((tileOf s t).st = .resetting))
    let hs := (planHeights p.content).filter (fun h => decide (h ≤ dH x) && decide (0 < bankRows s (dPort x) x.bank) &&
      decide (h % bankRows s (dPort x) x.bank = 0) && decide (2 * h + 2 * radiusAt p.content h ≤ dRingRows x))
    fitIn pool p.content (List.range p.content.variants.length) hs x.rate (dHeight x) (dWidth x)

/-- A failed tile of a string without a spare (R206): a free tile in service takes the segment; else the Stroke is planned anew, and its
strings leave dispatch until they are empty; else a real-time Stroke is cancelled, and another goes on with its remaining strings. -/
def replanString (s : State) (sn i n status : Nat) : State :=
  match streamOf s sn with
  | none => s
  | some x =>
    match findBelow (freeTile s) 72 with
    | some r => remapTo s sn i n r
    | none => match replanFit s x n with
      | some f =>
        let y := if f.h = dH x then x else markRest x
        setStream s sn (some { y with
          replan := some (f.h, f.variant, f.strings)
          strings := y.strings.map (fun g => { g with dispatch := false, remap := [], toVariant := none }) })
      | none => if dReal x then cancelStream s sn status 0x307 else s

/-- A remap in progress whose spare a Stroke may take (R207): of one that is not real-time when this one is, else of a higher stream number
of the same kind. Stream, string, failed tile, spare. -/
def stealable (s : State) (sn : Nat) (x : Stream) : Option (Nat × Nat × Nat × Nat) :=
  (s.streams.reverse).findSome? (fun e => match e.2 with
    | some y =>
      if carries y && ((dReal x && !dReal y) || (decide (dReal x = dReal y) && decide (sn < e.1))) then
        y.strings.findSome? (fun g => (g.remap.getLast?).map (fun p => (e.1, g.index, p.1, p.2)))
      else none
    | none => none)

/-- A replacement found for a failed tile of a string (R204, R206, R207): the spare being loaded for a move of the string, a spare, the
spare of a lower remap, or what a re-plan gives. -/
def replaceTile (s : State) (sn i n status : Nat) (moving : Option Nat) : State :=
  match streamOf s sn with
  | none => s
  | some x =>
    match (match moving with | some k => some k | none => spareFor s) with
    | some r => remapTo s sn i n r
    | none => match stealable s sn x with
      | some (m, j, t, r) =>
        let s1 := updStream s m (fun y => updString y j (fun h => { h with remap := h.remap.filter (fun p => p.1 ≠ t) }))
        replanString (remapTo s1 sn i n r) m j t status
      | none => replanString s sn i n status

/-- Stripes parked in a tile that the colour stage is not reading. -/
def parkedIn (s : State) (sn n : Nat) (g : Strg) : List Nat :=
  let read := s.colours.findSome? (fun e => match e.2 with
    | some j => if j.stream = sn then some j.stripe else none
    | none => none)
  ((g.parked.filter (fun p => p.tile = n)).map (fun p => p.stripe)).filter (fun j => some j ≠ read)

/-- A tile of a string has failed or is reset (R103, R203, R204, R207): its stripes in flight become markers, the string leaves
dispatch, a move of one of its tiles ends, its other tiles are cancelled, a replacement is found, REMAP is reported. What is parked in a
failed tile is not in flight and stays for the colour stage; a reset loses it (`lost`; log 15). A tile that was leaving needs no
replacement: the string starts again as it is. -/
def stringFail (s : State) (n status : Nat) (lost : Bool) : State :=
  match stringOf s n with
  | none => s
  | some (sn, x, g, _) =>
    let gone := if lost then parkedIn s sn n g else []
    let x1 := toMarkers x (g.inFlight ++ gone)
    let x2 := updString x1 g.index (fun h => { h with
      dispatch := false, inFlight := [], passed := [], parked := h.parked.filter (fun p => !decide (p.stripe ∈ gone))
      toVariant := if decide (n ∈ g.tiles) then h.toVariant else some (g.variant, g.tiles) })
    let leavers := (s.leaving.filter (fun e => decide (e.spare ∈ g.tiles))).map (fun e => e.slow)
    let moving := moveSpare s g.tiles
    let s1 := forAll ((g.tiles ++ leavers).filter (fun t => t ≠ n)) tileCancel (dropMoves (setStream s sn (some (ringFreed s x2))) g.tiles)
    let s2 := raiseOpen s1 0x307 0 n (some x.ctx)
    if decide (n ∈ g.tiles) then
      (match x.replan with
       | some _ => match replanFit s2 ((streamOf s2 sn).getD x) n with
         | some f => updStream s2 sn (fun y => { y with replan := some (f.h, f.variant, f.strings) })
         | none => replanString (updStream s2 sn (fun y => { y with replan := none })) sn g.index n status
       | none => replaceTile s2 sn g.index n status moving)
    else s2

/-- A spare taken into service while fewer tiles than the grade enables are (R3, R204, R406). -/
def promoteSpare (s : State) : State :=
  if s.retire.inService.length < gradeTiles s then
    match spareFor s with
    | some n => { s with retire := { s.retire with inService := s.retire.inService ++ [n] } }
    | none => s
  else s

/-- A tile taken out of service until it has been reset and tested (R203, R204, R208). -/
def setAside (s : State) (n : Nat) : State :=
  promoteSpare { s with retire := { s.retire with
    inService := s.retire.inService.filter (fun k => k ≠ n), untested := (n :: s.retire.untested).eraseDups } }

/-- Whether the colour stage still has stripes to read from a tile's park buffers. -/
def hasParked (s : State) (n : Nat) : Bool :=
  s.streams.any (fun e => match e.2 with | some x => x.strings.any (fun g => g.parked.any (fun p => p.tile = n)) | none => false)

/-- What Apgil does with a tile in ERROR (R204, R208, R405): its string is remapped, its job ends; with an uncorrectable error
it is retired, otherwise it is to be reset and tested before it is bound again. What it still has parked is released once it is read. -/
def tileFailed (s : State) (n : Nat) : State :=
  let s1 := match stringOf s n with
    | some _ => stringFail s n stCANCELLED false
    | none => s
  let s2 := jobsCheck { s1 with leaving := s1.leaving.filter (fun e => e.slow ≠ n) }
  let s3 := if hasParked s2 n then s2 else releaseTile s2 n .killed
  let s4 := unbindTile s3 n
  if wbit s (gtReg n 4) 19 then promoteSpare (retireTile s4 n 2) else setAside s4 n

/-- What Apgil does with a core in ERROR (R212, R223, R446): the job on it ends with its code, the core is unbound and its images go to
other cores; with an uncorrectable error it is retired. -/
def coreFailed (s : State) (n : Nat) : State :=
  let s1 := jobsCheck (raiseOpen s 0x307 0 (72 + n) (coreCtx s n))
  let s2 := unbindCore (releaseCore s1 n .killed) n
  if wbit s (ecReg n 4) 19 then retireCore s2 n 2 else s2

/-- A read of a physical range with its ECC finding (R118, R137, R212): an IDLE or DONE tile or core that an uncorrectable error puts in
ERROR counts as failed at once. -/
def eccMeet (s : State) (src : Src) (ecc : EccResult) (a n : Nat) : State × Bool :=
  let r := eccRead s src ecc a n
  match locate a with
  | .tile t _ => if (tileOf s t).st ≠ .error ∧ (tileOf r.1 t).st = .error then (tileFailed r.1 t, r.2) else r
  | .core c _ => if (coreOf s c).st ≠ .error ∧ (coreOf r.1 c).st = .error then (coreFailed r.1 c, r.2) else r
  | _ => r

end Sys2Proof.Machine
end

