-- ==== Sys2Proof/Machine/Etch.lean ====
section
/-!
DEFINITION. Sys2Proof/Machine/Etch.lean: a bundle issued by an Etch core, and what starts and stops a core (R209 to R224, R229 to
R233, R446).
-/
namespace Sys2Proof.Machine

/-- The bundle at an index (R209, R224). -/
def bundleAt (s : State) (n i : Nat) : Bundle := bundleOf (fun k => wordAt s (eimemBase n + 32 * i + 4 * k))

/-- A core stopped by what it was to issue (R210, R213, R218): ETCH_BUNDLE is raised. -/
def etchBad (s : State) (n code : Nat) : State := raiseOpen (coreStop s n code) 0x302 code (72 + n) (coreCtx s n)

/-- Whether a LOOPI or LOOPR at bundle pc breaks the nesting rules (R231). -/
def loopBad (c : Core) (w : Word) : Bool :=
  if isOp w .loopi || isOp w .loopr then
    let e := fld w 25 13
    decide (e ≤ c.pc) || (match c.loops with | l :: _ => decide (l.stop < e) | [] => false) || decide (4 ≤ c.loops.length)
  else false

/-- Loops whose body contains a branch target (R231). -/
def loopsAround (ls : List EtchLoop) (target : Nat) : List EtchLoop :=
  ls.filter (fun l => decide (l.start < target) && decide (target ≤ l.stop))

/-- The loop ends of a bundle that issues without a taken branch (R231): the stack and the next bundle. -/
def loopEnds (pc : Nat) : List EtchLoop → List EtchLoop × Nat
  | [] => ([], pc + 1)
  | l :: t =>
    if l.stop = pc then
      if 1 < l.remaining then ({ l with remaining := l.remaining - 1 } :: t, l.start + 1) else loopEnds pc t
    else (l :: t, pc + 1)

/-- Loop stack and next bundle after a bundle, and whether a branch was taken (R230, R231). -/
def nextBundle (c : Core) (b : Bundle) : List EtchLoop × Nat × Bool :=
  let e := fld b.s0 25 13
  match (match branchTo c b.s0 with | some t => some t | none => branchTo c b.s1) with
  | some t => (loopsAround c.loops t, t, true)
  | none =>
    if isOp b.s0 .loopi then ({ start := c.pc, stop := e, remaining := fld b.s0 9 0 + 1 } :: c.loops, c.pc + 1, false)
    else if isOp b.s0 .loopr then
      let k := (scOf c (fld b.s0 5 0)).toNat
      if k = 0 then (loopsAround c.loops (e + 1), e + 1, true)
      else ({ start := c.pc, stop := e, remaining := k } :: c.loops, c.pc + 1, false)
    else
      let r := loopEnds c.pc c.loops
      (r.1, r.2, false)

/-- Cycles a bundle waits for its source registers (R215). -/
def interlock (c : Core) (b : Bundle) : Nat := (bReads b).foldl (fun a k => max a (tget 0 c.ready k - c.cycle)) 0

/-- The cycle from which each register written by a bundle issued at a cycle may be read: not before the result of any earlier
bundle that writes it (R215). -/
def readyAfter (t : Tbl Nat) (at' : Nat) (b : Bundle) : Tbl Nat :=
  (bWrites b).foldl (fun t w =>
    let later (t : Tbl Nat) (k c : Nat) : Tbl Nat := tset 0 t k (max (tget 0 t k) c)
    let t1 := later t w.1 (at' + w.2)
    if 144 ≤ w.1 ∧ w.1 < 152 then later t1 (w.1 + 8) (at' + 4) else t1) t

/-- Whether the two load and store slots name one bank (R211). -/
def bankClash (c : Core) (b : Bundle) : Bool :=
  (lsOp (opField b.l0)).isSome && (lsOp (opField b.l1)).isSome && decide (lAddr c b.l0 / 128 % 16 = lAddr c b.l1 / 128 % 16)

/-- Whether a DMA access to the core's DMEM is under way, which may meet its load and store slots (R211). -/
def meshAtDmem (s : State) (n : Nat) : Bool :=
  s.chans.any (fun e => e.2.bursts.any (fun b => (b.reads ++ b.writes).any (fun p => overlap p.1 p.2 (dmemBase n) 0x100000)))

/-- The cycles a bundle's load and store slots lose to Mesh accesses that have waited for 4 cycles (R211): how the accesses of DMA
and the bundles of the core fall in time is open (log 1). -/
def meshLost (s : State) (n : Nat) (b : Bundle) : Nat :=
  if ((lsOp (opField b.l0)).isSome || (lsOp (opField b.l1)).isSome) && meshAtDmem s n then Config.freeNat 67 s.free else 0

/-- A request pulse (R221): granted to the channel the line is bound to, or dropped with ACCESS_DENIED. -/
def requestPulse (s : State) (n : Nat) (w : Word) : State :=
  let l := fld w 25 18
  match lineChan s l with
  | some c => if chanCtx s c = coreCtx s n then pulseLine s l (fld w 17 14 + 1) else denied s (.core n) (lineReg l 4)
  | none => denied s (.core n) (lineReg l 4)

/-- Whether a pulse has to wait at its source (R255). -/
def pulseHeld (s : State) (n : Nat) (w : Word) : Bool :=
  isOp w .req && (match lineChan s (fld w 25 18) with
    | some c => decide (chanCtx s c = coreCtx s n) && !pulseFits s (fld w 25 18) (fld w 17 14 + 1)
    | none => false)

/-- The flag update of a scalar slot (R220, R228). -/
def etchSignal (s : State) (n : Nat) (c : Core) (w : Word) : State :=
  if isOp w .fsig then signalFlag s (.core n) (fld w 15 0) (bitOf w 16) (scOf c (fld w 25 20)) else s

/-- What the slots of a bundle write into registers, given how they read DMEM, and whether an accumulator saturates (R214). -/
def bundleRegs (c : Core) (rd : Nat → Nat → Nat) (b : Bundle) : List RegW × Bool :=
  let x := xExec c b.x
  (sExec c b.s0 ++ sExec c b.s1 ++ lExec c rd b.l0 ++ lExec c rd b.l1 ++ vExec c b.v0 ++ vExec c b.v1 ++ pExec c b.v2 ++ x.1, x.2)

/-- The FSIGs of a program in program order with their operands, its loops and branches taken (R199): no wait is performed, nothing is stored,
and loads read the image's own segments (log 32). -/
def etchSignals : Nat → List Bundle → Memory → Core → List (Nat × Bool × Word)
  | 0, _, _, _ => []
  | fuel + 1, bs, m, c =>
    match bs[c.pc]? with
    | none => []
    | some b =>
      if !bundleLegal b || loopBad c b.s0 || lBad c b.l0 || lBad c b.l1 then []
      else
        let nx := nextBundle c b
        let sig := [b.s0, b.s1].filterMap (fun w => if isOp w .fsig then some (fld w 15 0, bitOf w 16, scOf c (fld w 25 20)) else none)
        sig ++ (if isOp b.s0 .halt then []
          else etchSignals fuel bs m { (bundleRegs c (memNum m) b).1.foldl putReg c with pc := nx.2.1, loops := nx.1 })

/-- What a legal bundle does once its wait, if any, is met (R213 to R216, R224, R228 to R245). How many nominal periods a slow clock
leaves out is open (log 1). -/
def issueBundle (s0 : State) (n : Nat) (b : Bundle) : State :=
  let s := coreStallEnd s0 n
  let c := coreOf s n
  let rd (ea k : Nat) : Nat := numAt s (dmemBase n + ea) k
  let x := bundleRegs c rd b
  let stores := lStores c b.l0 ++ lStores c b.l1
  let nx := nextBundle c b
  let wait := interlock c b
  let clash := b2n (bankClash c b) + meshLost s n b
  let lost := if nx.2.2 then 2 else 0
  let fz := coreFrozen s n
  let slow := if decide (.core n ∈ s.slow) then Config.freeNat 68 s.free else 0
  let cnt := cntAdd (cntAdd (cntAdd (cntAdd (cntAdd c.cnt fz 0 1) fz 4 clash) fz 5 wait) fz 6 lost) fz 7 slow
  let c1 := x.1.foldl putReg c
  let c2 : Core := { c1 with
    pc := nx.2.1
    loops := nx.1
    cnt := cnt
    ready := readyAfter c.ready (c.cycle + wait) b
    cycle := c.cycle + wait + 1 + clash + lost
    satSeen := c.satSeen || x.2
    met := false
    touched := (c.touched ++ stores.filterMap (fun w => granuleAt (locate (dmemBase n + w.1)))).eraseDups }
  let s1 := setCore (storeAll { s with free := s.free + 1 } (stores.map (fun w => (dmemBase n + w.1, w.2)))) n c2
  let s2 := if x.2 && !c.satSeen then raiseOpen s1 0x305 0 (72 + n) (coreCtx s n) else s1
  let s3 := if isOp b.s1 .req then requestPulse s2 n b.s1 else s2
  let s4 := etchSignal (etchSignal s3 n c b.s0) n c b.s1
  if isOp b.s0 .halt then jobsCheck (setCore s4 n { coreOf s4 n with st := .done, code := stOK, pc := c.pc }) else s4

/-- A core goes to WAITING for a flag or an event counter, which it counts (R218, R220, R222, R224). -/
def etchWait (s : State) (n : Nat) (ev : Option Nat) : State :=
  let s1 := coreStallOn s n (if ev.isSome then 3 else 2)
  setCore s1 n { coreOf s1 n with st := .waiting, waitEv := ev, waitFrom := s.clk.up }

/-- A legal bundle at issue: FWAIT and EVWAIT hold it until they are met; an address that breaks R210 or a loop that breaks
R231 stops the core. -/
def etchIssue (s : State) (n : Nat) (b : Bundle) : State :=
  let c := coreOf s n
  if isOp b.s0 .fwait && !c.met then
    match startWait s (72 + n) (some ((coreCtx s n).getD 64)) (fld b.s0 15 0) (bitOf b.s0 16) (scOf c (fld b.s0 25 20))
        (wfld s (ecReg n 0x14) 23 0) with
    | none => setCore s n { c with met := true }
    | some s1 => etchWait s1 n none
  else if isOp b.s0 .evwait && !c.met then
    let k := fld b.s0 2 0
    if tget 0 c.events k = 0 then etchWait s n (some k)
    else setCore s n { c with met := true, events := tset 0 c.events k (tget 0 c.events k - 1) }
  else if loopBad c b.s0 then etchBad s n stCHECK
  else if lBad c b.l0 || lBad c b.l1 then etchBad s n stALIGN
  else if pulseHeld s n b.s1 then coreStallOn s n 8
  else issueBundle s n b

/-- BUNDLE_ISSUE (R211 to R216, R229 to R245): the bundle at the core's program counter. A wait that holds already is met and
its bundle issues at once. `ecc` is what the reads of IMEM and DMEM met. -/
def execBundleIssue (core : Nat) (ecc : EccResult) (s : State) : Out :=
  let c := coreOf s core
  if c.st ≠ .running ∨ heldInReset s (.core core) then .next s
  else if withheld s (coreCtx s core) then .next (coreStallOn s core 1)
  else if ecc = .uncorrectable then .next (coreEccFatal s core)
  else
    let s0 := if ecc = .corrected then coreEccCorr s core else s
    let b := bundleAt s0 core c.pc
    if 8191 < c.pc ∨ bundleLegal b = false then .next (etchBad s0 core stCHECK)
    else
      let s1 := etchIssue s0 core b
      if (coreOf s1 core).st = .running ∧ c.met = false ∧ (coreOf s1 core).met then .next (etchIssue s1 core b) else .next s1

/-- Whether a source may write a core's registers (R223). -/
def coreControl (s : State) (src : Src) (n off : Nat) (f : State → State) : State :=
  match meets s src (ecReg n off) with
  | .here => if isApgil src || decide (coreCtx s n = none) then f s else denied s src (ecReg n off)
  | m => refuse s src (ecReg n off) m

/-- ETCH_START (R218, R223, R233). -/
def execEtchStart (src : Src) (core : Nat) (s : State) : Out := .next (coreControl s src core 0 (fun s => coreGo s core))

/-- ETCH_CANCEL (R218, R219, R223): the loop stack is cleared as well (R231). -/
def execEtchCancel (src : Src) (core : Nat) (s : State) : Out :=
  .next (coreControl s src core 0 (fun s =>
    if engBusy (coreOf s core).st then
      let s1 := coreCancel s core
      setCore s1 core { coreOf s1 core with loops := [] }
    else s))

/-- ETCH_STOP_DONE (R218, R223, R446): the stores have drained: DONE after a cancel, otherwise ERROR, and a job the core works
for ends with its code; REMAP reports the move of its images. -/
def execEtchStopDone (core : Nat) (s : State) : Out :=
  let c := coreOf s core
  if c.st = .stopping then
    if c.code = stCANCELLED then .next (jobsCheck (setCore s core { c with st := .done }))
    else
      .next (coreFailed (setCore s core { c with st := .error, fault := true }) core)
  else .next s

/-- ETCH_COUNTER_CLEAR (R223, R224). -/
def execEtchCounterClear (src : Src) (core : Nat) (s : State) : Out :=
  .next (coreControl s src core 0x180 (fun s => setCore s core { coreOf s core with cnt := [] }))

/-- An event pulse to a counter of a core (R222): a wait on it is satisfied, else it is counted, saturating. -/
def eventPulse (s : State) (n k : Nat) : State :=
  let c := coreOf s n
  if c.st = .waiting ∧ c.waitEv = some k then
    setCore (coreStallEnd s n) n { coreOf (coreStallEnd s n) n with st := .running, met := true, waitEv := none }
  else if tget 0 c.events k = 0xFFFF then raiseOpen s 0x303 0 (72 + n) (coreCtx s n)
  else setCore s n { c with events := tset 0 c.events k (tget 0 c.events k + 1) }

end Sys2Proof.Machine
end

