-- ==== Sys2Proof/Machine/Tile.lean ====
section
/-!
DEFINITION. Sys2Proof/Machine/Tile.lean: the program records of a Graver tile and what starts and stops it (R114 to R141,
R200 to R208, R468, R469).
-/
namespace Sys2Proof.Machine

/-! ### Records -/

/-- The record at a tile's program counter, none where it is reserved or runs past IMEM (R119, R120). -/
def tileRec (s : State) (n : Nat) : Option (List Word) :=
  let pc := (tileOf s n).pc
  let k := recWords (wordAt s (imemBase n + 4 * pc))
  if k = 0 ∨ 16383 ≤ pc ∨ 16384 < pc + k then none
  else
    let ws := (List.range k).map (fun i => wordAt s (imemBase n + 4 * (pc + i)))
    if fld (ws.getD 0 0) 3 0 = 1 ∧ 7 < lOp (ws.drop 1) then none else some ws

/-- Whether a tile is about to execute a record: running, no HALT reached, its domain not in reset. -/
def tileRuns (s : State) (n : Nat) : Bool :=
  let t := tileOf s n
  decide (t.st = .running) && !t.haltAt && !heldInReset s (.tile n)

/-- A record that must not run (R120, R121, R129): the tile stops with CHECKWORD_BAD and TILE_RECORD is raised. -/
def tileBad (s : State) (n : Nat) : State := raiseOpen (tileStop s n stCHECK) 0x301 stCHECK n (tileCtx s n)

/-- A record of a given opcode executed by `f`, given its words; any other record leaves the state, a bad one stops the
tile. -/
def onRecord (s : State) (n op : Nat) (f : List Word → State) : State :=
  if tileRuns s n then
    match tileRec s n with
    | none => tileBad s n
    | some ws => if fld (ws.getD 0 0) 3 0 = op then f ws else s
  else s

/-- The tile after a record: the program counter moved on. -/
def tileAdvance (s : State) (n pc : Nat) : State :=
  setTile (stallEnd s n) n { tileOf (stallEnd s n) n with pc := pc, lastRecord := s.clk.up }

/-! ### LAYER -/

/-- The words of a layer with the steps of the active loops added (R121). -/
def steppedLayer (t : Tile) (l : List Word) : List Word := stepWords t.loops l

/-- Whether a fetch has been issued in full. -/
def fetchIssued (f : Fetch) : Bool := decide (f.row * f.rows ≤ f.issued)

/-- The words of a layer pass by pass (R126, R164). -/
def layerPassesAt (s : State) (n : Nat) (l : List Word) : List (List Word) :=
  (List.range (max 1 (lf l 21 12 0))).map (passLayer s n l)

/-- Whether a fetch waits for a tag of its cluster (R136). -/
def tagWait (f : Fetch) : Bool := decide (32 ≤ f.tags) && !fetchIssued f

/-- What keeps a layer from running, as the cause it counts under R110: the power controller, rotated weights of one of its passes, the
previous fetch, or an earlier fetch not issued in full (R124, R136, R392); none when it runs. -/
def layerCause (s : State) (n : Nat) (l : List Word) : Option Nat :=
  let t := tileOf s n
  if withheld s (tileCtx s n) then some 1
  else if t.rotDue.any (fun r => (layerPassesAt s n l).any (fun q => overlap r.1 r.2 (lf q 12 19 0) (lf q 13 20 0))) then some 3
  else if (lb l 0 25 && decide (t.fetch ≠ [])) || (lb l 0 26 && t.fetch.any (fun f => !fetchIssued f)) then
    some (if t.fetch.any (fun f => f.wm) then 3 else if t.fetch.any tagWait then 4 else 5)
  else none

/-! ### The rows of a stripe (R98, R99) -/

/-- The stripe a tile of a string works on, or one ahead of it: each tile takes the string's stripes in order; a tile that takes another's
segment follows the stripes the other still finishes (R97, R203). -/
def stripeAt (s : State) (n : Nat) (g : Strg) (place ahead : Nat) : Option Nat :=
  let before := match s.leaving.find? (fun e => e.spare = n) with | some e => e.left | none => 0
  g.inFlight[g.passed.getD place 0 + before + ahead]?

/-- The rows that a LAYER record at the program counter of a string's tile stands for. -/
def rowEdgeOf (s : State) (n : Nat) : Option (Stream × Strg × Nat × RowEdge) :=
  match stringOf s n with
  | none => none
  | some (_, x, g, k) =>
    match stringVariant s x g with
    | none => none
    | some v =>
      match v.tiles.find? (fun q => q.logical = wfld s (gtReg n 0x10) 22 16) with
      | none => none
      | some q =>
        let i := (recordsOf q.words.length 0 q.words).findIdx (fun r => r.1 = (tileOf s n).pc)
        (q.rows.find? (fun e => e.record = i)).map (fun e => (x, g, k, e))

/-- Rows of a tensor of `u` rows for 8 frame rows, with `halo` rows beside those of stripe k, that lie above and below the frame (R98). -/
def cutRows (x : Stream) (k halo u : Nat) : Nat × Nat :=
  (halo - k * dH x * u / 8, (k * dH x + dH x) * u / 8 + halo - ceilDiv (dHeight x * u) 8)

/-- Rows of the input region that taps count in, for rows of the held tensor (R166); rows of the computed tensor for rows of the written one
(R165, R167). -/
def tapRows (l : List Word) (c : Nat) : Nat := if rgIn l then (if rgMode l = 1 then c / rgF l else c * rgF l) else c
def rowsComputed (l : List Word) (c : Nat) : Nat :=
  let p := if rgOut l then (if rgMode l = 2 then c / rgF l else c * rgF l) else c
  if lArray l && decide (poolMode l ≠ 0) then p * poolH l else p

/-- A layer of a stripe at a frame's edge: rows outside the frame are neither read nor computed, and the padding takes their place (R98,
R99). Inside the frame it is the layer itself. -/
def edgeRows (l : List Word) (x : Stream) (j : Nat) (e : RowEdge) : List Word :=
  let k := j % stripesOf x
  let ci := cutRows x k e.inHalo e.inRows
  let co := cutRows x k e.outHalo e.outRows
  let step : Int := if lOp l = 3 then poolSy l else lf l 9 13 11 + 1
  let pad := sext 16 (lf l 10 31 16) + (tapRows l ci.1 : Nat) - step * (rowsComputed l co.1 : Nat)
  let l1 := l.set 2 (setFld (lw l 2) 29 16 (lf l 2 29 16 - (ci.1 + ci.2)))
  let l2 := l1.set 6 (setFld (lw l1 6) 29 16 (lf l1 6 29 16 - (co.1 + co.2)))
  if ci.1 = 0 ∧ co.1 = 0 then l2 else l2.set 10 (setFld (lw l2 10) 31 16 (wrapI 16 pad))

/-- The input rows of a stripe (R96). -/
def inputRows (x : Stream) (j : Nat) : List Nat :=
  let k := j % stripesOf x
  let lo := k * dH x - x.halo
  let hi := min (dHeight x) (k * dH x + dH x + x.halo)
  (List.range (hi - lo)).map (fun i => lo + i)

/-- A fetch of the Plate output ring (R95, R98, R99): the input rows of a stripe and no others, from the slot of the first one on. -/
def ringFetch (x : Stream) (j : Nat) (f : Fetch) : Fetch :=
  let rows := inputRows x j
  match x.ring.find? (fun q => q.frame = stripeSeq x j && q.row = rows.headD 0) with
  | some q => { f with src := ringAddr x q.slot, rows := rows.length, ring := some (dRing x, dRingRows x * ringPitch x) }
  | none => f

/-- A layer as the tile runs it for its stripe, and the fetch it starts. -/
def stripeLayer (s : State) (n : Nat) (l : List Word) : List Word × (Fetch → Fetch) :=
  match rowEdgeOf s n with
  | none => (l, id)
  | some (x, g, k, e) =>
    (match stripeAt s n g k 0 with | some j => edgeRows l x j e | none => l,
     match e.ring.bind (stripeAt s n g k) with | some j => ringFetch x j | none => id)

/-- One element written into a byte: the whole byte, or a nibble of it (R115). -/
def mergeByte (old : Byte) (e : ElemW) : List Byte :=
  if e.bits = 4 then
    [BitVec.ofNat 8 (if e.nib = 0 then old.toNat / 16 * 16 + e.code % 16 else old.toNat % 16 + e.code % 16 * 16)]
  else leBytes (e.bits / 8) e.code

/-- One element written at a physical base. -/
def putElem (s : State) (base : Nat) (e : ElemW) : State := store s (base + e.addr) (mergeByte (byteAt s (base + e.addr)) e)

/-- The physical tile of a logical index among the tiles of a tile's own string or job (R135). -/
def mappedTile (s : State) (n logical : Nat) : Option Nat :=
  let peers := match stringOf s n with
    | some (_, _, g, _) => g.tiles
    | none => match (jobOfTile s n).bind (jobOf s) with
      | some j => j.tiles
      | none => (List.range 72).filter (fun m => tileCtx s m = tileCtx s n)
  peers.find? (fun m => decide (wfld s (gtReg m 0x10) 22 16 = logical))

/-- The elements of a layer written into the AM of another tile, up to the first that is answered under R26 (R135): the
state, and whether one was. -/
def putRemote (n m : Nat) : List ElemW → State → State × Bool
  | [], s => (s, false)
  | e :: t, s =>
    let a := tileBase m + e.addr
    match meets s (.tile n) a with
    | .here => putRemote n m t (putElem s (tileBase m) e)
    | .reset => (refuse s (.tile n) a .reset, true)
    | r => putRemote n m t (refuse s (.tile n) a r)

/-- A write of the tile answered under R26 (R135, R137): nack is set, the write counted, the tile stops. -/
def tileNack (s : State) (n : Nat) : State :=
  let s1 := setWbit s (gtReg n 4) 20 true
  let t := tileOf s1 n
  tileStop (setTile s1 n { t with cnt := cntAdd t.cnt (tileFrozen s n) 10 1 }) n stRESET

/-- The fetch a layer starts (R136). -/
def layerFetch (l : List Word) : Fetch :=
  { src := (lw l 22).toNat + lf l 23 7 0 * 2 ^ 32, dst := lf l 24 20 0, wm := lb l 24 21, row := lf l 25 15 0,
    rows := lf l 25 31 16, stride := (lw l 26).toNat, issued := 0, faulted := false }

/-- First address of a fetch's destination. -/
def fetchDst (n : Nat) (f : Fetch) : Nat := (if f.wm then wmBase n else amBase n) + f.dst

/-- The granules of an address range. -/
def rangeGranules (a n : Nat) : List Nat :=
  if n = 0 then []
  else (List.range ((a + n - 1) / 0x10000 - a / 0x10000 + 1)).filterMap (fun i => granuleAt (locate ((a / 0x10000 + i) * 0x10000)))

/-- What a layer computes: its run and the elements it writes, pass by pass without the array (R130, R164, R168). -/
def layerElems (s : State) (n : Nat) (l : List Word) : RunAcc × List ElemW :=
  let passes := max 1 (lf l 21 12 0)
  if lArray l then runArray s n l
  else ({ st := s, comp := [], cycles := plainCycles l * passes, culls := 0, sat := false },
        (List.range passes).flatMap (fun p => plainWrites s n (passLayer s n l p)))

/-- The state with a layer's elements written, into the tile's AM or another tile's, and whether a write was answered under R26. -/
def layerOut (s : State) (n : Nat) (l : List Word) : State × Bool :=
  let ra := layerElems s n l
  if lb l 0 27 then
    (match mappedTile s n (lf l 5 30 24) with
     | some m => putRemote n m ra.2 ra.1.st
     | none => (ra.1.st, false))
  else (ra.2.foldl (fun s e => putElem s (amBase n) e) ra.1.st, false)

/-- The counters after a layer (R110, R133): the cycles in which the array starts multiply-accumulates and those to which no cause applies
are busy; how many the latter are is open, as is how many nominal periods a slow clock leaves out (logs 1, 40). -/
def layerCounts (s : State) (n : Nat) (acc : RunAcc) (t : Tbl Nat) : Tbl Nat :=
  let fz := tileFrozen s n
  let t1 := cntAdd (cntAdd (cntAdd t fz 0 (acc.cycles + Config.freeNat 66 (2 * s.free))) fz 8 acc.culls) fz 9 1
  if decide (.tile n ∈ s.slow) then cntAdd t1 fz 7 (Config.freeNat 66 (2 * s.free + 1)) else t1

/-- A layer run on a tile: results written, counters, saturation, fetch (R110, R130 to R136, R147). -/
def runLayer (s0 : State) (n : Nat) (l : List Word) (ringed : Fetch → Fetch) : State :=
  let s := stallEnd s0 n
  let t0 := tileOf s n
  let acc := (layerElems s n l).1; let ws := (layerElems s n l).2
  let out := layerOut s n l
  let f := ringed (layerFetch l)
  let fetching := lb l 0 26 && decide (0 < f.row * f.rows)
  let d := loopDims l
  let mine := ((if lb l 0 27 then [] else ws.map (fun e => n * 64 + e.addr / 0x10000)) ++
    (if lArray l then rangeGranules (pmBase n + lf l 17 18 0) (d.bw * d.bh * d.ol * d.ps) else []) ++
    (if fetching then rangeGranules (fetchDst n f) (f.row * f.rows) else [])).eraseDups
  let s1 := setTile { out.1 with free := out.1.free + 1 } n { t0 with
    layer := l
    ran := t0.ran + 1
    ranFull := t0.ranFull + 1
    fetch := if fetching then t0.fetch ++ [f] else t0.fetch
    touched := (t0.touched ++ mine).eraseDups
    cnt := layerCounts out.1 n acc t0.cnt
    pc := t0.pc + 33
    lastRecord := s.clk.up }
  let s2 := if acc.sat then raiseOpen s1 0x305 0 n (tileCtx s n) else s1
  if out.2 then tileNack s2 n else s2

/-- An empty layer (R132): the record is loaded and counted, nothing else. -/
def emptyLayer (s0 : State) (n : Nat) (l : List Word) : State :=
  let s := stallEnd s0 n
  let t := tileOf s n
  setTile s n { t with layer := l, ran := t.ran + 1, cnt := cntAdd t.cnt (tileFrozen s n) 9 1, pc := t.pc + 33, lastRecord := s.clk.up }

/-- LAYER (R98, R99, R110, R120, R126 to R136): the record is checked, loaded into the layer registers and run on the rows of the tile's
stripe; an empty layer does nothing else. `ecc` is what the reads of the tile's memories met. -/
def execLayer (tile : Nat) (ecc : EccResult) (s : State) : Out :=
  .next (onRecord s tile 1 (fun ws =>
    let l0 := ws.drop 1
    if crcWords (l0.take 31) ≠ lw l0 31 then tileBad s tile
    else
      let e := stripeLayer s tile (steppedLayer (tileOf s tile) l0)
      let run (s : State) : State := if lEmpty e.1 then emptyLayer s tile e.1 else runLayer s tile e.1 e.2
      match (if lEmpty e.1 then none else layerCause s tile e.1) with
      | some c => stallOn s tile c
      | none => match ecc with
        | .clean => run s
        | .corrected => run (tileEccCorr s tile)
        | .uncorrectable => tileEccFatal (setTile s tile { tileOf s tile with layer := e.1 }) tile))

/-! ### Loops, flags, rotation, HALT -/

/-- LOOP (R121). -/
def execLoop (tile : Nat) (s : State) : Out :=
  .next (onRecord s tile 2 (fun ws =>
    let t := tileOf s tile
    tileAdvance (setTile s tile { t with loops := tileLoop t.pc ws :: t.loops }) tile (t.pc + ws.length)))

/-- ENDLOOP (R121): the innermost active loop of its level goes round or ends; without one the record is bad. -/
def execEndloop (tile : Nat) (s : State) : Out :=
  .next (onRecord s tile 3 (fun ws =>
    let t := tileOf s tile
    match t.loops.dropWhile (fun f => decide (f.level ≠ fld (ws.getD 0 0) 5 4)) with
    | [] => tileBad s tile
    | f :: rest =>
      if f.iter + 1 < f.count then
        tileAdvance (setTile s tile { t with loops := { f with iter := f.iter + 1 } :: rest }) tile f.body
      else tileAdvance (setTile s tile { t with loops := rest }) tile (t.pc + 1)))

/-- The leaving entry of a tile changed (R203). -/
def updLeaving (s : State) (n : Nat) (f : Leaving → Leaving) : State :=
  { s with leaving := s.leaving.map (fun e => if e.slow = n then f e else e) }

/-- A slow tile has finished the stripes it held (R203): unbound, out of service until it passes a test. -/
def leaveDone (s : State) (n : Nat) : State :=
  let s1 := setTile (stallEnd s n) n { tileOf (stallEnd s n) n with st := .done, code := stOK, haltAt := false }
  let s2 := { s1 with leaving := s1.leaving.filter (fun e => e.slow ≠ n) }
  let s3 := if hasParked s2 n then s2 else releaseTile s2 n .killed
  setAside (unbindTile s3 n) n

/-- The flag that brings a tile of a string its stripes, that by which it gives a buffer back, and that by which it hands a stripe on (R97). -/
def feedFlag (v : Variant) (i k : Nat) : Nat := if k = 0 then inFlagOf v i else handFlagOf v i (k - 1)
def creditFlag (v : Variant) (i k : Nat) : Nat := if k = 0 then inCreditOf v i else handCreditOf v i (k - 1)
def passFlag (v : Variant) (g : Strg) (k : Nat) : Nat := if k + 1 = g.tiles.length then outFlagOf v g.index else handFlagOf v g.index k

/-- What a WAIT on a flag means while a slow tile leaves its string (R203; log 70). To the slow tile the flag that brings it stripes is met
while one of its own waits in its buffers, and otherwise it has finished. The tile that took its segment waits for no credit of the next tile
before the slow one is gone. None for every other wait. -/
def leavingWait (s : State) (n flag : Nat) : Option State :=
  match stringOf s n with
  | none => none
  | some (_, x, g, k) =>
    match stringVariant s x g, s.leaving.find? (fun e => decide (e.slow = n) || decide (e.spare = n)) with
    | some v, some e =>
      if e.slow = n then
        (if flag = feedFlag v g.index k then some (if 0 < e.wait then tileAdvance s n ((tileOf s n).pc + 2) else leaveDone s n) else none)
      else if k + 1 < g.tiles.length ∧ flag = creditFlag v g.index (k + 1) then some (stallOn s n 6)
      else none
    | _, _ => none

/-- WAIT (R110, R122, R298, R300): met at once, or the tile waits. -/
def execWait (tile : Nat) (s : State) : Out :=
  .next (onRecord s tile 4 (fun ws =>
    let w := ws.getD 0 0
    match leavingWait s tile (fld w 31 16) with
    | some s1 => s1
    | none =>
      match startWait s tile (some ((tileCtx s tile).getD 64)) (fld w 31 16) (bitOf w 4) (ws.getD 1 0)
          (wfld s (gtReg tile 0x14) 23 0) with
      | none => tileAdvance s tile ((tileOf s tile).pc + 2)
      | some s1 =>
        let s2 := stallOn s1 tile (if withheld s (tileCtx s tile) then 1 else 2)
        setTile s2 tile { tileOf s2 tile with st := .waiting }))

/-- One more stripe passed on at a place of a string. -/
def passAt (l : List Nat) (k : Nat) : List Nat := l.zipIdx.map (fun p => if p.2 = k then p.1 + 1 else p.1)

/-- The last tile of a string delivers its oldest stripe into a free park buffer (R100); none while it has none, or while the stripe lies
16 or more ahead of the colour stage. -/
def deliverStripe (s : State) (n sn : Nat) (x : Stream) (g : Strg) : Option State :=
  let j := g.inFlight.headD 0
  match findBelow (fun b => !g.parked.any (fun p => p.buf = b && p.tile = n)) (dPark x) with
  | some b =>
    if j < x.head + 16 then
      some (updStream s sn (fun y => updString y g.index (fun h =>
        { h with inFlight := h.inFlight.drop 1, passed := h.passed.map (fun p => p - 1),
                 parked := h.parked ++ [{ stripe := j, buf := b, tile := n }] })))
    else none
  | none => none

/-- What a SIGNAL of a string's tile means to the Stroke (R96, R97, R100, R203): on the flag by which it hands stripes on it has finished its
oldest one, and the last tile delivers it; on its input credit flag the first tile gives a buffer back. A tile that has taken another's
segment hands nothing on before the other has. None when the SIGNAL has to wait. -/
def stringSignal (s : State) (n flag v : Nat) : Option State :=
  match stringOf s n with
  | none => some s
  | some (sn, x, g, k) =>
    match stringVariant s x g with
    | none => some s
    | some va =>
      if flag = passFlag va g k ∧ g.inFlight ≠ [] then
        if s.leaving.any (fun e => decide (e.spare = n)) then none
        else
          let s1 := updLeaving s n (fun e => { e with left := e.left - 1 })
          if k + 1 = g.tiles.length then deliverStripe s1 n sn x g
          else some (updStream s1 sn (fun y => updString y g.index (fun h => { h with passed := passAt h.passed k })))
      else if flag = inCreditOf va g.index ∧ g.tiles.head? = some n then
        let y := updString x g.index (fun h => { h with
          credits := min va.buffers (h.credits + v), creditAt := if h.credits = 0 then s.clk.up else h.creditAt })
        some (setStream s sn (some (ringFreed s y)))
      else some s

/-- Whether a SIGNAL of a slow tile that is leaving acts on its own buffers alone (R203): the flag that brings stripes, or their credit, is the
other tile's by now. -/
def leavingSignal (s : State) (n flag : Nat) : Option State :=
  match s.leaving.find? (fun e => e.slow = n), stringOf s n with
  | some _, some (_, x, g, k) =>
    match stringVariant s x g with
    | some v =>
      if flag = feedFlag v g.index k then some (updLeaving s n (fun e => { e with wait := e.wait - 1 }))
      else if flag = creditFlag v g.index k then some s
      else none
    | none => none
  | _, _ => none

/-- SIGNAL (R97, R100, R110, R123): after the earlier writes, rotations among them, have arrived. -/
def execSignal (tile : Nat) (s : State) : Out :=
  .next (onRecord s tile 5 (fun ws =>
    let w := ws.getD 0 0
    if (tileOf s tile).rotOut ≠ [] then s
    else match leavingSignal s tile (fld w 31 16) with
      | some s1 => tileAdvance s1 tile ((tileOf s tile).pc + 2)
      | none => match stringSignal s tile (fld w 31 16) (ws.getD 1 0).toNat with
        | none => stallOn s tile 6
        | some s1 =>
          signalFlag (tileAdvance s1 tile ((tileOf s tile).pc + 2)) (.tile tile) (fld w 31 16) (bitOf w 4) (ws.getD 1 0)))

/-- ROTATE (R124): a transfer to the next tile is asked for, a ring credit granted to the previous one. -/
def execRotate (tile : Nat) (s : State) : Out :=
  .next (onRecord s tile 6 (fun ws =>
    let t := tileOf s tile
    let dst := fld (ws.getD 2 0) 19 0; let bytes := fld (ws.getD 3 0) 20 0
    let r : Rotation := { next := fld (ws.getD 0 0) 30 24, src := fld (ws.getD 1 0) 19 0, dst := dst, bytes := bytes }
    tileAdvance (setTile s tile { t with rotOut := t.rotOut ++ [r], rotDue := t.rotDue ++ [(dst, bytes)],
                                         ringCredits := t.ringCredits + 1 }) tile (t.pc + 4)))

/-- The tile whose oldest rotation goes to a tile. -/
def rotSender (s : State) (tile : Nat) : Option (Nat × Rotation) :=
  (List.range 72).findSome? (fun m => match (tileOf s m).rotOut with
    | r :: _ => if mappedTile s m r.next = some tile then some (m, r) else none
    | [] => none)

/-- ROTATE_ARRIVED (R124, R201): the previous tile's transfer has arrived in full in the tile's WM. -/
def execRotateArrived (tile : Nat) (s : State) : Out :=
  let t := tileOf s tile
  match rotSender s tile with
  | some (m, r) =>
    if 0 < t.ringCredits ∧ heldInReset s (.tile tile) = false ∧ heldInReset s (.tile m) = false then
      let s1 := store s (wmBase tile + r.dst) (bytesAt s (wmBase m + r.src) r.bytes)
      let s2 := setTile s1 m { tileOf s1 m with rotOut := (tileOf s1 m).rotOut.drop 1 }
      let t2 := tileOf s2 tile
      .next (setTile s2 tile { t2 with ringCredits := t2.ringCredits - 1, rotDue := t2.rotDue.drop 1,
                                       touched := (t2.touched ++ rangeGranules (wmBase tile + r.dst) r.bytes).eraseDups })
    else .next s
  | none => .next s

/-- HALT (R125): reached; it completes with HALT_COMPLETE. -/
def execHalt (tile : Nat) (s : State) : Out :=
  .next (onRecord s tile 7 (fun _ => setTile s tile { tileOf s tile with haltAt := true, lastRecord := s.clk.up }))

/-- Whether a domain reset of a tile waits in the queue: it falls in this event tick and takes precedence (R139, log 7). -/
def resetDue (s : State) (n : Nat) : Bool :=
  s.pending.any (fun c => match c with | .domainReset (.tile m) => decide (m = n) | _ => false)

/-- HALT_COMPLETE (R125, R137, R139): every write has arrived and every tag returned: EMPTY when every layer run was empty. -/
def execHaltComplete (tile : Nat) (s : State) : Out :=
  let t := tileOf s tile
  if t.st = .running ∧ t.haltAt ∧ t.rotOut = [] ∧ t.fetch = [] then
    if s.leaving.any (fun e => decide (e.slow = tile)) then .next (leaveDone s tile)
    else if decide (.tile tile ∈ s.resetting) || resetDue s tile then .next s
    else .next (jobsCheck (setTile s tile { t with
      st := .done, haltAt := false, code := if 1 ≤ t.ran ∧ t.ranFull = 0 then stEMPTY else stOK }))
  else .next s

/-! ### The fetch unit (R136) -/

/-- The I/O address of a byte of a fetch: past the end of the Plate output ring it goes on at the ring's start (R95). -/
def fetchIo (f : Fetch) (pos : Nat) : Nat :=
  let a := f.src + pos / f.row * f.stride + pos % f.row
  (match f.ring with | some (b, n) => if b + n ≤ a then a - n else a | none => a) % 2 ^ 40

/-- The translated address of a byte of a fetch. -/
def fetchAddr (s : State) (n : Nat) (f : Fetch) (pos : Nat) : Option Nat :=
  translate s (wfld s (gtReg n 0x10) 15 8) false (fetchIo f pos)

/-- The pieces of a range of a fetch's bytes within a row, one page each: offset, bytes. -/
def fetchSpans (f : Fetch) (pos n : Nat) : List (Nat × Nat) :=
  (pageSpans (n / 4096 + 2) (fetchIo f pos) n).map (fun p => (pos + (p.1 - fetchIo f pos), p.2))

/-- The first byte of a range of a fetch whose page faults. -/
def fetchFault (s : State) (n : Nat) (f : Fetch) (pos k : Nat) : Option Nat :=
  ((fetchSpans f pos k).find? (fun p => (fetchAddr s n f p.1).isNone)).map (fun p => p.1)

/-- The bytes of a fetch's next burst: up to 256 of a row (R136). -/
def fetchBurst (f : Fetch) : Nat := min 256 (f.row - f.issued % f.row)

/-- The rows of a fetch as pieces of one page each: (offset, bytes). -/
def fetchPieces (f : Fetch) : List (Nat × Nat) := (List.range f.rows).flatMap (fun r => fetchSpans f (r * f.row) f.row)

/-- The data of a fetch read piece by piece: the state, the status OK, PAGE_FAULT, CHECKWORD_BAD or RESET_IN_PROGRESS, and the bytes. The ECC
finding belongs to the first piece; poisoned lines show by themselves (R26, R118, R137, R275). -/
def fetchRead (n : Nat) (f : Fetch) : EccResult → List (Nat × Nat) → State → State × Nat × List Byte
  | _, [], s => (s, stOK, [])
  | ecc, (o, k) :: t, s =>
    match fetchAddr s n f o with
    | none => (s, stPAGE, [])
    | some a =>
      let e := eccMeet s (.tile n) ecc a k
      if e.2 then (e.1, stCHECK, [])
      else match engineRead e.1 (.tile n) a k with
        | (s1, _, .reset) => (s1, stRESET, [])
        | (s1, bs, _) =>
          let q := fetchRead n f .clean t s1
          (q.1, q.2.1, bs ++ q.2.2)

/-- FETCH_DONE (R136 to R138, R275): the oldest fetch has been issued in full and its data has returned; a stopping tile
discards it. -/
def execFetchDone (tile : Nat) (ecc : EccResult) (s : State) : Out :=
  let t := tileOf s tile
  match t.fetch with
  | [] => .next s
  | f :: rest =>
    let s0 := setTile s tile { t with fetch := rest }
    if t.st = .stopping then .next s0
    else if engBusy t.st && fetchIssued f then
      let r := fetchRead tile f ecc (fetchPieces f) s0
      if r.2.1 = stOK then
        .next (noteBytes (store r.1 (fetchDst tile f) r.2.2) (32 + tile % 12 / 3) tile (tileCtx r.1 tile) r.2.2.length)
      else .next (tileStop r.1 tile r.2.1)
    else .next s

/-- OUTPUT_WRITE_NACK (R26, R135): a posted output write at an address has met an island held in reset. -/
def execOutputWriteNack (tile addr : Nat) (s : State) : Out :=
  if engBusy (tileOf s tile).st && decide (meets s (.tile tile) addr = .reset) then
    .next (tileNack (refuse s (.tile tile) addr .reset) tile)
  else .next s

/-- FETCH_READ_NACK (R26, R136): a read of the oldest fetch has met an island held in reset; it is not written. -/
def execFetchReadNack (tile : Nat) (s : State) : Out :=
  let t := tileOf s tile
  match t.fetch with
  | [] => .next s
  | f :: rest =>
    match fetchAddr s tile f 0 with
    | some a =>
      if engBusy t.st && decide (meets s (.tile tile) a = .reset) then
        .next (tileStop (refuse (setTile s tile { t with fetch := rest }) (.tile tile) a .reset) tile stRESET)
      else .next s
    | none => .next s

/-- FETCH_TRANSLATION_FAULT (R137, R263, R285): the fetch stops with the faulting burst; it goes on once the page is mapped,
and an unresolvable fault stops the tile. -/
def execFetchTranslationFault (tile : Nat) (resolved : Bool) (s : State) : Out :=
  let t := tileOf s tile
  match t.fetch.find? (fun f => !fetchIssued f) with
  | none => .next s
  | some f =>
    if engBusy t.st then
      let hole := fetchFault s tile f f.issued (fetchBurst f)
      let mapped := hole.isNone
      let put (b : Bool) (st : State) : State :=
        setTile st tile { tileOf st tile with fetch := (tileOf st tile).fetch.map (fun g => if g = f then { g with faulted := b } else g) }
      let a := fetchIo f (hole.getD f.issued)
      if f.faulted then
        (if resolved then .next (if mapped then put false s else s) else .next (tileStop s tile stPAGE))
      else if mapped then .next s
      else
        let s1 := put true (iommuFault s (.tile tile) (tileCtx s tile) a)
        .next (if resolved then s1 else tileStop s1 tile stPAGE)
    else .next s

/-! ### Start, cancel, end of a stop -/

/-- Whether a source may write a tile's registers (R141): Apgil alone while the tile is bound. -/
def tileWriter (s : State) (src : Src) (n : Nat) : Bool := isApgil src || decide (tileCtx s n = none)

/-- A write to a control register of a tile that the access rules and R141 let through. -/
def tileControl (s : State) (src : Src) (n off : Nat) (f : State → State) : State :=
  match meets s src (gtReg n off) with
  | .here => if tileWriter s src n then f s else denied s src (gtReg n off)
  | m => refuse s src (gtReg n off) m

/-- TILE_START (R137, R141). -/
def execTileStart (src : Src) (tile : Nat) (s : State) : Out := .next (tileControl s src tile 0 (fun s => tileGo s tile))

/-- TILE_CANCEL (R137 to R139, R141). -/
def execTileCancel (src : Src) (tile : Nat) (s : State) : Out := .next (tileControl s src tile 0 (fun s => tileCancel s tile))

/-- TILE_STOP_DONE (R137, R138, R204, R208, R446): the last tag has returned: DONE after a cancel, otherwise ERROR, and the tile
counts as failed. -/
def execTileStopDone (tile : Nat) (s : State) : Out :=
  let t := tileOf s tile
  if t.st = .stopping then
    if t.code = stCANCELLED then .next (jobsCheck (setTile s tile { t with st := .done, fetch := [] }))
    else .next (tileFailed (setTile s tile { t with st := .error, fault := true, fetch := [] }) tile)
  else .next s

/-- TILE_COUNTER_CLEAR (R140, R141). -/
def execTileCounterClear (src : Src) (tile : Nat) (s : State) : Out :=
  .next (tileControl s src tile 0x180 (fun s => setTile s tile { tileOf s tile with cnt := [] }))

/-- The stripe time of a tile under its plan (R204). -/
def planTime (s : State) (n : Nat) : Option Nat :=
  let logical := wfld s (gtReg n 0x10) 22 16
  match stringOf s n with
  | some (_, x, g, _) =>
    ((segsOf s x g).find? (fun g => g.logical = logical)).map (fun g => segTime g (dWidth x) (dH x))
  | none => match (jobOfTile s n).bind (jobOf s) with
    | some j => match packageOf s j.plan with
      | some p => ((p.content.variants[j.variant]?).bind (fun v => v.segs.find? (fun g => g.logical = logical))).map
          (fun g => segTime g (j.shape.getD 0 0) (j.shape.getD 1 0))
      | none => none
    | none => none

/-- TILE_WATCHDOG (R204, R469): RUNNING or WAITING, no record completed for 10 times the plan's stripe time and no wait pending: the tile
counts as failed; a job it belongs to ends with RESET_IN_PROGRESS, since Apgil resets the tile. -/
def execTileWatchdog (tile : Nat) (s : State) : Out :=
  let t := tileOf s tile
  match planTime s tile with
  | some ns =>
    if engBusy t.st ∧ s.waits.all (fun w => decide (w.who ≠ tile)) ∧ t.lastRecord + 10 * ns ≤ s.clk.up then
      let s1 := match jobOfTile s tile with
        | some j => endJob s j stRESET
        | none => tileCancel (stringFail s tile stCANCELLED false) tile
      .next (setAside (unbindTile s1 tile) tile)
    else .next s
  | none => .next s

/-! ### A string starts again (R113, R203, R204, R206, R207) -/

/-- Whether a tile can be started by Apgil (R469). -/
def tileReady (s : State) (n : Nat) : Bool :=
  (decide ((tileOf s n).st = .idle) || decide ((tileOf s n).st = .done)) && !heldInReset s (.tile n)

/-- Whether every granule of a list is its context's; those that are not are asked for (R288). -/
def granted (s : State) (ctx : Nat) (gs : List Nat) : Bool :=
  gs.all (fun k => decide ((granOf s k).st = .owned) && decide ((granOf s k).owner = some ctx))
def askFor (s : State) (ctx : Nat) (gs : List Nat) : State :=
  forAll gs (fun s k => if (granOf s k).st = .owned then s else grantGranule s k ctx false) s

/-- A string as it starts again: with its replacements in place, or as another variant on other tiles. -/
def nextString (g : Strg) : Strg :=
  match g.toVariant with
  | some (v, l) => { g with variant := v, tiles := l.map (fun t => ((g.remap.find? (fun p => p.1 = t)).map (fun p => p.2)).getD t) }
  | none => { g with tiles := g.tiles.map (fun t => ((g.remap.find? (fun p => p.1 = t)).map (fun p => p.2)).getD t) }

/-- A stream whose strings take the tiles of a re-plan (R192, R206): height, strings and string table of the descriptor, stripes numbered by
the new height from the frame that comes next. -/
def replanned (s : State) (x : Stream) (h v : Nat) (l : List (List Nat)) : Stream :=
  let r := match packageOf s (dPlan x) with | some p => radiusAt p.content h | none => x.halo
  let y := putStrings x h r v l
  { y with
    variant := v, halo := r, replan := none
    strings := l.zipIdx.map (fun t => ({ index := t.2, variant := v, tiles := t.1, dispatch := false, inFlight := [], parked := [], credits := 0,
                                         remap := [] } : Strg))
    nextStripe := x.nextStripe / max 1 (stripesOf x) * stripesOf y + (if h = dH x then x.nextStripe % max 1 (stripesOf x) else 0)
    head := x.head / max 1 (stripesOf x) * stripesOf y + (if h = dH x then x.head % max 1 (stripesOf x) else 0) }

/-- Strings started in drain mode at a stripe boundary (R113, R204): the drain bit of the Stroke follows at the next frame start. -/
def restartStrings (s : State) (stream : Nat) (x : Stream) (which : List Nat) : State :=
  let x1 := { x with drainNext := some true,
                     strings := x.strings.map (fun g => if decide (g.index ∈ which) then freshString s x g else g) }
  forAll (x1.strings.filter (fun g => decide (g.index ∈ which))) (fun s g => startString s x1 g true) (setStream s stream (some x1))

/-- Tiles of a list that no string binds yet bound to a context, their partitions enabled (R141, R389). -/
def bindFree (s : State) (x : Stream) (tiles : List Nat) : State :=
  forAll tiles (fun s t => if (tileCtx s t).isNone then bindTile s t x.ctx (dXlate x) 0x7E else s) (enableAll s (tileParts tiles))

/-- The busy tiles of a list cancelled: their string is empty and takes other tiles or another variant. -/
def restTiles (s : State) (tiles : List Nat) : State := forAll tiles (fun s t => if engBusy (tileOf s t).st then tileCancel s t else s) s

/-- A Stroke re-planned: once its strings are empty and what they parked is read, the old tiles that it no longer needs are given back and the
new strings start (R206). A new height starts with a frame. -/
def restartAll (s : State) (stream : Nat) (x : Stream) (p : Nat × Nat × List (List Nat)) : State :=
  let tiles := p.2.2.flatten
  let frame := decide (p.1 = dH x) || (decide (x.nextStripe % max 1 (stripesOf x) = 0) && decide (x.head = x.nextStripe))
  if x.strings.all (fun g => decide (g.inFlight = []) && decide (g.parked = [])) && frame && tiles.all (tileReady s) then
    if granted s x.ctx (tiles.flatMap tileGranules) then
      let old := (strokeTiles x).filter (fun t => !decide (t ∈ tiles))
      let s1 := forAll old (fun s t => unbindTile (releaseTile s t .killed) t) s
      let y := replanned s1 x p.1 p.2.1 p.2.2
      restartStrings s1 stream y (y.strings.map (fun g => g.index))
    else askFor (bindFree s x tiles) x.ctx (tiles.flatMap tileGranules)
  else if x.strings.all (fun g => decide (g.inFlight = [])) then restTiles s (strokeTiles x)
  else s

/-- STRING_RESTART (R113, R203, R204, R206, R207): once the replacements are bound, the string is empty, its tiles have stopped and their
granules are granted, the segments are loaded, the string's flags set, its tiles started with drain set; a re-plan starts every string. -/
def execStringRestart (stream string : Nat) (s : State) : Out :=
  match streamOf s stream with
  | none => .next s
  | some x =>
    if x.phase ≠ .running ∧ x.phase ≠ .stopping then .next s
    else match x.replan, x.strings.find? (fun g => g.index = string) with
      | some p, _ => .next (restartAll s stream x p)
      | none, none => .next s
      | none, some g =>
        let h := nextString g
        if (decide (g.remap ≠ []) || g.toVariant.isSome) && decide (g.inFlight = []) then
          let need := h.tiles.flatMap tileGranules
          if !h.tiles.all (tileReady s) then .next (restTiles s g.tiles)
          else if granted s x.ctx need then .next (restartStrings s stream (updString x string (fun _ => h)) [string])
          else .next (askFor (bindFree s x h.tiles) x.ctx need)
        else .next s

end Sys2Proof.Machine
end

