-- ==== Sys2Proof/Machine/Dma.lean ====
section
/-!
DEFINITION. Sys2Proof/Machine/Dma.lean: the programs of a DMA channel, the bursts of its MOVEs and what starts and stops it
(R246 to R270).
-/
namespace Sys2Proof.Machine

/-! ### Control writes (R268, R270) -/

/-- A write to a control register of a channel that the access rules and R270 let through: Apgil alone while it is bound. -/
def chanControl (s : State) (src : Src) (c off : Nat) (f : State → State) : State :=
  match meets s src (dmReg c off) with
  | .here => if isApgil src || decide (chanCtx s c = none) then f s else denied s src (dmReg c off)
  | m => refuse s src (dmReg c off) m

/-- DMA_START (R249, R268, R270). -/
def execDmaStart (src : Src) (chan : Nat) (s : State) : Out := .next (chanControl s src chan 0 (fun s => chanGo s chan))

/-- DMA_CANCEL (R266 to R268). -/
def execDmaCancel (src : Src) (chan : Nat) (s : State) : Out :=
  .next (chanControl s src chan 0 (fun s => chanCancel s chan))

/-- A FAULTED channel resumed (R263): issue goes on from the latched position once its tags have returned. -/
def chanResume (s : State) (c : Nat) : State :=
  let x := chanOf s c
  if x.st = .faulted then
    setChan s c { x with st := .running
                         resuming := true
                         move := x.move.map (fun m => if x.pos = [] then m else { m with cur := x.pos, issuedAll := false }) }
  else s

/-- DMA_RESUME (R263, R267, R268). -/
def execDmaResume (src : Src) (chan : Nat) (s : State) : Out :=
  .next (chanControl s src chan 0 (fun s => chanResume s chan))

/-- DMA_ABORT (R264, R268). -/
def execDmaAbort (src : Src) (chan : Nat) (s : State) : Out :=
  .next (chanControl s src chan 0 (fun s => if (chanOf s chan).st = .faulted then chanStop s chan stPAGE else s))

/-- DMA_CLEAR (R268). -/
def execDmaClear (src : Src) (chan : Nat) (s : State) : Out :=
  .next (chanControl s src chan 0 (fun s =>
    if (chanOf s chan).st = .error then setChan s chan { chanOf s chan with st := .idle, fault := false } else s))

/-! ### Instructions -/

/-- Whether a channel is about to execute an instruction: running, no MOVE in work, tags returned after a resume, its cluster
not in reset. -/
def chanRuns (s : State) (c : Nat) : Bool :=
  let x := chanOf s c
  decide (x.st = .running) && decide (x.move = none) && !(x.resuming && decide (x.bursts ≠ [])) &&
    !heldInReset s (.dma (c / 32))

/-- An instruction of a given opcode executed by `f`, given its words; a translation fault of the fetch and a reserved
encoding act as R263 and R265 say, any other instruction leaves the state. -/
def onMoveWord (s : State) (c op : Nat) (f : List Word → State) : State :=
  if chanRuns s c then
    match dmaRec s c with
    | .fault a => chanFault s c a false true
    | .reset a => chanFetchReset s c a
    | .bad => chanFetchBad s c
    | .ended => s
    | .words ws => if fld (ws.getD 0 0) 3 0 = op then f ws else s
  else s

/-- The channel after an instruction: the program counter moved on, loops ending there closed (R251). -/
def chanAdvance (s : State) (c pc : Nat) : State := setChan s c (dmaNext 5 (chanOf s c) pc)

/-- The pages of a range, each by an address in it. -/
def pagesOf (a n : Nat) : List (Nat × Nat) :=
  if n = 0 then [] else (List.range ((a + n - 1) / 4096 - a / 4096 + 1)).map (fun i => (max a ((a / 4096 + i) * 4096), 1))

/-- MOVE (R252 to R255, R259, R261, R265): the transfer begins. Overlapping ranges are translated whole first. The element
format of a codec MOVE is the plan's and open here (log 1). -/
def execMove (chan : Nat) (s : State) : Out :=
  .next (onMoveWord s chan 1 (fun ws =>
    let x := chanOf s chan
    let r := if fld (ws.getD 0 0) 17 16 = 0 then (0, s) else freshNat 20 s
    let m := moveOf x ws (r.1 % 3)
    let s1 := setChan r.2 chan { x with move := some m, moves := x.moves + 1, resuming := false
                                        movesFull := if mEmpty m then x.movesFull else x.movesFull + 1
                                        bursts := x.bursts.map (fun b => { b with old := true }) }
    if mOverlaps m && !mEmpty m then
      match (chanPieces s chan false (pagesOf m.src (mSize m 0))).2, (chanPieces s chan true (pagesOf m.dst (mSize m 0))).2 with
      | some a, _ => chanFault s1 chan a false false
      | none, some a => chanFault s1 chan a true false
      | none, none => s1
    else s1))

/-- DMA_LOOP (R250, R251). -/
def execDmaLoop (chan : Nat) (s : State) : Out :=
  .next (onMoveWord s chan 2 (fun ws =>
    setChan s chan { dmaEnter (chanOf s chan) ws with resuming := false }))

/-- DMA_WAIT (R122, R250, R257, R298, R300). -/
def execDmaWait (chan : Nat) (s : State) : Out :=
  .next (onMoveWord s chan 3 (fun ws =>
    let w := ws.getD 0 0
    match startWait s (80 + chan) (some ((chanCtx s chan).getD 64)) (fld w 31 16) (bitOf w 4) (ws.getD 1 0)
        (wfld s (dmReg chan 0x18) 23 0) with
    | none => chanAdvance s chan ((chanOf s chan).pc + 2)
    | some s1 => setChan s1 chan { chanOf s1 chan with st := .waiting, waitFrom := s.clk.up }))

/-- DMA_SIGNAL (R123, R250, R257): after every write of the program's earlier MOVEs has arrived. -/
def execDmaSignal (chan : Nat) (s : State) : Out :=
  .next (onMoveWord s chan 4 (fun ws =>
    let w := ws.getD 0 0
    if (chanOf s chan).bursts ≠ [] then s
    else signalFlag (chanAdvance s chan ((chanOf s chan).pc + 2)) (.dma chan) (fld w 31 16) (bitOf w 4) (ws.getD 1 0)))

/-- DMA_PROGRAM_END (R249, R259, R268): all writes arrived and all tags returned: EMPTY when every MOVE run was empty. -/
def execDmaProgramEnd (chan : Nat) (s : State) : Out :=
  let x := chanOf s chan
  if chanRuns s chan && decide (dmaRec s chan = .ended) && decide (x.bursts = []) then
    .next (jobsCheck (setChan s chan { x with st := .done, code := if 1 ≤ x.moves ∧ x.movesFull = 0 then stEMPTY else stOK }))
  else .next s

/-! ### Issue of bursts (R246 to R248) -/

/-- Whether a paced MOVE lacks a credit for its next burst (R255). Bursts executed again have taken theirs. -/
def lacksCredit (s : State) (c : Nat) : Bool :=
  match (chanOf s c).move with
  | some m => mPaced m && decide (m.redo = 0) && (decide (lineCredit s (mLine m) = 0) || decide (lineChan s (mLine m) ≠ some c))
  | none => false

/-- Whether a channel has a burst to issue and may issue it, credits aside. -/
def chanHasBurst (s : State) (c : Nat) : Bool :=
  let x := chanOf s c
  decide (x.st = .running) && !(x.resuming && decide (x.bursts ≠ [])) && !withheld s (chanCtx s c) &&
    (match x.move with | some m => !m.issuedAll | none => false) && decide (chanTags x < wfld s (dmReg c 0x14) 6 0)

/-- What a burst has to translate: its own pieces, and before the first burst of a MOVE with overlapping ranges every page of both
(R261). -/
def burstNeeds (m : MoveWork) : List (Nat × Nat) × List (Nat × Nat) :=
  if mOverlaps m && decide (m.cur = mFirst m) then (pagesOf m.src (mSize m 0), pagesOf m.dst (mSize m 0)) else mPieces m m.cur

/-- A burst issued: its addresses are translated, its credit and tag taken; a fault stops the channel (R253 to R255, R261, R263). -/
def issueBurst (s : State) (c : Nat) : State :=
  let x := chanOf s c
  match x.move with
  | none => s
  | some m =>
    let p := mPieces m m.cur
    match (chanPieces s c false (burstNeeds m).1).2, (chanPieces s c true (burstNeeds m).2).2 with
    | some a, _ => chanFault s c a false false
    | none, some a => chanFault s c a true false
    | none, none =>
    match chanPieces s c false p.1, chanPieces s c true p.2 with
    | (_, some a), _ => chanFault s c a false false
    | _, (_, some a) => chanFault s c a true false
    | (rd, none), (wr, none) =>
      let b : Burst := { pos := m.cur, reads := rd, writes := wr, got := false, old := false,
                         pages := ((p.1 ++ p.2).map (fun q => q.1 % 2 ^ 40 / 4096)).eraseDups }
      let next := mAdvance m m.cur
      let m1 := { m with cur := next.getD m.cur, issuedAll := next.isNone, redo := m.redo - 1 }
      let s1 := setChan s c { x with bursts := x.bursts ++ [b], move := some m1, resuming := false }
      if 0 < m.redo then bump s1 (dmReg c 0x4C)
      else if mPaced m then setWord s1 (lineReg (mLine m) 4) (BitVec.ofNat 32 (lineCredit s1 (mLine m) - 1))
      else s1

/-- The tiles whose fetch units use a cluster (R136). -/
def clusterTiles (k : Nat) : List Nat := (List.range 72).filter (fun n => n % 12 / 3 = k)

/-- The fetch a tile's fetch unit is issuing, if it may issue. -/
def tileFetch (s : State) (n : Nat) : Option Fetch :=
  let t := tileOf s n
  if engBusy t.st && !withheld s (tileCtx s n) then
    match t.fetch.find? (fun f => !fetchIssued f) with
    | some f => if f.faulted then none else some f
    | none => none
  else none

/-- A burst of a tile's fetch issued (R136, R137): up to 256 B of a row, with one of at most 32 tags. How many of 32 tags in flight have
returned by now is open (logs 1, 70): with none the burst waits, counting DMA_TAG when the tile is otherwise idle. A page of the burst that
faults leaves the fetch stopped (R285). -/
def issueFetch (s : State) (n : Nat) (f : Fetch) : State :=
  let put (st : State) (g : Fetch) : State :=
    setTile st n { tileOf st n with fetch := (tileOf st n).fetch.map (fun h => if h = f then g else h) }
  let r := if f.tags < 32 then (0, s) else freshNat 69 s
  let tags := f.tags - r.1 % 33
  if 32 ≤ tags then (if (tileOf s n).stall = some (5, ((tileOf s n).stall.getD (0, 0)).2) then stallOn r.2 n 4 else r.2)
  else match fetchFault r.2 n f f.issued (fetchBurst f) with
    | none => put r.2 { f with issued := f.issued + fetchBurst f, tags := tags + 1 }
    | some o => put (iommuFault r.2 (.tile n) (tileCtx r.2 n) (fetchIo f o)) { f with faulted := true, tags := tags }

/-- The paced channels of a cluster without a credit begin to wait (R255, R268). -/
def pacedWaits (s : State) (k : Nat) : State :=
  forAll (List.range 32) (fun s i =>
    let c := k * 32 + i
    if chanHasBurst s c && lacksCredit s c then setChan s c { chanOf s c with st := .waiting, waitFrom := s.clk.up } else s) s

/-- Whether requester i of a cluster may issue: channel i below 32, else a tile. -/
def requesterReady (s : State) (k i : Nat) : Bool :=
  if i < 32 then chanHasBurst s (k * 32 + i) && !lacksCredit s (k * 32 + i)
  else match (clusterTiles k)[i - 32]? with
    | some n => (tileFetch s n).isSome
    | none => false

/-- BURST_ISSUE (R23, R136, R246 to R248, R253 to R255): the cluster takes the requesters that may issue in turn, one burst. -/
def execBurstIssue (cluster : Nat) (s : State) : Out :=
  if heldInReset s (.dma cluster) || decide (512 ≤ clusterTags s cluster) then .next s
  else
    let s1 := pacedWaits s cluster
    let turn := tget 0 s.turn cluster
    match findBelow (fun d => requesterReady s1 cluster ((turn + d) % 50)) 50 with
    | none => .next s1
    | some d =>
      let i := (turn + d) % 50
      let s2 := { s1 with turn := tset 0 s1.turn cluster ((i + 1) % 50) }
      if i < 32 then .next (issueBurst s2 (cluster * 32 + i))
      else
        let n := (clusterTiles cluster).getD (i - 32) 0
        match tileFetch s2 n with
        | some f => .next (issueFetch s2 n f)
        | none => .next s2

/-! ### Data of a burst -/

/-- What the reads of a burst met: the ECC finding belongs to its first piece; poisoned lines show by themselves (R274, R275). -/
def burstEcc (c : Nat) : List (Nat × Nat) → EccResult → State → State × Bool
  | [], _, s => (s, false)
  | (a, n) :: t, e, s =>
    let r := eccMeet s (.dma c) e a n
    let q := burstEcc c t .clean r.1
    (q.1, r.2 || q.2)

/-- The bytes a burst reads; `lost` when a read met an island held in reset. -/
def burstRead (c : Nat) : List (Nat × Nat) → State → State × List Byte × Bool
  | [], s => (s, [], false)
  | (a, n) :: t, s =>
    match engineRead s (.dma c) a n with
    | (s1, bs, e) =>
      let q := burstRead c t s1
      (q.1, bs ++ q.2.1, decide (e = .reset) || q.2.2)

/-- The bytes a burst writes, piece by piece. A write that meets an island held in reset is dropped: its answer follows. -/
def burstWrite (c : Nat) : List (Nat × Nat) → List Byte → State → State
  | [], _, s => s
  | (a, n) :: t, bs, s =>
    let s1 := if meets s (.dma c) a = .reset then s else (engineWrite s (.dma c) a (bs.take n)).1
    burstWrite c t (bs.drop n) s1

/-- Whether a burst's write meets an island held in reset, which will answer it (R26). -/
def burstNacked (s : State) (c : Nat) (b : Burst) : Bool := b.writes.any (fun p => decide (meets s (.dma c) p.1 = .reset))

/-- The elements of one block of an uncompressed band: none outside the plane (R182). `w` and `h` are the band's. -/
def blockSamples (e16 : Bool) (w h b : Nat) (bs : List Byte) : List (Option Nat) :=
  let z := if e16 then 2 else 1
  (List.range 64).map (fun i =>
    let x := b * 8 + i % 8; let y := i / 8
    if x < w ∧ y < h then some (leAt bs ((y * w + x) * z) z) else none)

/-- Width and rows of the band of a codec burst inside the plane. -/
def bandDims (m : MoveWork) (pos : List Nat) : Nat × Nat :=
  (min (mBurstBlocks m pos * 8) (mSize m 0 - pos.getD 0 0), min 8 (mSize m 1 - pos.getD 1 0))

/-- The blocks of a burst encoded, one after the other (R181, R182); blocks and NaN blocks are counted (R185). -/
def encodeBlocks (m : MoveWork) (w h : Nat) (bs : List Byte) : Nat → Nat → State → State × List Byte
  | 0, _, s => (s, [])
  | k + 1, b, s =>
    let r := stEncode (mE16 m) m.fmt (mRatio m) (blockSamples (mE16 m) w h b bs)
    let s1 := bump s (bruBase + 0x8010)
    let s2 := if r.2 then bump s1 (bruBase + 0x801C) else s1
    let q := encodeBlocks m w h bs k (b + 1) s2
    (q.1, r.1 ++ q.2)

/-- Whether a byte range of the pieces read, by offset, touches what the memory reported uncorrectable: a poisoned line, or the
first piece where another memory reported it. -/
def lostBytes (s : State) (uncorr : Bool) (off n : Nat) : Nat → List (Nat × Nat) → Bool
  | _, [] => false
  | o, (a, k) :: t =>
    (overlap o k off n && (decide (a / 64 ∈ s.poison) || (uncorr && decide (o = 0) && decide (ddrTop ≤ a)))) ||
      lostBytes s uncorr off n (o + k) t

/-- The samples of the blocks of a burst decoded; a bad block decodes as zeros, is reported and counted (R183). -/
def decodeBlocks (m : MoveWork) (c : Nat) (uncorr : Bool) (reads : List (Nat × Nat)) (bs : List Byte) :
    Nat → Nat → State → State × List (List Nat)
  | 0, _, s => (s, [])
  | k + 1, b, s =>
    let z := stBlock (mE16 m) (mRatio m)
    let blk := slice bs (b * z) z
    let s1 := bump s (bruBase + 0x8014)
    let bad := stBad (mE16 m) (mRatio m) blk || lostBytes s uncorr (b * z) z 0 reads
    let s2 := if bad then raiseOpen (bump s1 (bruBase + 0x8018)) 0x207 0 (80 + c) (chanCtx s c) else s1
    let v := if bad then List.replicate 64 0 else stDecode (mE16 m) m.fmt (mRatio m) blk
    let q := decodeBlocks m c uncorr reads bs k (b + 1) s2
    (q.1, v :: q.2)

/-- The rows of a decoded band as bytes, samples outside the plane left out. -/
def bandBytes (e16 : Bool) (w h : Nat) (blocks : List (List Nat)) : List Byte :=
  (List.range h).flatMap (fun y => (List.range w).flatMap (fun x =>
    leBytes (if e16 then 2 else 1) ((blocks.getD (x / 8) []).getD (y * 8 + x % 8) 0)))

/-- The bytes a burst writes for the bytes it has read (R181 to R183, R253). Bytes read with an uncorrectable error for the
encoder are open (log 1). -/
def burstData (s : State) (c : Nat) (m : MoveWork) (b : Burst) (uncorr : Bool) (bs : List Byte) : State × List Byte :=
  let d := bandDims m b.pos
  if mCodec m = 1 then
    let r := if uncorr then freshNat 22 s else (0, s)
    encodeBlocks m d.1 d.2 (if uncorr then leBytes bs.length r.1 else bs) (mBurstBlocks m b.pos) 0 r.2
  else if mCodec m = 2 then
    let r := decodeBlocks m c uncorr b.reads bs (mBurstBlocks m b.pos) 0 s
    (r.1, bandBytes (mE16 m) d.1 d.2 r.2)
  else (s, bs)

/-- A channel without one burst: its tag has returned. -/
def dropBurst (s : State) (c : Nat) (b : Burst) : State := setChan s c { chanOf s c with bursts := (chanOf s c).bursts.erase b }

/-- A transfer ended by a closed remote window (R265, R353): the address is the event's detail, the window closes here. -/
def chanWindow (s : State) (c a : Nat) : State :=
  let s1 := raiseEv (chanStop s c stWINDOW) 0x208 stWINDOW (80 + c) (chanCtx s c) a
  match windowAt s1 a with
  | some w => windowShut s1 w
  | none => s1

/-- The first address of a list of pieces. -/
def firstAddr (l : List (Nat × Nat)) : Nat := match l with | p :: _ => p.1 | [] => 0

/-- BURST_READ_RETURN (R26, R183, R253 to R256, R261, R265, R266, R274, R275): the data of the oldest burst still out has
returned and its write is issued; a stopping channel discards it; an error answer ends the program. -/
def execBurstReadReturn (chan : Nat) (ecc : EccResult) (ans : Answer) (s : State) : Out :=
  let x := chanOf s chan
  match x.bursts.find? (fun b => !b.got) with
  | none => .next s
  | some b =>
    match x.move with
    | none => .next (dropBurst s chan b)
    | some m =>
      if x.st = .stopping then .next (dropBurst s chan b)
      else
        let a := firstAddr b.reads
        match ans with
        | .resetInProgress => .next (chanStop (raiseAt (dropBurst s chan b) 0x107 stRESET (.dma chan) a) chan stRESET)
        | .windowClosed => .next (chanWindow (dropBurst s chan b) chan a)
        | .pageFault =>
          .next (raiseEv (chanStop (dropBurst s chan b) chan stPAGE) 0x206 stPAGE (80 + chan) (chanCtx s chan) a)
        | .ok =>
          let e := burstEcc chan b.reads ecc s
          if e.2 && decide (mCodec m = 0) then .next (chanStop (dropBurst e.1 chan b) chan stCHECK)
          else
            let r := burstRead chan b.reads e.1
            if r.2.2 then .next (chanStop (dropBurst r.1 chan b) chan stRESET)
            else
              let d := burstData r.1 chan m b e.2 r.2.1
              let s1 := burstWrite chan b.writes d.2 d.1
              let y := chanOf s1 chan
              let n := d.2.length
              let s2 := if mCodec m = 0 then s1 else noteUse s1 44 (80 + chan) (chanCtx s1 chan) n
              .next (setChan (noteBytes s2 (32 + chan / 32) (80 + chan) (chanCtx s2 chan) n) chan { y with
                bytes := (y.bytes + n) % 2 ^ 64
                bursts := y.bursts.map (fun q => if q = b then { q with got := true, nack := burstNacked d.1 chan b } else q) })

/-- BURST_WRITE_ANSWER (R26, R256, R265, R353): the oldest write still out has arrived, was dropped at an island held in
reset (the answer of the island, or of another device), or was answered WINDOW_CLOSED. -/
def execBurstWriteAnswer (chan : Nat) (ans : Answer) (s : State) : Out :=
  let x := chanOf s chan
  match x.bursts.find? (fun b => b.got) with
  | none => .next s
  | some b =>
    let s1 := dropBurst s chan b
    let a := firstAddr b.writes
    match (if b.nack then Answer.resetInProgress else ans) with
    | .resetInProgress =>
      let s2 := bump (setWbit (raiseAt s1 0x107 stRESET (.dma chan) a) (dmReg chan 4) 18 true) (dmReg chan 0x48)
      let y := chanOf s2 chan
      .next (setChan s2 chan { y with move := y.move.map (fun m => if b.old then m else { m with nacked := true }) })
    | .windowClosed => .next (chanWindow s1 chan a)
    | .pageFault => .next s1
    | .ok => .next s1

/-! ### Completion (R255, R256) -/

/-- The physical core of a logical index for a channel: of its job, else of its context (R252). -/
def chanCore (s : State) (c logical : Nat) : Option Nat :=
  let peers := match (jobList s).find? (fun j => match jobOf s j with | some x => decide (c ∈ x.chans) | none => false) with
    | some j => (match jobOf s j with | some x => x.cores | none => [])
    | none => (List.range 8).filter (fun k => coreCtx s k = chanCtx s c)
  peers.find? (fun k => decide (wfld s (ecReg k 0x10) 19 16 = logical))

/-- The event pulse of a MOVE (R252); none when a request-line pulse has to wait for room (R255). -/
def movePulse (s : State) (c : Nat) (m : MoveWork) : Option State :=
  if mEvent m = 1 then some (signalFlag s (.dma c) m.target true 1)
  else if mEvent m = 2 then
    match chanCore s c (m.target / 16 % 8) with
    | some k =>
      if heldInReset s (.core k) then some (raiseOpen s 0x107 stRESET (80 + c) (chanCtx s c))
      else some (eventPulse s k (m.target % 8))
    | none => some s
  else if mEvent m = 3 then (if pulseFits s (m.target % 256) 1 then some (pulseLine s (m.target % 256) 1) else none)
  else some s

/-- MOVE_COMPLETE (R252, R255, R256, R259, R265): the last write is issued or, with barrier, every write has arrived; the
event pulse is made and the next instruction follows. -/
def execMoveComplete (chan : Nat) (s : State) : Out :=
  let x := chanOf s chan
  match x.move with
  | none => .next s
  | some m =>
    let due := if mBarrier m then decide (x.bursts = []) else x.bursts.all (fun b => b.got)
    if decide (x.st = .running) && !heldInReset s (.dma (chan / 32)) && m.issuedAll && due then
      if mBarrier m && m.nacked then .next (chanStop s chan stRESET)
      else
        let s1 := setChan s chan (dmaNext 5 { x with move := none, bursts := x.bursts.map (fun b => { b with old := true }) } (x.pc + 16))
        match movePulse s1 chan m with
        | some s2 => .next s2
        | none => .next s
    else .next s

/-! ### Faults and the end of a stop -/

/-- DMA_TRANSLATION_FAULT (R263, R268, R285): the fetch of the next instruction or the next burst of a running channel meets
no translation. -/
def execDmaTranslationFault (chan : Nat) (s : State) : Out :=
  let x := chanOf s chan
  if x.st = .running ∧ heldInReset s (.dma (chan / 32)) = false then
    match x.move with
    | none =>
      match dmaRec s chan with
      | .fault a => .next (chanFault s chan a false true)
      | .reset a => .next (chanFetchReset s chan a)
      | _ => .next s
    | some m =>
      if m.issuedAll then .next s
      else
        match (chanPieces s chan false (mPieces m m.cur).1).2, (chanPieces s chan true (mPieces m m.cur).2).2 with
        | some a, _ => .next (chanFault s chan a false false)
        | none, some a => .next (chanFault s chan a true false)
        | none, none => .next s
  else .next s

/-- DMA_STOP_DONE (R266, R268): the last tag has returned: DONE after a cancel, otherwise ERROR. -/
def execDmaStopDone (chan : Nat) (s : State) : Out :=
  let x := chanOf s chan
  if x.st = .stopping ∧ x.bursts = [] then
    .next (jobsCheck (setChan s chan (if x.code = stCANCELLED then { x with st := .done } else { x with st := .error, fault := true })))
  else .next s

end Sys2Proof.Machine
end

