-- ==== Sys2Proof/Machine/Stroke.lean ====
section
/-!
DEFINITION. Sys2Proof/Machine/Stroke.lean: launch, admission, dispatch, result records and the barrier of a Stroke (R93 to R97,
R102, R104 to R111, R113, R202, R386, R469).
-/
namespace Sys2Proof.Machine

/-! ### Launch -/

/-- The strings of a launching Stroke that will start: all but those of a failed tile without replacement (R206, R469). -/
def liveStrings (x : Stream) : List Strg := x.strings.filter (fun g => g.dispatch || decide (g.remap ≠ []) || g.toVariant.isSome)

/-- A tile of a launching Stroke that counts as failed (R469): in ERROR, or no longer in service. One in reset or stopping is waited for. -/
def tileLost (s : State) (t : Nat) : Bool :=
  !heldInReset s (.tile t) && (decide ((tileOf s t).st = .error) || !tileInService s t)

/-- A Stroke as it starts: with its replacements in place, or re-planned (R204, R206). -/
def launchShape (s : State) (x : Stream) : Stream :=
  match x.replan with
  | some p => replanned s x p.1 p.2.1 p.2.2
  | none => { x with strings := x.strings.map (fun g => if decide (g.remap ≠ []) || g.toVariant.isSome then freshString s x (nextString g) else g) }

/-- The granules a Stroke works in as it starts. -/
def launchGranules (x : Stream) : List Nat := ((liveStrings x).flatMap (fun g => g.tiles)).flatMap tileGranules ++ strokeBanks x

/-- Whether every engine of a Stroke is there: its tiles IDLE or DONE, its granules its context's (R288, R389, R469). -/
def strokeReady (s : State) (x : Stream) : Bool :=
  ((liveStrings x).flatMap (fun g => g.tiles)).all (tileReady s) && granted s x.ctx (launchGranules x)

/-- A Stroke launched (R93): its tiles run, its port waits for the first frame start. -/
def launchStroke (s : State) (n : Nat) (x : Stream) : State :=
  let y := { x with phase := .running, start := s.clk.now,
                    strings := x.strings.map (fun g => if decide (g ∈ liveStrings x) then freshString s x g else g) }
  let s1 := setStream s n (some y)
  let b := bankOf s1 (dPort x) x.bank
  let s2 := setBank s1 (dPort x) x.bank { b with armed := true, first := true, nextSeq := 0, frame := none, trigs := [], lines := [] }
  forAll (liveStrings y) (fun s g => goString s y g y.drain) s2

/-- The channel programs a Stroke runs, as Apgil generates them: each program that loads tiles (`pre`, R202) once for every string, the others
for the first (log 32). -/
def planRuns (s : State) (x : Stream) : List (DmaProg × List Word) :=
  match packageOf s (dPlan x) with
  | some p => p.content.dmas.flatMap (fun d => (if d.pre then liveStrings x else (liveStrings x).take 1).map (fun g =>
      (d, bindDma p.content g.variant d (((segsOf s x g).map (fun t => t.logical)).zip g.tiles) [])))
  | none => []

/-- The channels free for a Stroke's programs: those of clusters that its tiles' fetches keep on. -/
def strokeChans (s : State) : List Nat := (freeChans s).filter (fun c => partOn s (32 + c / 32) && !heldInReset s (.dma (c / 32)))

/-- A Stroke's tiles loaded, its channels bound and their programs mapped; those that load the tiles start (R202, R255, R270). -/
def loadStroke (s : State) (n : Nat) (x : Stream) : State :=
  let l := (strokeChans s).zip (planRuns s x)
  let s1 := forAll (liveStrings x) (fun s g => loadString s x g) (setStream s n (some { x with chans := l.map (fun e => e.1) }))
  let s2 := forAll ((liveStrings x).flatMap (fun g => g.tiles)) (fun s t => mapEngine s (dXlate x) (tileIo t) (tileBase t)) s1
  let s3 := forAll l (fun s e => loadChan (bindChan s e.1 x.ctx (dXlate x) e.2.1.lines) e.1 x.ctx (dXlate x) e.2.2) s2
  forAll (l.filter (fun e => e.2.1.pre)) (fun s e => chanGo s e.1) s3

/-- The channels of a Stroke whose programs load its tiles, or the others. -/
def chansOf (s : State) (x : Stream) (pre : Bool) : List Nat :=
  ((x.chans.zip (planRuns s x)).filter (fun e => decide (e.2.1.pre = pre))).map (fun e => e.1)

/-- A launching Stroke whose tiles are loaded (R93, R202): once every loading program is done its tiles and other channels start; a loading
program that fails ends the Stroke as by CANCEL, with its code (log 70). -/
def finishLoad (s : State) (n : Nat) (x : Stream) : State :=
  match (chansOf s x true).find? (fun c => decide ((chanOf s c).st = .error) || (decide ((chanOf s c).st = .done) && !goodCode (chanOf s c).code)) with
  | some c => cancelStream s n (chanOf s c).code 0
  | none =>
    if (chansOf s x true).all (fun c => decide ((chanOf s c).st = .done)) then forAll (chansOf s x false) chanGo (launchStroke s n x) else s

/-- A launching Stroke at or after its launch time (R93, R202, R206, R288, R469): failed tiles are replaced, memories asked for, tiles
loaded, and it starts. -/
def launchTry (s : State) (n : Nat) (x : Stream) : State :=
  match (liveStrings x).findSome? (fun g =>
      if decide (g.remap = []) && g.toVariant.isNone && x.replan.isNone then (g.tiles.find? (tileLost s)).map (fun t => (g, t)) else none) with
  | some (g, t) => replaceTile (setStream s n (some (updString x g.index (fun h => { h with dispatch := false })))) n g.index t stCANCELLED none
  | none =>
    let y := launchShape s x
    if x.chans ≠ [] then finishLoad s n x
    else if strokeReady s y then
      (if planRuns s y = [] then launchStroke (forAll (liveStrings y) (fun s g => loadString s y g) (setStream s n (some y))) n y
       else if (planRuns s y).length ≤ (strokeChans s).length then (let s1 := loadStroke s n y; finishLoad s1 n ((streamOf s1 n).getD y))
       else s)
    else askFor (bindFree s y ((liveStrings y).flatMap (fun g => g.tiles))) y.ctx (launchGranules y)

/-- STROKE_LAUNCH (R93, R139, R202, R288, R469): at or after its launch time a Stroke whose START_STREAM is answered runs, once its tiles are
loaded and its memories granted; a cancel of this event tick goes first. -/
def execStrokeLaunch (stream : Nat) (s : State) : Out :=
  match streamOf s stream with
  | none => .next s
  | some x =>
    if x.phase = .launching ∧ dLaunch x ≤ s.clk.now ∧ x.startReply = none ∧ cancelDue s x.ctx = false then .next (launchTry s stream x) else .next s

/-! ### Dispatch -/

/-- The next stripe of a Stroke in dispatch order with its frame, when it is ready (R96). -/
def readyStripe (x : Stream) : Option FrameRec :=
  if stripesOf x = 0 then none
  else match stripeFrame x x.nextStripe with
    | some f => if !f.cancelled && ringHas x f (inputRows x x.nextStripe) then some f else none
    | none => none

/-- Whether a frame may run: real-time Strokes and raw passthrough without strings need no admission (R109, log 12). -/
def frameRuns (x : Stream) (f : FrameRec) : Bool := dReal x || f.admitted

/-- The uncorrected estimate of a frame (R91, R384). -/
def frameEstimate (x : Stream) : Nat := (dw x 0x28).toNat

/-- What admitting a frame costs: its corrected estimate (R384, R386). -/
def frameCost (s : State) (x : Stream) : Nat :=
  match packageOf s (dPlan x) with
  | some p => corrected (frameEstimate x) (variantK p x.variant)
  | none => frameEstimate x

/-- FRAME_ADMIT (R109, R386): stripe 0 of a frame of a Stroke that is not real-time is ready; the frame is admitted when the
available energy covers its corrected estimate, otherwise it is deferred. -/
def execFrameAdmit (stream : Nat) (s : State) : Out :=
  match streamOf s stream with
  | none => .next s
  | some x =>
    match readyStripe x with
    | none => .next s
    | some f =>
      if carries x && !dReal x && decide (x.nextStripe % stripesOf x = 0) && !f.admitted then
        if (frameCost s x : Int) ≤ available s x.ctx then
          let s1 := deferralEnd s x f
          .next (setStream s1 stream (some (updFrame x f.seq (fun r => { r with admitted := true, corrected := frameCost s x }))))
        else if f.deferredAt.isSome then .next s
        else .next (setStream s stream (some (updFrame { x with deferredN := x.deferredN + 1 } f.seq
          (fun r => { r with deferredAt := some s.clk.up }))))
      else .next s

/-- Whether drain mode holds a stripe back: another stripe of the Stroke is in a string (R113). -/
def drainHolds (x : Stream) : Bool := x.drain && x.strings.any (fun g => decide (g.inFlight ≠ []))

/-- The string that takes the next stripe: the lowest one in dispatch whose first tile holds a free input credit (R96). -/
def takingString (x : Stream) : Option Strg :=
  minBy (fun (g : Strg) => g.index) (x.strings.filter (fun g =>
    g.dispatch && decide (g.remap = []) && g.toVariant.isNone && x.replan.isNone && decide (0 < g.credits)))

/-- STRIPE_DISPATCH (R94, R96, R97, R102, R109, R113): the next stripe, ready and admitted, goes to a string; with a missing
row among its own it goes to the reorder buffer as a marker. -/
def execStripeDispatch (stream : Nat) (s : State) : Out :=
  match streamOf s stream with
  | none => .next s
  | some x =>
    match readyStripe x with
    | none => .next s
    | some f =>
      let j := x.nextStripe
      if !carries x || x.strings.isEmpty || !frameRuns x f then .next s
      else if ringMissing x f (rowsOf x j) then
        let y := updFrame { x with markers := x.markers ++ [j], nextStripe := j + 1 } f.seq
          (fun r => orFlags (flDROPPED ||| flOVERRUN) { r with dropped := r.dropped + 1 })
        .next (setStream s stream (some (ringFreed s y)))
      else if drainHolds x then .next s
      else match takingString x with
        | some g =>
          let y := updString { x with nextStripe := j + 1 } g.index
            (fun h => { h with inFlight := h.inFlight ++ [j], credits := h.credits - 1 })
          match stringVariant s x g with
          | some v => .next (signalFlag (setStream s stream (some y)) (.stroke stream) (inFlagOf v g.index) true 1)
          | none => .next s
        | none => .next s

/-! ### Records and the barrier -/

/-- Whether every stripe of a frame has left the strings and the stages. -/
def frameLeft (s : State) (n : Nat) (x : Stream) (f : FrameRec) : Bool :=
  x.strings.all (fun g => (g.inFlight ++ g.parked.map (fun p => p.stripe)).all (fun j => decide (stripeSeq x j ≠ f.seq))) &&
    s.colours.all (fun e => match e.2 with | some j => decide (j.stream ≠ n) || decide (j.frame ≠ f.seq) | none => true)

/-- Whether the record of a frame may be written: its colour stage has ended and, with det_en, its wait on bru_flag is met or
has expired (R104); a frame cancelled by a STOP once its stripes have left the strings (R111). -/
def recordDue (s : State) (n : Nat) (x : Stream) (f : FrameRec) : Bool :=
  if f.cancelled then frameLeft s n x f
  else f.colourEnd.isSome &&
    (!dDet x || f.timedOut || (f.waitFrom.isSome && s.waits.all (fun w => decide (w.who ≠ 1072 + n))))

/-- Lateness of a record composed now beyond its frame's deadline (R105, R108). -/
def lateness (s : State) (x : Stream) (f : FrameRec) : Nat :=
  if dDeadline x = 0 then 0 else min (s.clk.now - (f.start + dDeadline x)) 0xFFFFFFFF

/-- Status of a frame result record (R107). -/
def recordStatus (x : Stream) (f : FrameRec) (late : Nat) : Nat :=
  if f.cancelled then stCANCELLED else if f.timedOut then stTIMEOUT
  else if dReal x ∧ 0 < late then stDEADLINE else stOK

/-- RESULT_RECORD_WRITE (R104 to R108, R112, R384): the record of the oldest frame without one. `lastSeq` is the last frame completed,
`lastRec` the last frame whose record was written. -/
def execResultRecordWrite (stream : Nat) (s : State) : Out :=
  match streamOf s stream with
  | none => .next s
  | some x =>
    match x.frames.find? (fun f => !f.recorded) with
    | none => .next s
    | some f =>
      if carries x && recordDue s stream x f then
        let late := lateness s x f
        let miss := dReal x && decide (0 < late)
        let f1 := if miss then orFlags flDEADLINE f else f
        match writeRecord s stream (frameRecord stream x f1 (recordStatus x f1 late) late s.clk.now) with
        | (s1, false) => .next s1
        | (s1, true) =>
          let est := if f.cancelled then 0 else frameEstimate x
          let s2 := updStream s1 stream (fun y =>
            dropFinished (updFrame { y with
              completed := if f.cancelled then y.completed else y.completed + 1
              late := if miss then y.late + 1 else y.late
              lastSeq := if f.cancelled then y.lastSeq else f.seq
              lastRec := if x.lost < y.lost then y.lastRec else f.seq
              flagsOr := y.flagsOr ||| f1.flags
              estimated := y.estimated + est
              measuredAt := y.measured } f.seq (fun r => { orFlags f1.flags r with recorded := true })))
          let s3 := if f.cancelled then s2
            else itemDone s2 (dPlan x) x.variant (x.measured - x.measuredAt) (frameEstimate x)
          .next (startBruWait s3 stream)
      else .next s

/-- STROKE_BARRIER_COMPLETE (R111, R207): a stopping Stroke whose strings are empty, with no remap in progress, and whose frames all have
their records ends. -/
def execStrokeBarrierComplete (stream : Nat) (s : State) : Out :=
  match streamOf s stream with
  | none => .next s
  | some x =>
    if x.phase = .stopping ∧ x.frames.all (fun f => f.recorded) ∧
        x.strings.all (fun g => decide (g.inFlight = []) && decide (g.remap = []) && g.toVariant.isNone) ∧ x.replan = none ∧
        (bankOf s (dPort x) x.bank).frame = none then
      .next (endStroke s stream stOK)
    else .next s

end Sys2Proof.Machine
end

