-- ==== Sys2Proof/Machine/Cancel.lean ====
section
/-!
DEFINITION. Sys2Proof/Machine/Cancel.lean: a context cancelled with all its work (R112, R138, R178, R266, R302, R304, R309, R313),
and the device state told to every session (R327).
-/
namespace Sys2Proof.Machine

/-- A queue stopped with a code (R304): its wait is withdrawn. -/
def queueStop (s : State) (q code : Nat) : State :=
  withdrawWait (setQueue s q { queueOf s q with st := .stopped, code := code, condMet := false, waitFrom := none }) (560 + q)

/-- A job cancelled: one that runs ends, a held launch is answered and dropped (R334, R386). -/
def cancelJob (s : State) (jn status : Nat) : State :=
  match jobOf s jn with
  | none => s
  | some j =>
    if j.st = .running ∨ j.st = .placed then endJob s jn status
    else answer (unmapLaunch (setJob s jn none) j) j.req.sess j.req.seq j.req.typ j.req.ctx status [detailTlv 8 jn]

/-- Engines, queues and slots of a context cancelled. -/
def cancelEngines (s : State) (c : Nat) : State :=
  let s1 := forAll (List.range 72) (fun s n => if tileCtx s n = some c then tileCancel s n else s) s
  let s2 := forAll (List.range 8) (fun s n => if coreCtx s n = some c then coreCancel s n else s) s1
  let s3 := forAll (List.range 128) (fun s n => if chanCtx s n = some c then chanCancel s n else s) s2
  let s4 := forAll (List.range 64) (fun s j => if bruCtx s j = some c then bruCancel s j else s) s3
  let s5 := forAll (List.range 512) (fun s q =>
    if wbit s (queueReg q 8) 31 && decide (wfld s (queueReg q 8) 21 16 = c) && decide ((queueOf s q).st ≠ .stopped) then
      queueStop s q stCANCELLED
    else s) s4
  forAll (List.range 256) (fun s i =>
    if (slotOf s i).armed && decide (wfld s (slotReg i 8) 18 13 = c) then setSlot s i { slotOf s i with armed := false } else s) s5

/-- All work of a context cancelled: its Strokes and jobs end with a status, `cause` being the event that caused it. -/
def cancelContext (s : State) (c status cause : Nat) : State :=
  let s1 := forAll (streamList s) (fun s n => match streamOf s n with
    | some x => if x.ctx = c then cancelStream s n status cause else s
    | none => s) s
  let s2 := forAll (jobList s1) (fun s j => match jobOf s j with
    | some x => if x.ctx = c then cancelJob s j status else s
    | none => s) s1
  cancelEngines s2 c

/-- The code of a device state in notices (R327). -/
def devCode : DevState → Nat
  | .reset => 0 | .bootRom => 1 | .recovery => 2 | .bringup => 3 | .ready => 4

/-- DEVICE_STATE to every session (R327): the failing readiness check with its status, 0 and OK at READY. -/
def deviceNotice (s : State) (status check : Nat) : State :=
  noticeAll s (mkNotice s 0 status 2 okDEVICE 0 0xFFFF (leBytes 1 (devCode s.boot.st) ++ leBytes 1 0 ++ leBytes 2 check) [])

end Sys2Proof.Machine
end

