-- ==== Sys2Proof/Machine/AcpOps.lean ====
section
/-!
DEFINITION. Sys2Proof/Machine/AcpOps.lean: what the ACP commands share: TLVs (R323), replies and their DETAIL (R331), objects
(R326), versions (R332), transfers (R336), and the DDR5 pages Apgil gives out (R283, R292).
-/
namespace Sys2Proof.Machine

/-! ### TLVs -/

/-- The TLVs of a body (R323), none where one runs past its end. -/
def parseTlvs : Nat → List Byte → Option (List (Nat × List Byte))
  | 0, bs => if bs = [] then some [] else none
  | fuel + 1, bs =>
    if bs = [] then some []
    else if bs.length < 4 then none
    else
      let n := leAt bs 2 2
      let m := roundUp n 4
      if bs.length < 4 + m then none
      else (parseTlvs fuel (bs.drop (4 + m))).map (fun t => (leAt bs 0 2, slice bs 4 n) :: t)

/-- TLV types that Apgil knows (R323, R350, R357, R383, R388, R409, R411); 0x8073 and 0x8074 are the model's names for the
topology record and a snapshot's buffer (log 24). -/
def knownTlv (t : Nat) : Bool :=
  decide (t ∈ [0x8001, 0x0002, 0x0003, 0x8010, 0x8011, 0x0013, 0x0014, 0x8020, 0x8030, 0x8031, 0x8032, 0x8033, 0x8034, 0x0035,
    0x8036, 0x8037, 0x8040, 0x0041, 0x0042, 0x8043, 0x8044, 0x8045, 0x0050, 0x0051, 0x0052, 0x8060, 0x8070, 0x8071, 0x8072,
    0x8073, 0x8074])

/-- The value of the first TLV of a type. -/
def tlv (r : AcpReq) (t : Nat) : Option (List Byte) := (r.tlvs.find? (fun e => e.1 = t)).map (fun e => e.2)

/-- The values of every TLV of a type, in order. -/
def tlvAll (r : AcpReq) (t : Nat) : List (List Byte) := (r.tlvs.filter (fun e => e.1 = t)).map (fun e => e.2)

/-- A TLV value too short or too long for its field list. -/
def badLen (r : AcpReq) (t n : Nat) : Bool := (tlvAll r t).any (fun v => decide (v.length ≠ n))

/-- The OBJECT of a request: kind and index. -/
def objectOf (r : AcpReq) : Option (Nat × Nat) := (tlv r 0x8037).map (fun v => (leAt v 0 2, leAt v 4 4))

/-- An OBJECT TLV of a reply. -/
def objectTlv (kind index : Nat) : Nat × List Byte := (0x8037, leBytes 2 kind ++ leBytes 2 0 ++ leBytes 4 index)

/-! ### Replies -/

/-- The ROUTE TLV of a routed request, which its reply carries again (R357). -/
def routeTlv (r : AcpReq) : List (Nat × List Byte) := r.tlvs.filter (fun e => e.1 = 0x8072)

/-- A successful reply. -/
def okReply (s : State) (r : AcpReq) (tlvs : List (Nat × List Byte)) : State :=
  answer s r.sess r.seq r.typ r.ctx stOK (routeTlv r ++ tlvs)

/-- A failing reply with its DETAIL (R331). -/
def failReply (s : State) (r : AcpReq) (status check index : Nat) : State :=
  answer s r.sess r.seq r.typ r.ctx status (routeTlv r ++ [detailTlv check index])

/-- A reply to a request whose sender holds no session: number 0xFFFF stands for none. -/
def looseReply (s : State) (r : AcpReq) (status check index : Nat) : State :=
  deliverTo s r.origin r.major r.minor
    { sess := 0xFFFF, kind := 1, status := status, typ := r.typ, ctx := r.ctx, seq := r.seq, tlvs := [detailTlv check index] }

/-- Whether a request of its session is outstanding: accepted and not yet answered. -/
def unanswered (s : State) (r : AcpReq) : Bool :=
  match sessionOf s r.sess with
  | some x => decide (r ∈ x.executing)
  | none => false

/-- Whether a request is the next of its session to be executed: requests of one session begin in their order of arrival (R329). -/
def isNext (s : State) (r : AcpReq) : Bool :=
  match sessionOf s r.sess with
  | some x => decide (x.executing.find? (fun q => decide (q.seq ∉ x.begun)) = some r)
  | none => false

/-- A request that begins: a later one of its session may follow before it is answered (R329). -/
def beginReq (s : State) (r : AcpReq) : State :=
  match sessionOf s r.sess with
  | some x => setSession s r.sess (some { x with begun := x.begun ++ [r.seq] })
  | none => s

/-- Whether a device-wide request of R337 is under way: it waits for its commit, for a reset, a power cycle or the SMI. -/
def deviceBusy (s : State) : Bool :=
  s.flash.waiting.any (fun t => t.reply.isSome) || !s.host.resetReplies.isEmpty || !s.host.cycleReplies.isEmpty || s.host.licReply.isSome

/-! ### Features, pause, identity -/

/-- Whether a licence is installed (R6, R339): bit 0 L-MET, 1 L-BRG, 2 L-HDR3, 3 L-MX, 4 L-DBG. -/
def licensed (s : State) (bit : Nat) : Bool := s.licences.any (fun f => f.testBit bit)

/-- Every licensed feature. -/
def features (s : State) : Nat := s.licences.foldl (fun a b => a ||| b) 0

/-- Whether no management core takes requests: a hand-over is under way (R412), every core restarts (R444), or none runs. -/
def apgilPaused (s : State) : Bool :=
  decide (s.boot.phase = .handover) || !(List.range 2).any (fun n => (tget {} s.boot.mgmt n).running && !(tget {} s.boot.mgmt n).restarting)

/-- The device identifier in force (R356): 0x3FFF without a record. -/
def deviceId (s : State) : Nat := match s.bridge.record with | some t => t.device % 2 ^ 14 | none => 0x3FFF

/-- Whether a request's ROUTE names another device (R357). -/
def routedAway (s : State) (r : AcpReq) : Bool := match tlv r 0x8072 with | some v => decide (leAt v 0 2 ≠ deviceId s) | none => false

/-- A request whose turn it is, executed here; any other waits (R329). -/
def executing (s : State) (r : AcpReq) (f : State → State) : Out :=
  if isNext s r && !routedAway s r then .next (f (beginReq s r)) else .next s

/-- A device-wide command: it waits while another is under way (R337). -/
def deviceWide (s : State) (r : AcpReq) (f : State → State) : Out :=
  if deviceBusy s then .next s else executing s r f

/-- Code of the grade in reports (R339). -/
def gradeCode (s : State) : Nat := s.fuses.grade

/-! ### Objects (R326) -/

/-- The status of an engine or reset domain named by its object index; none when it is usable (R5). -/
def engineStatus (s : State) (i : Nat) : Option Nat :=
  let other (d : Domain) : Option Nat := if d ∈ s.retire.others then some stRETIRED else none
  if i < 72 then (if !tilePresent s i then some stABSENT else if tileRetired s i then some stRETIRED else none)
  else if i < 80 then (if gradeCores s ≤ i - 72 then some stABSENT else if coreRetired s (i - 72) then some stRETIRED else none)
  else if i < 208 then none
  else if i < 272 then other .bru
  else if i < 288 then (if gradePorts s ≤ i - 272 then some stABSENT else other (.port (i - 272)))
  else if 0x10000 ≤ i ∧ i < 0x10004 then other (.plate (i - 0x10000))
  else if 0x10010 ≤ i ∧ i < 0x10012 then other (.colour (i - 0x10010))
  else if i = 0x10020 ∨ i = 0x10021 then none
  else if 0x10030 ≤ i ∧ i < 0x10032 then other (.stipple (i - 0x10030))
  else if 0x10040 ≤ i ∧ i < 0x10044 then
    (if gradeNets s ≤ i - 0x10040 then some stABSENT else if i - 0x10040 ∈ s.retire.netPorts then some stRETIRED else none)
  else if 0x10050 ≤ i ∧ i < 0x10058 then none
  else if 0x10060 ≤ i ∧ i < 0x10062 then none
  else if 0x10070 ≤ i ∧ i < 0x10074 then none
  else if 0x10080 ≤ i ∧ i < 0x10084 then
    (if gradeLinks s ≤ i - 0x10080 then some stABSENT else if !licensed s 1 then some stUNLICENSED else none)
  else some stCOUNT

/-- The reset domain of an engine index (R30). -/
def engineDomain (i : Nat) : Option Domain :=
  if i < 72 then some (.tile i) else if i < 80 then some (.core (i - 72))
  else if i < 208 then some (.dma ((i - 80) / 32)) else if i < 272 then some .bru else if i < 288 then some (.port (i - 272))
  else if 0x10000 ≤ i ∧ i < 0x10004 then some (.plate (i - 0x10000))
  else if 0x10010 ≤ i ∧ i < 0x10012 then some (.colour (i - 0x10010))
  else if i = 0x10020 then some .stat else if i = 0x10021 then some .pcm
  else if 0x10030 ≤ i ∧ i < 0x10032 then some (.stipple (i - 0x10030))
  else if 0x10040 ≤ i ∧ i < 0x10044 then some .network
  else if 0x10050 ≤ i ∧ i < 0x10058 then some (.appCluster ((i - 0x10050) / 4))
  else if 0x10060 ≤ i ∧ i < 0x10062 then some .mgmt
  else if 0x10070 ≤ i ∧ i < 0x10074 then some (.ddr (i - 0x10070))
  else if 0x10080 ≤ i ∧ i < 0x10084 then some (.bridge (i - 0x10080))
  else none

/-- The status of a partition (R326): absent when the grade enables none of its islands. -/
def partStatus (s : State) (p : Nat) : Option Nat :=
  if 48 ≤ p then some stCOUNT
  else if p < 18 ∧ !(List.range 4).any (fun i => tilePresent s (4 * p + i)) then some stABSENT
  else if 18 ≤ p ∧ p < 26 ∧ gradeCores s ≤ p - 18 then some stABSENT
  else if 26 ≤ p ∧ p < 30 ∧ gradePorts s ≤ 4 * (p - 26) then some stABSENT
  else if p = 42 ∧ gradeLinks s = 0 then some stABSENT
  else if p = 42 ∧ !licensed s 1 then some stUNLICENSED
  else none

/-- Whether a context belongs to a request: its own context, or any of its session where it names none. -/
def ofRequest (s : State) (r : AcpReq) (c : Nat) : Bool :=
  if r.ctx = 0xFFFF then (match contextOf s c with | some x => decide (x.sess = r.sess) | none => false) else decide (c = r.ctx)

/-- The status with which a named object fails, none when it may be acted on (R326, R5). -/
def objectStatus (s : State) (r : AcpReq) (kind i : Nat) : Option Nat :=
  let must (b : Bool) : Option Nat := if b then none else some stCOUNT
  match kind with
  | 0x0000 => must (decide (i = 0))
  | 0x0001 => must (match streamOf s i with | some x => ofRequest s r x.ctx | none => false)
  | 0x0002 => must (match jobOf s i with | some j => ofRequest s r j.ctx | none => false)
  | 0x0003 => must (match packageOf s i with | some p => ofRequest s r p.ctx | none => false)
  | 0x0004 => engineStatus s i
  | 0x0005 => partStatus s i
  | 0x0006 => must (match contextOf s i with | some x => decide (x.sess = r.sess) | none => false)
  | 0x0007 => if 4 ≤ i then some stCOUNT else engineStatus s (0x10080 + i)
  | 0x0008 =>
    if 256 ≤ i then some stCOUNT else if gradeLinks s = 0 then some stABSENT else if !licensed s 1 then some stUNLICENSED else none
  | 0x0009 => if 0x10100 ≤ i ∧ i < 0x10200 then none else if i < 80 then engineStatus s i else some stCOUNT
  | 0x000A => must (decide (i = 0))
  | 0x000B => engineStatus s i
  | 0x000C => none
  | 0x0010 => none
  | _ => some stCOUNT

/-- An object's failure answered (R331 step 7 for the Capability class, the command's own checks otherwise). -/
def failObject (s : State) (r : AcpReq) (st i : Nat) : State :=
  failReply s r st (if st / 16 = 2 then 7 else 8) i

/-! ### Transfers (R336) -/

/-- Bytes with a patch at an offset. -/
def patchBytes (bs : List Byte) (off : Nat) (d : List Byte) : List Byte :=
  (padTo off bs).take off ++ d ++ bs.drop (off + d.length)

/-- How far from byte 0 a list of chunks, sorted by offset, covers without a gap. -/
def coveredTo (cs : List (Nat × List Byte)) : Nat :=
  (sortBy (fun (c : Nat × List Byte) => c.1) cs).foldl (fun e c => if c.1 ≤ e then max e (c.1 + c.2.length) else e) 0

/-- The bytes of the chunks, later ones over earlier ones. -/
def assembled (cs : List (Nat × List Byte)) : List Byte := cs.foldl (fun bs c => patchBytes bs c.1 c.2) []

/-- A transfer with the chunks of a request added; `at` and `n` say where the length stands in the header. -/
def addChunks (t : Transfer) (vs : List (List Byte)) (at' n now : Nat) : Transfer :=
  let cs := t.chunks ++ vs.map (fun v => (leAt v 0 8, v.drop 8))
  { t with chunks := cs, last := now, length := if at' + n ≤ coveredTo cs then some (leAt (assembled cs) at' n) else none }

/-- Whether a transfer is complete. -/
def transferDone (t : Transfer) : Bool := match t.length with | some n => decide (n ≤ coveredTo t.chunks) | none => false

/-- The open transfer of a command and context in a session. A session's transfers are told apart by these (log 25). -/
def transferOf (x : Session) (typ ctx : Nat) : Option Transfer := x.transfers.find? (fun t => t.typ = typ && t.ctx = ctx)

/-- A session with a transfer put in place of the one of its command and context. -/
def putTransfer (x : Session) (t : Transfer) : Session :=
  { x with transfers := x.transfers.filter (fun u => !(decide (u.typ = t.typ) && decide (u.ctx = t.ctx))) ++ [t] }

/-- A session with a transfer closed. -/
def dropTransfer (x : Session) (typ ctx : Nat) : Session :=
  { x with transfers := x.transfers.filter (fun u => !(decide (u.typ = typ) && decide (u.ctx = ctx))) }

/-- Whether every CHUNK of a request holds an offset and 1 to 4,064 bytes. -/
def chunksGood (r : AcpReq) : Bool :=
  (tlvAll r 0x8020).all (fun v => decide (9 ≤ v.length) && decide (v.length ≤ 8 + 4064))

/-! ### Flag groups (R295) -/

/-- A flag group wanted by a context: a free one is granted with its flags at 0; one of another context of the same session is
shared, by up to 3 (log 27). Group 0 is never granted. -/
def takeGroup (s : State) (c g : Nat) : State :=
  let x := groupOf s g
  let sess (k : Nat) : Option Nat := (contextOf s k).map (fun y => y.sess)
  if g = 0 ∨ 1024 ≤ g ∨ x.owner = some c ∨ c ∈ x.sharers then s
  else match x.owner with
    | none => setGroup { s with flags := s.flags.filter (fun e => decide (e.1 / 64 ≠ g)) } g { owner := some c, sharers := [] }
    | some o => if sess o = sess c ∧ x.sharers.length < 3 then setGroup s g { x with sharers := x.sharers ++ [c] } else s

/-- The group a context gets when it opens: group 1 + c, else the lowest free one (log 27). -/
def openGroup (s : State) (c : Nat) : State :=
  if (groupOf s (1 + c)).owner = none then takeGroup s c (1 + c)
  else match findBelow (fun g => decide (g ≠ 0) && decide ((groupOf s g).owner = none)) 1024 with
    | some g => takeGroup s c g
    | none => s

/-- The groups a plan's flag declarations lie in. -/
def declGroups (c : PlanContent) : List Nat := (c.decls.map (fun d => d.flag / 64)).eraseDups

/-- The groups of a plan's declarations taken for its context. -/
def takeGroups (s : State) (ctx : Nat) (c : PlanContent) : State := forAll (declGroups c) (fun s g => takeGroup s ctx g) s

/-- The shares that a package brought its context, ended unless another package of the context declares the group. -/
def dropShares (s : State) (p : Package) : State :=
  forAll (declGroups p.content) (fun s g =>
    if s.host.packages.any (fun q => decide (q.ident ≠ p.ident) && decide (q.ctx = p.ctx) && decide (g ∈ declGroups q.content)) then s
    else setGroup s g { groupOf s g with sharers := (groupOf s g).sharers.filter (fun k => k ≠ p.ctx) }) s

end Sys2Proof.Machine
end

