-- ==== Sys2Proof/Machine/FlagTime.lean ====
section
/-!
DEFINITION. Sys2Proof/Machine/FlagTime.lean: accesses to flags, expired waits, the deadlock check, sources and steps of device
time (R295 to R308, R320, R355).
-/
namespace Sys2Proof.Machine

/-! ### Flags -/

/-- FLAG_UPDATE (R123, R296 to R299): a SET or ADD of a source. -/
def execFlagUpdate (src : Src) (flag : Nat) (add : Bool) (value : Word) (s : State) : Out :=
  .next (signalFlag s src flag add value)

/-- FLAG_WRITE (R298): a write of a flag word acts as SET, from Apgil alone. -/
def execFlagWrite (src : Src) (flag : Nat) (value : Word) (s : State) : Out :=
  let a := flagBase + 4 * flag
  match meets s src a with
  | .here => .next (if isApgil src then apgilFlag s flag false value else denied s src a)
  | m => .next (refuse s src a m)

/-- FLAG_READ (R298). -/
def execFlagRead (src : Src) (flag : Nat) (s : State) : Out :=
  let a := flagBase + 4 * flag
  match meets s src a with
  | .here =>
    if flagReadable s src flag then .next { s with bus := some { src := src, status := stOK, data := flagOf s flag } }
    else .next { denied s src a with bus := some { src := src, status := stOK, data := 0 } }
  | m => .next (refuse s src a m)

/-! ### Expiry (R300) -/

/-- A waiter stopped with WAIT_TIMEOUT (R122, R137, R178, R218, R268, R304, R107). -/
def timeoutStop (s : State) (who : Nat) : State :=
  match waiterSrc who with
  | .tile n => tileStop s n stTIMEOUT
  | .core n => coreStop s n stTIMEOUT
  | .dma c => chanStop s c stTIMEOUT
  | .bru j => bruEnd s j stTIMEOUT
  | .queue q => queueStop s q stTIMEOUT
  | .stroke n => updStream s n (fun x =>
      match x.frames.find? (fun f => !f.recorded) with
      | some f => updFrame x f.seq (fun r => { r with timedOut := true })
      | none => x)
  | _ => s

/-- A deadlock check made due (R301). -/
def dueCheck (s : State) (c : Check) : State := { s with checks := s.checks ++ [c] }

/-- The time at which a wait without an entry in the wait table began, with its timeout in µs: a paced MOVE's (R257), an event
wait's (R222), a queue's wait for its target (R304). -/
def plainWait (s : State) (who : Nat) : Option (Nat × Nat) :=
  match waiterSrc who with
  | .core n =>
    let c := coreOf s n
    if c.st = .waiting ∧ c.waitEv.isSome then some (c.waitFrom, wfld s (ecReg n 0x14) 23 0) else none
  | .dma n =>
    let x := chanOf s n
    if x.st = .waiting ∧ x.move.isSome then some (x.waitFrom, wfld s (dmReg n 0x18) 23 0) else none
  | .queue q =>
    if (queueOf s q).st = .waiting then ((queueOf s q).waitFrom).map (fun t => (t, wfld s (queueReg q 0x18) 23 0)) else none
  | _ => none

/-- WAIT_EXPIRY (R257, R300, R304): a wait whose expiry tick has passed: the event names waiter, flag, value and the flag's
value, the waiter stops, a deadlock check is due. An event, a credit or a target is no flag: its event's detail is open. -/
def execWaitExpiry (waiter : Nat) (s : State) : Out :=
  let ctx := srcCtx s (waiterSrc waiter)
  match s.waits.find? (fun w => w.who = waiter) with
  | some w =>
    if w.expiry ≤ s.clk.up then
      let s1 := raise s { code := 0x401, status := stTIMEOUT, src := waiter, ctx := ctx.getD noCtx,
                          detail := w.value.toNat + (flagOf s w.flag).toNat * 2 ^ 32, extra := w.flag + b2n w.eq * 2 ^ 16 }
      .next (timeoutStop (dueCheck (withdrawWait s1 waiter) { who := waiter, ctx := ctx, flag := some w.flag }) waiter)
    else .next s
  | none =>
    match plainWait s waiter with
    | some (t, us) =>
      if t + us * 1000 ≤ s.clk.up then
        .next (timeoutStop (dueCheck (raiseOpen s 0x401 stTIMEOUT waiter ctx) { who := waiter, ctx := ctx, flag := none }) waiter)
      else .next s
    | none => .next s

/-! ### The deadlock check (R301, R302) -/

/-- The entities that run a program of a plan: those of the Strokes and jobs of its package. -/
def progEntities (s : State) (p : Package) : Prog → List Nat
  | .tile l =>
    ((s.streams.flatMap (fun e => match e.2 with
      | some x => if carries x && decide (dPlan x = p.ident) then strokeTiles x else []
      | none => [])) ++
     (s.host.jobs.flatMap (fun e => match e.2 with | some j => if j.plan = p.ident then j.tiles else [] | none => []))).filter
      (fun n => wfld s (gtReg n 0x10) 22 16 = l)
  | .core l =>
    ((s.host.jobs.flatMap (fun e => match e.2 with | some j => if j.plan = p.ident then j.cores else [] | none => [])).filter
      (fun n => wfld s (ecReg n 0x10) 19 16 = l)).map (fun n => 72 + n)
  | .dma i =>
    s.host.jobs.flatMap (fun e => match e.2 with
      | some j => if j.plan = p.ident then (match j.chans[i]? with | some c => [80 + c] | none => []) else []
      | none => []) ++
    s.streams.flatMap (fun e => match e.2 with
      | some x => if carries x && decide (dPlan x = p.ident) then
          ((x.chans.zip (planRuns s x)).filter (fun q => p.content.dmas[i]? = some q.2.1)).map (fun q => 80 + q.1) else []
      | none => [])
  | .bru i => [208 + i]
  | .queue q => [560 + q]

/-- Entry i of a queue's ring, as its four words (R303). -/
def queueEntry (s : State) (q i : Nat) : List Word :=
  let base := wfld s (queueReg q 0) 31 6 * 64 + wfld s (queueReg q 4) 7 0 * 2 ^ 32
  let a := base + i % max 1 (wfld s (queueReg q 8) 12 0) * 16
  [wordAt s a, wordAt s (a + 4), wordAt s (a + 8), wordAt s (a + 12)]

/-- Entries a queue holds. -/
def queueHeld (s : State) (q : Nat) : Nat :=
  min 4096 ((wfld s (queueReg q 0xC) 31 0 + 2 ^ 32 - (queueOf s q).head % 2 ^ 32) % 2 ^ 32)

/-- The target of an entry as a source index: its kind and index (R303). -/
def entryTarget (e : List Word) : Option Nat :=
  let w := e.getD 0 0
  let i := fld w 31 24
  if fld w 23 20 = 3 then some (80 + i) else if fld w 23 20 = 4 then some i else if fld w 23 20 = 5 then some (72 + i) else none

/-- The queues whose entries still to be started launch an entity. -/
def launchers (s : State) (who : Nat) : List Nat :=
  ((List.range 512).filter (fun q => wbit s (queueReg q 8) 31 &&
    (List.range (queueHeld s q)).any (fun i => entryTarget (queueEntry s q ((queueOf s q).head + i)) = some who))).map
      (fun q => 560 + q)

/-- Whether a tile, core or channel is at work. -/
def entityBusy (s : State) (who : Nat) : Bool :=
  match waiterSrc who with
  | .tile n => engBusy (tileOf s n).st
  | .core n => engBusy (coreOf s n).st
  | .dma c => chanBusy (chanOf s c)
  | _ => true

/-- The declared signallers of a flag as entities (R301): a program a queue is still to launch counts as that queue. None where
no declaration names the flag. -/
def signallersOf (s : State) (f : Nat) : Option (List Nat) :=
  let ds := s.host.packages.flatMap (fun p => (p.content.decls.filter (fun d => d.flag = f)).map (fun d => (p, d)))
  let named := ds.flatMap (fun pd => pd.2.signallers.map (fun g => (pd.1, g)))
  if named = [] then none
  else
    let ents := named.flatMap (fun pg => match progEntities s pg.1 pg.2 with | [] => [0xFFFF] | l => l)
    some (ents.flatMap (fun e => let q := launchers s e; if !entityBusy s e && decide (q ≠ []) then q else [e])).eraseDups

/-- An entity of the check: who, and the flag it waits on. -/
abbrev Blocked := List (Nat × Option Nat)

/-- Whether an entity stays blocked: its flag has declared signallers and every one of them is blocked. -/
def staysBlocked (s : State) (l : Blocked) (e : Nat × Option Nat) : Bool :=
  match e.2 with
  | none => false
  | some f => match signallersOf s f with
    | none => false
    | some g => g.all (fun x => l.any (fun b => b.1 = x))

/-- Entities removed until none is (R301). -/
def blockedSet (s : State) : Nat → Blocked → Blocked
  | 0, l => l
  | k + 1, l => blockedSet s k (l.filter (staysBlocked s l))

/-- The entities of a report in the order of R302: breadth first along the declared signallers, ascending. -/
def cycleOrder (s : State) (l : Blocked) : Nat → List Nat → List Nat → List Nat
  | 0, _, seen => seen
  | _, [], seen => seen
  | k + 1, e :: todo, seen =>
    let f := (l.find? (fun b => b.1 = e)).bind (fun b => b.2)
    let next := match f.bind (signallersOf s) with
      | some g => sortBy id (g.filter (fun x => l.any (fun b => b.1 = x) && !decide (x ∈ seen)))
      | none => []
    cycleOrder s l k (todo ++ next) (seen ++ next)

/-- DEADLOCK_CHECK (R301, R302): after a WAIT_TIMEOUT; a waiter that stays blocked is a deadlock: it is reported, the host of
every context in it is told, and those contexts are cancelled. -/
def execDeadlockCheck (waiter : Nat) (s : State) : Out :=
  match s.checks.find? (fun c => c.who = waiter) with
  | none => .next s
  | some c =>
    let s0 := { s with checks := s.checks.erase c }
    let all : Blocked := (waiter, c.flag) :: (s.waits.filter (fun w => w.who ≠ waiter)).map (fun w => (w.who, some w.flag))
    let l := blockedSet s0 (all.length + 1) all
    if l.any (fun b => b.1 = waiter) then
      let order := cycleOrder s0 l (l.length + 1) [waiter] [waiter]
      let ctxOf (e : Nat) : Option Nat := if e = waiter then c.ctx else srcCtx s0 (waiterSrc e)
      let ctxs := (order.filterMap ctxOf).eraseDups
      let cycle := order.flatMap (fun e => leBytes 2 e ++ leBytes 1 ((ctxOf e).getD noCtx) ++ leBytes 1 0)
      let s1 := raiseOpen s0 0x402 stDEADLOCK waiter c.ctx
      let s2 := forAll ctxs (fun s k => notify s k 0 stDEADLOCK 11 okCONTEXT k (leBytes 2 (c.flag.getD 0) ++ leBytes 2 waiter)
        [(0x0052, cycle)]) s1
      .next (forAll ctxs (fun s k => cancelContext s k stCANCELLED 0x402) s2)
    else .next s0

/-! ### Device time (R306 to R308, R320, R355) -/

/-- Whether a queue holds an entry with a not_before time. -/
def queueTimed (s : State) (q : Nat) : Bool :=
  wbit s (queueReg q 8) 31 && decide ((queueOf s q).st ≠ .stopped) &&
    (List.range (queueHeld s q)).any (fun i =>
      let e := queueEntry s q ((queueOf s q).head + i)
      decide (e.getD 2 0 ≠ 0) || decide (e.getD 3 0 ≠ 0))

/-- Whether device time may be stepped (R308). -/
def stepAllowed (s : State) : Bool :=
  decide (s.boot.st ≠ .ready) ||
    (s.slots.all (fun e => !e.2.armed) && (List.range 512).all (fun q => !queueTimed s q))

/-- Device time stepped by an offset to the source (R308). The event's stamp is the new time, its detail the old one (log 21). -/
def stepTime (s : State) (o : Int) : State :=
  let old := s.clk.now
  raiseEv { s with clk := { s.clk with now := ((old : Int) + o).toNat, sync := .acquiring, pendingStep := none } } 0x502 0 1127 none old

/-- An offset measured to the source in use (R307, R308): small ones slew the rate, whose value the servo chooses within
500 ppm (open, log 1); large ones step, now or once they may. -/
def servo (s : State) (offset : Int) : State :=
  let s0 := { s with clk := { s.clk with offset := satS 32 offset } }
  if offset.natAbs < 100000 then
    let r := freshNat 61 s0
    let ppb : Int := (r.1 % 1000001 : Nat) - 500000
    { setWord r.2 (timeBase + 0x10) (BitVec.ofInt 32 ppb) with clk := { r.2.clk with sync := .locked, pendingStep := none } }
  else if stepAllowed s0 then stepTime s0 offset
  else raiseOpen { s0 with clk := { s0.clk with sync := .stepPending, pendingStep := some offset } } 0x501 0 1127 none

/-- The time source selected. -/
def timeSource (s : State) : Nat := wfld s (timeBase + 8) 1 0

/-- TIME_SOURCE_SELECT (R307, R316): a write of 3 leaves the source; a new source is acquired, the local crystal runs free. -/
def execTimeSourceSelect (src : Src) (value : Word) (s : State) : Out :=
  match meets s src (timeBase + 8) with
  | .here =>
    if isApgil src then
      let k := fld value 1 0
      if k = 3 ∨ k = timeSource s then .next s
      else
        .next { setWfld s (timeBase + 8) 1 0 k with
          clk := { s.clk with sync := if k = 0 then .free else .acquiring, pendingStep := none } }
    else .next (denied s src (timeBase + 8))
  | m => .next (refuse s src (timeBase + 8) m)

/-- GPTP_SYNC_MESSAGE (R307, R308, R320): on a port that SET_CONFIG names, while the source is IEEE 802.1AS. -/
def execGptpSyncMessage (port : Nat) (offset : Int) (s : State) : Out :=
  if decide (timeSource s = 1) && (portOf s port).gptp && (portOf s port).up && !heldInReset s .network then .next (servo s offset)
  else .next s

/-- The link from which device time is taken (R355): the fewest hops to the time master, ties to the lower link. -/
def timeLink (s : State) : Option Nat :=
  minBy (fun k => ((linkOf s k).hops).getD 0)
    ((List.range 4).filter (fun k => (linkOf s k).st = .up && ((linkOf s k).hops).isSome))

/-- BRIDGE_TIME_MESSAGE (R307, R308, R355): the link's delay is measured; the link time is taken from corrects device time. -/
def execBridgeTimeMessage (link : Nat) (delay : Nat) (offset : Int) (s : State) : Out :=
  if (linkOf s link).st = .up then
    let s1 := setLink s link { linkOf s link with delay := delay }
    if timeSource s = 2 ∧ timeLink s = some link then .next (servo s1 offset) else .next s1
  else .next s

/-- TIME_SOURCE_LOST (R307): HOLDOVER at the last corrected rate. -/
def execTimeSourceLost (s : State) : Out :=
  if timeSource s = 0 then .next s else .next { s with clk := { s.clk with sync := .holdover, pendingStep := none } }

/-- DEVICE_TIME_STEP (R308): a pending offset is stepped once no slot is armed and no queue holds a not_before time. -/
def execDeviceTimeStep (s : State) : Out :=
  match s.clk.pendingStep with
  | some o => if stepAllowed s then .next (stepTime s o) else .next s
  | none => .next s

end Sys2Proof.Machine
end

