-- ==== Sys2Proof/Machine/Queue.lean ====
section
/-!
DEFINITION. Sys2Proof/Machine/Queue.lean: hardware queues, launch slots and the cancel of a context (R303, R304, R309, R311 to
R313).
-/
namespace Sys2Proof.Machine

/-- A write of the device-time and launch block that the access rules and R316 let through. -/
def timeControl (s : State) (src : Src) (a : Nat) (f : State → State) : State :=
  match meets s src a with
  | .here => if isApgil src then f s else denied s src a
  | m => refuse s src a m

/-! ### Scheduled launches -/

/-- Whether a tile, core or channel of a context can take a scheduled launch: launch_en and IDLE or DONE. -/
inductive Launch where
  | made | busy | disabled
  deriving DecidableEq, Repr

/-- A scheduled launch of a tile, a core or a channel (R137, R218, R268, R312): with launch_en set it is a start. -/
def launchTarget (s : State) (who : Nat) : State × Launch :=
  match waiterSrc who with
  | .tile n =>
    if wbit s (gtReg n 0) 3 then (tileGo s n, if decide ((tileOf s n).st = .idle) || decide ((tileOf s n).st = .done) then .made else .busy)
    else (s, .disabled)
  | .core n =>
    if wbit s (ecReg n 0) 2 then (coreGo s n, if decide ((coreOf s n).st = .idle) || decide ((coreOf s n).st = .done) then .made else .busy)
    else (s, .disabled)
  | .dma c =>
    if wbit s (dmReg c 0) 5 then (chanGo s c, if chanFree (chanOf s c) then .made else .busy) else (s, .disabled)
  | _ => (s, .disabled)

/-- Whether a target may be launched for a context (R304): none, or the status with which a queue stops, as R5 orders them. -/
def targetStatus (s : State) (who ctx : Nat) : Option Nat :=
  match waiterSrc who with
  | .tile n =>
    if tileRetired s n then some stRETIRED
    else if tileInService s n && decide (tileCtx s n = some ctx) then none else some stABSENT
  | .core n =>
    if gradeCores s ≤ n then some stABSENT else if coreRetired s n then some stRETIRED
    else if coreCtx s n = some ctx then none else some stABSENT
  | .dma c => if chanCtx s c = some ctx then none else some stABSENT
  | _ => some stABSENT

/-- Whether the target of an entry is IDLE or DONE. -/
def targetFree (s : State) (who : Nat) : Bool :=
  match waiterSrc who with
  | .tile n => tileReady s n
  | .core n => decide ((coreOf s n).st = .idle) || decide ((coreOf s n).st = .done)
  | .dma c => chanFree (chanOf s c)
  | _ => true

/-! ### Hardware queues (R303, R304) -/

/-- QUEUE_ENABLE (R304, R316): enable starts processing; 0 stops it and resets a stopped queue. -/
def execQueueEnable (src : Src) (queue : Nat) (value : Word) (s : State) : Out :=
  .next (timeControl s src (queueReg queue 8) (fun s =>
    let s1 := setWord s (queueReg queue 8) (value &&& 0x803F1FFF)
    if bitOf value 31 then s1
    else withdrawWait (setQueue s1 queue { queueOf s1 queue with st := .idle, condMet := false, waitFrom := none }) (560 + queue)))

/-- A queue waits. -/
def queueWaits (s : State) (q : Nat) : State := setQueue s q { queueOf s q with st := .waiting }

/-- The last steps of an entry: its target, when it is IDLE or DONE, is started and the next entry taken. -/
def queueLaunch (s : State) (q ctx who : Nat) : State :=
  match targetStatus s who ctx with
  | some code => queueStop s q code
  | none =>
    if targetFree s who then
      let s1 := (launchTarget s who).1
      let x := queueOf s1 q
      setQueue s1 q { x with st := .idle, head := (x.head + 1) % 2 ^ 32, condMet := false, waitFrom := none }
    else queueWaits s q

/-- The head entry of a queue taken as far as it goes (R304). A reserved condition or kind stops the queue (log 22). -/
def queueRun (s : State) (q : Nat) : State :=
  let x := queueOf s q
  if !wbit s (queueReg q 8) 31 || decide (x.st = .stopped) || decide (queueHeld s q = 0) || heldInReset s .network || cancelDue s (wfld s (queueReg q 8) 21 16) then s
  else
    let e := queueEntry s q x.head
    let w := e.getD 0 0
    let ctx := wfld s (queueReg q 8) 21 16
    let nb := (e.getD 2 0).toNat + (e.getD 3 0).toNat * 2 ^ 32
    match entryTarget e with
    | none => queueStop s q stCOUNT
    | some who =>
      if fld w 17 16 = 3 then queueStop s q stCOUNT
      else if nb ≠ 0 ∧ s.clk.now < nb then queueWaits s q
      else
        let s1 := if x.waitFrom.isNone then setQueue s q { x with waitFrom := some s.clk.up } else s
        if x.condMet || decide (fld w 17 16 = 0) then queueLaunch s1 q ctx who
        else if s.waits.any (fun v => v.who = 560 + q) then s
        else match startWait s1 (560 + q) (some ctx) (fld w 15 0) (decide (fld w 17 16 = 2)) (e.getD 1 0)
            (wfld s (queueReg q 0x18) 23 0) with
          | none => queueLaunch (setQueue s1 q { queueOf s1 q with condMet := true }) q ctx who
          | some s2 => queueWaits s2 q

/-- QUEUE_ENTRY_START (R303, R304). -/
def execQueueEntryStart (queue : Nat) (s : State) : Out := .next (queueRun s queue)

/-! ### Launch slots (R311 to R313) -/

/-- LAUNCH_SLOT_ARM (R311, R316): armed with the time then held in `DT_L_TIME`; an armed slot ignores it. -/
def execLaunchSlotArm (src : Src) (slot : Nat) (value : Word) (s : State) : Out :=
  .next (timeControl s src (slotReg slot 8) (fun s =>
    let x := slotOf s slot
    if x.armed then s
    else
      let s1 := setWord s (slotReg slot 8) (value &&& 0x2007FFFF)
      if bitOf value 31 && !bitOf value 30 then
        setSlot s1 slot { x with armed := true, next := wfld s (slotReg slot 0) 31 0 + wfld s (slotReg slot 4) 31 0 * 2 ^ 32 }
      else s1))

/-- LAUNCH_SLOT_DISARM (R311). -/
def execLaunchSlotDisarm (src : Src) (slot : Nat) (value : Word) (s : State) : Out :=
  .next (timeControl s src (slotReg slot 8) (fun s =>
    if bitOf value 30 then setSlot s slot { slotOf s slot with armed := false } else s))

/-- The launch of a slot (R312): the state, and whether the target accepted it. -/
def slotLaunch (s : State) (slot : Nat) : State × Bool :=
  let w := word s (slotReg slot 8)
  let i := fld w 11 4
  let ctx := fld w 18 13
  let start (who : Nat) : State × Bool :=
    if targetStatus s who ctx = none then
      let r := launchTarget s who
      (r.1, decide (r.2 = .made))
    else (s, false)
  match fld w 3 0 with
  | 1 => (pinLaunch s (i % 16) (slotOf s slot).next, true)
  | 2 =>
    match streamOf s i with
    | some x =>
      let r := launchTry s i x
      if x.phase = .launching ∧ x.startReply = none ∧ x.ctx = ctx ∧
        (match streamOf r i with | some y => decide (y.phase = .running) || (x.chans.isEmpty && !y.chans.isEmpty) | none => false) = true then (r, true)
      else (s, false)
    | none => (s, false)
  | 3 => start (80 + i)
  | 4 => start i
  | 5 => start (72 + i)
  | 6 =>
    let q := i + fld w 12 12 * 256
    if wbit s (queueReg q 8) 31 && decide (wfld s (queueReg q 8) 21 16 = ctx) && decide ((queueOf s q).st ≠ .stopped) then
      (queueRun s q, true)
    else (s, false)
  | _ => (s, false)

/-- The slot after an occurrence: its next time, its count, disarmed after the last (R311). -/
def slotNext (s : State) (slot : Nat) : State :=
  let x := slotOf s slot
  let period := wfld s (slotReg slot 0xC) 31 0
  let count := wfld s (slotReg slot 0x10) 31 0
  let s1 := if period ≠ 0 ∧ count ≠ 0 then setWord s (slotReg slot 0x10) (BitVec.ofNat 32 (count - 1)) else s
  setSlot s1 slot { x with fired := x.fired + 1, next := x.next + 4 * period, armed := decide (period ≠ 0) && decide (count ≠ 1) }

/-- LAUNCH_SLOT_FIRE (R139, R311 to R313): in the first tick whose device time is at or after the slot's time; a cancel of the slot's context
in that tick goes first. -/
def execLaunchSlotFire (slot : Nat) (s : State) : Out :=
  let x := slotOf s slot
  if x.armed ∧ x.next ≤ s.clk.now ∧ cancelDue s (wfld s (slotReg slot 8) 18 13) = false then
    let late := decide (x.next + 4 ≤ s.clk.now)
    let s1 := if late then setWbit s (slotReg slot 0x14) 1 true else s
    if late && wbit s (slotReg slot 8) 29 then .next (slotNext s1 slot)
    else
      let r := slotLaunch s1 slot
      let s2 := if r.2 then r.1 else setWbit r.1 (slotReg slot 0x14) 2 true
      .next (slotNext s2 slot)
  else .next s

/-! ### Cancel of a context (R309) -/

/-- CONTEXT_CANCEL_WRITE (R309, R316): the cancel's tick is two ticks after the write. -/
def execContextCancelWrite (src : Src) (value : Word) (s : State) : Out :=
  .next (timeControl s src (timeBase + 0x20) (fun s =>
    if bitOf value 8 then { s with clk := { s.clk with cancels := s.clk.cancels ++ [(fld value 5 0, s.clk.up + 8)] } } else s))

/-- CONTEXT_CANCEL_APPLY (R309, R310, R313): every unit of the context applies the cancel in its tick. -/
def execContextCancelApply (ctx : Nat) (s : State) : Out :=
  match s.clk.cancels.find? (fun p => p.1 = ctx && decide (p.2 ≤ s.clk.up)) with
  | some p => .next (cancelContext { s with clk := { s.clk with cancels := s.clk.cancels.erase p } } ctx stCANCELLED 0)
  | none => .next s

end Sys2Proof.Machine
end

