-- ==== Sys2Proof/Machine/Bus.lean ====
section
/-!
DEFINITION. Sys2Proof/Machine/Bus.lean: accesses to registers and windows (R4, R12, R13, R26, R35, R36, R62, R63, R83 to R85, R140,
R141, R179, R223, R270, R286, R316, R338, R358, R379, R394, R443, R467).
-/
namespace Sys2Proof.Machine

/-- A write of a word to a place that is there (R13, R141, R223): a register by its access type and its block's rules, a memory
word as such. -/
def writeHere (s : State) (src : Src) (a : Nat) (v : Word) : State :=
  let loc := locate a
  if inRegWindow loc || (regSpec loc).isSome then
    match regSpec loc with
    | none => (match writeRight s src loc with | .no => denied s src a | _ => s)
    | some r => writeByRight s src a loc r v
  else (engineWrite s src a (leBytes 4 v.toNat)).1

/-! ### Commands -/

/-- REGISTER_WRITE (R12, R13 and the rules of each block). -/
def execRegisterWrite (src : Src) (addr : Nat) (value : Word) (s : State) : Out :=
  match meets s src addr with
  | .here =>
    if inRegWindow (locate addr) && decide (addr % 4 ≠ 0) then .next (misaligned s src addr)
    else .next (writeHere s src addr value)
  | m => .next (refuse s src addr m)

/-- COUNTER_CLEAR_WRITE (R13, R62, R63, R85, R179, R185): 0 clears an RO counter that has a clearing write; any other value is
ignored. -/
def execCounterClearWrite (src : Src) (addr : Nat) (value : Word) (s : State) : Out :=
  match meets s src addr with
  | .here =>
    match regSpec (locate addr) with
    | some r =>
      if r.counter then
        let right := match locate addr with
          | .block .bru off => if 0x8000 ≤ off then (if isApgil src then Right.yes else .ignored) else apgilOnly src true
          | loc => writeRight s src loc
        match right with
        | .yes => .next (if value = 0 then setWord s addr 0 else s)
        | .no => .next (denied s src addr)
        | .w1cOnly => .next (denied s src addr)
        | .ignored => .next s
      else .next s
    | none => .next s
  | m => .next (refuse s src addr m)

/-- MISALIGNED_REGISTER_ACCESS (R4, R12). -/
def execMisalignedRegisterAccess (src : Src) (addr size : Nat) (_write : Bool) (s : State) : Out :=
  match meets s src addr with
  | .here =>
    if inRegWindow (locate addr) && (decide (addr % 4 ≠ 0) || decide (size ≠ 4)) then .next (misaligned s src addr) else .next s
  | m => .next (refuse s src addr m)

/-- ABSENT_WINDOW_ACCESS (R4, R36). -/
def execAbsentWindowAccess (src : Src) (addr : Nat) (_write : Bool) (s : State) : Out :=
  match meets s src addr with
  | .absent => .next (refuse s src addr .absent)
  | _ => .next s

/-- UNMAPPED_WINDOW_ACCESS (R35, R278, R282). -/
def execUnmappedWindowAccess (src : Src) (addr : Nat) (_write : Bool) (s : State) : Out :=
  match meets s src addr with
  | .unmapped => .next (refuse s src addr .unmapped)
  | .bankOff => .next (refuse s src addr .bankOff)
  | _ => .next s

/-- RESET_ENDPOINT_REQUEST (R26). -/
def execResetEndpointRequest (src : Src) (addr : Nat) (_write : Bool) (s : State) : Out :=
  match meets s src addr with
  | .reset => .next (refuse s src addr .reset)
  | _ => .next s

/-! ### Register pairs (R467) -/

/-- PAIR_LOW_WORD_READ (R140, R306, R467): the high word is latched for the requester alone. -/
def execPairLowWordRead (src : Src) (addr : Nat) (s : State) : Out :=
  match meets s src addr with
  | .here =>
    match pairValue s addr with
    | some v =>
      .next { s with latches := s.latches.filter (fun l => !(decide (l.1 = src) && decide (l.2.1 = addr))) ++
                       [(src, addr, BitVec.ofNat 32 (v / 2 ^ 32))]
                     bus := some { src := src, status := stOK, data := BitVec.ofNat 32 v } }
    | none => .next s
  | m => .next (refuse s src addr m)

/-- PAIR_HIGH_WORD_READ (R467): the requester's latch, 0 before its first read of the low word. -/
def execPairHighWordRead (src : Src) (addr : Nat) (s : State) : Out :=
  match meets s src addr with
  | .here =>
    if 4 ≤ addr && (pairValue s (addr - 4)).isSome then
      .next { s with bus := some { src := src, status := stOK, data :=
        ((s.latches.find? (fun l => decide (l.1 = src) && decide (l.2.1 = addr - 4))).map (fun l => l.2.2)).getD 0 } }
    else .next s
  | m => .next (refuse s src addr m)

end Sys2Proof.Machine
end

