-- ==== Sys2Proof/Machine/Net.lean ====
section
/-!
DEFINITION. Sys2Proof/Machine/Net.lean: received frames and ACP messages, mailbox channels, sessions that end, forwarded requests
(R317 to R321, R328 to R332, R336 to R338, R357, R391, R407).
-/
namespace Sys2Proof.Machine

/-! ### What a request must be (R331 to R334) -/

/-- A row of the table *ACP commands* (R334): first version, whether it names a context (0 no, 1 may, 2 must), required TLVs. -/
structure CmdRow where
  major : Nat
  minor : Nat
  ctx : Nat
  need : List Nat
  deriving DecidableEq, Repr

/-- The commands (R334). -/
def cmdRow (typ : Nat) : Option CmdRow :=
  match typ with
  | 0x01 => some { major := 2, minor := 0, ctx := 0, need := [0x8001] }
  | 0x02 => some { major := 2, minor := 0, ctx := 1, need := [0x8037] }
  | 0x03 => some { major := 2, minor := 0, ctx := 0, need := [0x8060] }
  | 0x04 => some { major := 2, minor := 0, ctx := 0, need := [] }
  | 0x05 => some { major := 3, minor := 0, ctx := 0, need := [0x8040] }
  | 0x10 => some { major := 2, minor := 0, ctx := 0, need := [] }
  | 0x11 => some { major := 2, minor := 0, ctx := 2, need := [] }
  | 0x12 => some { major := 3, minor := 0, ctx := 2, need := [0x8011] }
  | 0x20 => some { major := 2, minor := 0, ctx := 2, need := [0x8020] }
  | 0x21 => some { major := 2, minor := 0, ctx := 2, need := [0x8037] }
  | 0x30 => some { major := 2, minor := 0, ctx := 2, need := [0x8030, 0x8031] }
  | 0x31 => some { major := 2, minor := 0, ctx := 2, need := [0x8037] }
  | 0x32 => some { major := 2, minor := 0, ctx := 2, need := [0x8037] }
  | 0x33 => some { major := 2, minor := 0, ctx := 2, need := [] }
  | 0x34 => some { major := 2, minor := 0, ctx := 2, need := [0x8037] }
  | 0x35 => some { major := 3, minor := 0, ctx := 2, need := [0x8036] }
  | 0x36 => some { major := 2, minor := 0, ctx := 2, need := [0x8037] }
  | 0x37 => some { major := 3, minor := 1, ctx := 2, need := [0x8037] }
  | 0x40 => some { major := 2, minor := 0, ctx := 0, need := [0x8044] }
  | 0x41 => some { major := 2, minor := 0, ctx := 0, need := [0x8020] }
  | 0x42 => some { major := 2, minor := 0, ctx := 0, need := [0x8037] }
  | _ => none

/-- Whether the version of a session carries a command (R333, R334). -/
def versionHas (major minor : Nat) (c : CmdRow) : Bool := decide (c.major < major) || (decide (c.major = major) && decide (c.minor ≤ minor))

/-- Commands of the management-only mode (R332, R400). -/
def mgmtCmd (typ : Nat) : Bool := decide (typ ∈ [0x01, 0x02, 0x05, 0x41])

/-- Whether the device state lets a command in (R395, R400, R407). -/
def stateTakes (s : State) (typ : Nat) : Bool :=
  match s.boot.st with
  | .ready => true
  | .bringup => if s.boot.checked then decide (typ ∈ [0x01, 0x02, 0x05, 0x03, 0x04, 0x40, 0x41, 0x42])
                else decide (typ ∈ [0x01, 0x02, 0x05])
  | .recovery => mgmtCmd typ
  | _ => false

/-- Whether two messages come from one sender: a host has one address, whatever port it reaches the device by (R318). -/
def sameSender : Origin → Origin → Bool
  | .net _ a, .net _ b => decide (a = b)
  | o, q => decide (o = q)

/-- The open session of a sender: a network host by the address its HELLO came from, software by its mailbox channel (R328). -/
def sessionFrom (s : State) (o : Origin) : Option Nat :=
  (sessionList s).find? (fun n => match sessionOf s n with | some x => x.open' && sameSender x.origin o | none => false)

/-- A request dropped and counted (R329, R331). -/
def dropMessage (s : State) : State := { s with host := { s.host with dropped := s.host.dropped + 1 } }

/-- The request in a message whose steps 1 to 3 of R331 passed, its TLVs apart. -/
def reqOf (m : AcpDatagram) (sess : Nat) (tlvs : List (Nat × List Byte)) : AcpReq :=
  { origin := m.origin, sess := sess, major := leAt m.bytes 0 1, minor := leAt m.bytes 1 1, typ := leAt m.bytes 4 2,
    ctx := leAt m.bytes 6 2, seq := leAt m.bytes 8 4, tlvs := tlvs, profile := m.profile, plan := m.plan }

/-- Steps 4 to 6 of R331 for a request of a session (none: no session), with R407: the failing status, check and index. -/
def checkReq (s : State) (x : Option Session) (r : AcpReq) (parsed : Bool) : Option (Nat × Nat × Nat) :=
  match cmdRow r.typ with
  | none => some (stVERSION, 4, r.typ)
  | some c =>
    let versionBad : Bool :=
      if r.typ = 1 then false
      else match x with
        | none => true
        | some y =>
          if y.mgmtOnly then decide (r.major < 2) || !mgmtCmd r.typ
          else decide (r.major ≠ y.major) || decide (r.minor ≠ y.minor) || !versionHas y.major y.minor c ||
            ((tlv r 0x8072).isSome && !versionHas y.major y.minor { major := 3, minor := 2, ctx := 0, need := [] })
    if versionBad then some (stVERSION, 4, 0)
    else if !parsed then some (stCOUNT, 5, 0)
    else match r.tlvs.find? (fun e => decide (0x8000 ≤ e.1) && !knownTlv e.1) with
      | some e => some (stVERSION, 5, e.1)
      | none =>
        match (c.need ++ (if r.typ = 1 then (match r.origin with | .mbox _ => [] | _ => [0x0002]) else [])).find?
            (fun t => (tlv r t).isNone) with
        | some t => some (stCOUNT, 5, t)
        | none =>
          if routedAway s r then none
          else if (if r.ctx = 0xFFFF then decide (c.ctx = 2)
                   else match contextOf s r.ctx with
                     | some k => decide (k.sess ≠ r.sess)
                     | none => true) && decide (r.typ ≠ 1) then some (stCOUNT, 6, r.ctx)
          else if !stateTakes s r.typ then some (stBUSY, 8, 0)
          else none

/-- A session that a request has reached: its time runs anew, and its notices leave by the way the request came (R318, R328). -/
def heard (s : State) (x : Session) (o : Origin) : Session := { x with lastReq := s.clk.up, origin := o }

/-- A request of a session that is neither a repeat nor one too many (R329). -/
def acceptReq (s : State) (n : Nat) (x : Session) (r : AcpReq) (parsed : Bool) : State :=
  let s1 := setSession s n (some { heard s x r.origin with executing := x.executing ++ [r] })
  match checkReq s (some x) r parsed with
  | some (st, chk, i) => failReply s1 r st chk i
  | none => if r.typ = 1 then { s1 with host := { s1.host with hellos := s1.host.hellos ++ [r] } } else s1

/-- A message taken by Apgil (R329, R331). -/
def acpReceive (s : State) (m : AcpDatagram) : State :=
  let n := m.bytes.length
  if n < 16 ∨ 4096 < n ∨ leAt m.bytes 12 4 ≠ n - 16 ∨ leAt m.bytes 2 1 ≠ 0 then dropMessage s
  else
    let p := parseTlvs 1024 (m.bytes.drop 16)
    match sessionFrom s m.origin with
    | none =>
      let r := reqOf m 0xFFFF (p.getD [])
      match checkReq s none r p.isSome with
      | some (st, chk, i) => looseReply s r st chk i
      | none => { s with host := { s.host with hellos := s.host.hellos ++ [r] } }
    | some k =>
      match sessionOf s k with
      | none => s
      | some x =>
        let r := reqOf m k (p.getD [])
        let s1 := setSession s k (some (heard s x m.origin))
        match x.replies.find? (fun e => e.1 = r.seq) with
        | some e => deliverTo s1 m.origin x.major x.minor e.2
        | none =>
          if x.executing.any (fun q => q.seq = r.seq) then s1
          else if 32 ≤ x.executing.length then dropMessage s1
          else acceptReq s k x r p.isSome

/-- The ring a datagram of a network port waits in: 64 slots (R337); a full ring drops it. -/
def ringPut (s : State) (p : Nat) (m : AcpDatagram) : State :=
  let x := mboxOf s p
  if 64 ≤ x.ring.length then dropMessage s else setMbox s p { x with ring := x.ring ++ [m] }

/-- A message that comes while Apgil takes none waits where it came from (R337, R412). -/
def acpHold (s : State) (m : AcpDatagram) : State :=
  match m.origin with
  | .net p _ => ringPut s p m
  | .mbox c => setMbox s c { mboxOf s c with rung := some m }
  | .route _ _ => dropMessage s

/-- ACP_MESSAGE_RECEIVE (R322, R323, R326, R329, R331, R332, R334, R407). -/
def execAcpMessageReceive (m : AcpDatagram) (s : State) : Out :=
  if heldInReset s .mgmt then .next s
  else if apgilPaused s then .next (acpHold s m)
  else .next (acpReceive s m)

/-! ### Network frames (R317 to R321) -/

/-- A frame of a port dropped and counted. -/
def frameDrop (s : State) (p : Nat) (f : NetPort → NetPort) : State := setPort s p (f (portOf s p))

/-- NETWORK_FRAME_RECEIVE (R317, R319, R321): MACsec first, then where the frame belongs. -/
def execNetworkFrameReceive (f : EthFrame) (s : State) : Out :=
  let p := f.port
  let x := portOf s p
  if heldInReset s .network || decide (gradeNets s ≤ p) || decide (p ∈ s.retire.netPorts) || !x.up then .next s
  else if 9018 + (if f.vlan.isSome then 4 else 0) < f.bytes then .next (frameDrop s p (fun y => { y with dropOther := y.dropOther + 1 }))
  else if x.macsec && !f.macsecOk then .next (frameDrop s p (fun y => { y with dropMacsec := y.dropMacsec + 1 }))
  else match f.kind with
    | .acp m =>
      if s.host.acpSecure && !(x.macsec && f.macsecOk) then .next (frameDrop s p (fun y => { y with dropSecure := y.dropSecure + 1 }))
      else if s.power.state = .parked then
        .next (if 16 ≤ s.host.held.length then dropMessage s else { s with host := { s.host with held := s.host.held ++ [m] } })
      else .next (ringPut s p m)
    | .internal => .next s
    | .other =>
      match s.host.filters.find? (fun g => decide (g.mac = f.dstMac) && decide (g.vlan = f.vlan.getD 0)) with
      | some g => .next { s with host := { s.host with rings := tset [] s.host.rings g.ring (tget [] s.host.rings g.ring ++ [f.payload]) } }
      | none => .next (frameDrop s p (fun y => { y with dropOther := y.dropOther + 1 }))

/-- NETWORK_LINK_CHANGE (R317, R446): the link of a port comes up or goes down; its sessions continue on the other ports. -/
def execNetworkLinkChange (port : Nat) (up : Bool) (s : State) : Out :=
  if heldInReset s .network || decide (gradeNets s ≤ port) || decide (port ∈ s.retire.netPorts) then .next s
  else if s.power.state = .parked ∧ up ∧ (List.range 4).any (fun p => p ≠ port ∧ (portOf s p).up) then .next s
  else .next (setPort s port { portOf s port with up := up })

/-! ### Mailbox channels (R338) -/

/-- A write of a channel's doorbell by a source that may make it; Apgil neither claims, rings nor acknowledges. -/
def doorbell (s : State) (src : Src) (c : Nat) (f : State → State) : State :=
  let a := mboxBase c + 0x1000
  match meets s src a with
  | .here => if isApgil src then s else if mboxBound s src c then f s else denied s src a
  | m => refuse s src a m

/-- The error bit of a channel set. -/
def bellError (s : State) (c : Nat) : State := setWbit s (mboxBase c + 0x1004) 3 true

/-- MAILBOX_CLAIM (R338). -/
def execMailboxClaim (src : Src) (chan : Nat) (s : State) : Out :=
  .next (doorbell s src chan (fun s =>
    if (mboxOf s chan).st = .free then setMbox s chan { mboxOf s chan with st := .claimed } else bellError s chan))

/-- The message in a channel's buffer: as many bytes as its header states. -/
def bufferMessage (s : State) (c : Nat) : AcpDatagram :=
  let len := numAt s (mboxBase c + 12) 4
  { origin := .mbox c, macsec := true, bytes := bytesAt s (mboxBase c) (min 4096 (16 + len)), profile := none, plan := none }

/-- MAILBOX_RING (R338): the request stands in the buffer. -/
def execMailboxRing (src : Src) (chan : Nat) (s : State) : Out :=
  .next (doorbell s src chan (fun s =>
    if (mboxOf s chan).st = .claimed then
      setMbox s chan { mboxOf s chan with st := .request, rung := some (bufferMessage s chan) }
    else bellError s chan))

/-- MAILBOX_ACK (R338). -/
def execMailboxAck (src : Src) (chan : Nat) (s : State) : Out :=
  .next (doorbell s src chan (fun s =>
    if (mboxOf s chan).st = .reply ∨ (mboxOf s chan).st = .notice then setMbox s chan { mboxOf s chan with st := .free } else s))

/-- MAILBOX_TAKE (R337, R338): Apgil takes what waits in a channel: the oldest datagram of a network port's ring, or the request
of an application channel, which becomes BUSY. Nothing is taken while Apgil is paused. -/
def execMailboxTake (chan : Nat) (s : State) : Out :=
  if heldInReset s .mgmt || apgilPaused s then .next s
  else
    let x := mboxOf s chan
    if chan < 4 then
      match x.ring with
      | m :: t => .next (acpReceive (setMbox s chan { x with ring := t }) m)
      | [] => .next s
    else match x.st, x.rung with
      | .request, some m => .next (acpReceive (setMbox s chan { x with st := .busy, rung := none }) m)
      | _, _ => .next s

/-- NOTICE_PLACE (R338): the oldest queued notice goes into the buffer of a FREE channel. -/
def execNoticePlace (chan : Nat) (s : State) : Out :=
  if heldInReset s .mgmt || apgilPaused s then .next s
  else
    let x := mboxOf s chan
    match x.st, x.queued with
    | .free, m :: t =>
      let v := match sessionOf s m.sess with | some y => (y.major, y.minor) | none => (3, 2)
      .next (setMbox (store s (mboxBase chan) (msgBytes v.1 v.2 m)) chan { x with st := .notice, queued := t })
    | _, _ => .next s

/-! ### Sessions that end (R328, R336) -/

/-- SESSION_TIMEOUT (R328): no request for the session's timeout; its contexts run on without a session. A session without
contexts leaves nothing behind. -/
def execSessionTimeout (sess : Nat) (s : State) : Out :=
  match sessionOf s sess with
  | some x =>
    if x.open' ∧ x.lastReq + x.timeout * 1000000000 ≤ s.clk.up then
      if (contextList s).any (fun c => match contextOf s c with | some k => decide (k.sess = sess) | none => false) then
        .next (setSession s sess (some { x with open' := false, transfers := [] }))
      else .next (setSession s sess none)
    else .next s
  | none => .next s

/-- TRANSFER_ABANDON (R336): 60 s without a chunk. `transfer` counts the session's open transfers. -/
def execTransferAbandon (sess transfer : Nat) (s : State) : Out :=
  match sessionOf s sess with
  | some x =>
    match x.transfers[transfer]? with
    | some t => if t.last + 60000000000 ≤ s.clk.up then .next (setSession s sess (some (dropTransfer x t.typ t.ctx))) else .next s
    | none => .next s
  | none => .next s

/-! ### Forwarded requests (R357) -/

/-- ACP_ROUTE_FORWARD (R357): a request for another device is relayed when a link leads there, answered TOPOLOGY_MISMATCH when
none does. -/
def execAcpRouteForward (r : AcpReq) (s : State) : Out :=
  match tlv r 0x8072 with
  | none => .next s
  | some v =>
    let target := leAt v 0 2
    if !isNext s r || !routedAway s r then .next s
    else if (routeTo s true target).isSome then
      let s1 := beginReq s r
      .next { s1 with bridge := { s1.bridge with relayed := s1.bridge.relayed ++ [(target, r)] } }
    else .next (failReply s r stTOPOLOGY 8 target)

end Sys2Proof.Machine
end

