-- ==== Sys2Proof/Machine/AcpSess.lean ====
section
/-!
DEFINITION. Sys2Proof/Machine/AcpSess.lean: the commands about the device and its sessions: HELLO, QUERY, SET_CONFIG, TOPOLOGY,
ATTEST (R318 to R320, R326, R328, R330, R332, R335, R339, R345).
-/
namespace Sys2Proof.Machine

/-! ### HELLO (R328, R332) -/

/-- The entries of a VERSIONS TLV: major, lowest and highest minor. -/
def versionEntries (v : List Byte) : List (Nat × Nat × Nat) :=
  (List.range (v.length / 4)).map (fun i => (leAt v (4 * i) 1, leAt v (4 * i + 1) 1, leAt v (4 * i + 2) 1))

/-- The highest minor of a major that both sides speak: the device 0 to `top`. -/
def commonMinor (es : List (Nat × Nat × Nat)) (major top : Nat) : Option Nat :=
  es.foldl (fun o e =>
    if e.1 = major ∧ e.2.1 ≤ min e.2.2 top then
      (match o with | some m => some (max m (min e.2.2 top)) | none => some (min e.2.2 top))
    else o) none

/-- The version chosen (R332). -/
def chooseVersion (es : List (Nat × Nat × Nat)) : Option (Nat × Nat) :=
  match commonMinor es 3 2 with
  | some m => some (3, m)
  | none => (commonMinor es 2 3).map (fun m => (2, m))

/-- Whether an origin is a mailbox channel. -/
def isMbox : Origin → Bool
  | .mbox _ => true | _ => false

/-- The number of the session a HELLO opens or replaces (R328): a mailbox channel's own, the one a HOST_ID holds, else a free
network number; none beyond 32 open network sessions. -/
def helloNumber (s : State) (r : AcpReq) (host : Nat) : Option Nat :=
  match r.origin with
  | .mbox c => some (0x1000 + c)
  | _ =>
    let opened := (sessionList s).filter (fun n => decide (n < 0x1000) && (match sessionOf s n with | some x => x.open' | none => false))
    match (sessionList s).find? (fun n => decide (n < 0x1000) && (match sessionOf s n with | some x => decide (x.hostId = host) | none => false)) with
    | some n => if n ∈ opened ∨ opened.length < 32 then some n else none
    | none => if opened.length < 32 then findBelow (fun n => (sessionOf s n).isNone) 0x1000 else none

/-- Serial, grade and device state as a HELLO reply holds them (log 24). -/
def identityTlv (s : State) : Nat × List Byte :=
  (0x0004, leBytes 16 s.fuses.serial ++ leBytes 1 (gradeCode s) ++ leBytes 1 (devCode s.boot.st))

/-- Notices that waited with the contexts of a session, sent to it, with the count of those lost (R327, R328). -/
def flushContext (s : State) (n c : Nat) : State :=
  match contextOf s c with
  | none => s
  | some x =>
    if x.sess = n then
      let s1 := setContext s c (some { x with notices := [], noticesLost := 0 })
      let s2 := forAll x.notices (fun s m => noticeTo s n m) s1
      if x.noticesLost = 0 then s2
      else noticeTo s2 n (mkNotice s2 0 stOK 14 okCONTEXT c c (leBytes 4 x.noticesLost) [])
    else s

/-- A session opened or replaced by a HELLO; the first one after a boot gets the notices that bring-up queued (R402). -/
def openSession (s : State) (r : AcpReq) (n host timeout : Nat) (v : Option (Nat × Nat)) : State :=
  let old := sessionOf s n
  let ver := v.getD (3, 2)
  let x : Session :=
    { origin := r.origin, hostId := host, major := ver.1, minor := ver.2, mgmtOnly := v.isNone, timeout := timeout,
      lastReq := s.clk.up, open' := true, executing := [{ r with sess := n }],
      noticeSeq := (match old with | some y => y.noticeSeq | none => 0),
      notices := (match old with | some y => y.notices | none => []),
      gates := (match old with | some y => y.gates | none => []) }
  let s1 := setSession s n (some x)
  let versions := match v with
    | some w => leBytes 1 w.1 ++ leBytes 1 w.2 ++ leBytes 1 w.2 ++ leBytes 1 0
    | none => leBytes 4 0x00020003 ++ leBytes 4 0x00030002
  let s2 := answer s1 n r.seq r.typ r.ctx (if v.isSome then stOK else stVERSION)
    (routeTlv r ++ [(0x8001, versions), (0x0003, leBytes 4 n), identityTlv s])
  let s3 := forAll (contextList s2) (fun s c => flushContext s n c) s2
  forAll s3.boot.queuedNotices (fun s m => noticeTo s n m) { s3 with boot := { s3.boot with queuedNotices := [] } }

/-- HELLO (R328, R332): judged by its VERSIONS alone. -/
def execHello (r : AcpReq) (s : State) : Out :=
  if r ∈ s.host.hellos ∧ (unanswered s r = true → isNext s r = true) then
    let s1 := { s with host := { s.host with hellos := s.host.hellos.filter (fun q => q ≠ r) } }
    let host := match tlv r 0x0002 with | some v => leAt v 0 4 | none => 0
    let timeout := match tlv r 0x0003 with | some v => leAt v 0 4 | none => 30
    let bad (st chk i : Nat) : State := if r.sess = 0xFFFF then looseReply s1 r st chk i else failReply s1 r st chk i
    if timeout = 0 ∨ 3600 < timeout then .next (bad stCOUNT 8 0x0003)
    else match helloNumber s1 r host with
      | none => .next (bad stCOUNT 8 host)
      | some n =>
        let s1 := match sessionOf s1 r.sess with
          | some y => if r.sess = n then s1 else setSession s1 r.sess (some { y with open' := false, executing := [], transfers := [] })
          | none => s1
        .next (openSession s1 r n host timeout (chooseVersion (versionEntries ((tlv r 0x8001).getD []))))
  else .next s

/-! ### QUERY (R90, R326, R330, R334) -/

/-- Kept notices from a number on, as many as a reply holds. -/
def noticesFrom (x : Session) (from' : Nat) : List (Nat × List Byte) :=
  ((x.notices.filter (fun m => decide ((m.seq + 2 ^ 32 - from') % 2 ^ 32 < 2 ^ 31))).take 32).flatMap (fun m => (0x0003, leBytes 4 m.seq) :: m.tlvs.take 1)

/-- The values of a stream's bank (R62): its banked registers in the order of their offsets (log 24). -/
def bankValues (s : State) (x : Stream) : List Byte :=
  let p := dPort x
  let status := word s (bankKey p x.bank 4) ||| BitVec.ofNat 32 (b2n (bankOf s p x.bank).frame.isSome * 2 +
    (bankOf s p x.bank).lastSeq % 2 ^ 16 * 2 ^ 16)
  leBytes 4 (inWord s p x.bank 0).toNat ++ leBytes 4 status.toNat ++
    [0x10, 0x14, 0x18, 0x1C, 0x20, 0x24, 0x2C, 0x34].flatMap (fun o => leBytes 4 (inWord s p x.bank o).toNat)

/-- The settings sets a stream keeps: identifier, status, target (R56, R59; log 69). -/
def setValues (x : Stream) : List Byte := x.sets.flatMap (fun j => leBytes 2 j.ident ++ leBytes 2 j.status ++ leBytes 4 j.target)

/-- A map of engines as bytes, bit n for engine n. -/
def bitMap (n : Nat) (f : Nat → Bool) : List Byte :=
  (List.range n).map (fun i => BitVec.ofNat 8 (((List.range 8).map (fun b => if f (8 * i + b) then 2 ^ b else 0)).sum))

/-- The values of the registers listed among `n` words from an address on; those of a 64-bit pair are its counter's. -/
def regValues (s : State) (a n : Nat) : List Byte :=
  (List.range n).flatMap (fun i =>
    let b := a + 4 * i
    if (regSpec (locate b)).isNone then []
    else match pairValue s b with
    | some v => leBytes 4 v
    | none => (match (if 4 ≤ b then pairValue s (b - 4) else none) with | some v => leBytes 4 (v / 2 ^ 32) | none => leBytes 4 (regView s b).toNat))

/-- The registers of an engine, by its object index: first address and number (R62, R88, R140, R179, R185, R224, R266, R344). -/
def engineRegs (i : Nat) : Option (Nat × Nat) :=
  if i < 72 then some (gtReg i 0, 0x62)
  else if i < 80 then some (ecReg (i - 72) 0, 0x50)
  else if i < 208 then some (dmReg (i - 80) 0, 0x14)
  else if i < 272 then some (bruBase + 0x100 + 4 * (i - 208), 1)
  else if i < 288 then some (intakeBase (i - 272), 0x81)
  else if 0x10000 ≤ i ∧ i < 0x10004 then some (frontBase + 0x2000 + 4 * (i - 0x10000), 1)
  else if 0x10010 ≤ i ∧ i < 0x10012 then some (frontBase + 0x6000 + 4 * (i - 0x10010), 1)
  else if i = 0x10020 then some (frontBase + 0x7000, 1)
  else if 0x10030 ≤ i ∧ i < 0x10032 then some (bruBase + 0x8000, 8)
  else if 0x10080 ≤ i ∧ i < 0x10084 then some (bridgeBase + 0x100 * (i - 0x10080), 8)
  else none

/-- What QUERY returns of an engine: its registers, or a network port's counters of dropped frames (R318, R320). -/
def engineData (s : State) (i : Nat) : Option (List Byte) :=
  if 0x10040 ≤ i ∧ i < 0x10044 then
    let p := portOf s (i - 0x10040)
    some (leBytes 4 p.dropMacsec ++ leBytes 4 p.dropOther ++ leBytes 4 p.dropSecure)
  else (engineRegs i).map (fun e => regValues s e.1 e.2)

/-- The state of a granule in one byte. -/
def granCode : GranState → Nat
  | .clean => 0 | .owned => 1 | .dirty => 2 | .scrubbing => 3 | .off => 4

/-- The number of a boot reason (R444). -/
def bootCode : BootReason → Nat
  | .resetN => 0 | .powerCut => 1 | .watchdogs => 2 | .bootWatchdog => 3 | .reference => 4

/-- State and owner of granules, two bytes each. -/
def granValues (s : State) (gs : List Nat) : List Byte :=
  gs.flatMap (fun g => leBytes 1 (granCode (granOf s g).st) ++ leBytes 1 ((granOf s g).owner.getD 0xFF))

/-- What QUERY returns beside the OBJECT (log 24): the device's identity, present tiles, boot reason and overhead; a Stroke descriptor's
words with the values of the stream's bank and its settings sets; a job's energy; k of each variant of a package; registers of an engine,
a partition, a link or a window; a context's energy; states of granules; an event's counter; kept notices. What the spec lays out nothing
for (the calibration figures) is an open value. -/
def queryData (s : State) (r : AcpReq) (kind i : Nat) : List (Nat × List Byte) × State :=
  let bytes (b : List Byte) : List (Nat × List Byte) × State := ([(0x0038, b)], s)
  let open' : List (Nat × List Byte) × State := ([(0x0038, Config.queryBytes kind i s.free)], { s with free := s.free + 1 })
  match kind with
  | 0x0000 =>
    let only := match sessionOf s r.sess with | some x => x.mgmtOnly | none => false
    (identityTlv s :: (if only then [] else
      [(0x0038, bitMap 9 (tilePresent s) ++ leBytes 1 (bootCode s.boot.reason) ++ leBytes 8 s.power.overhead)]), s)
  | 0x0002 => (match jobOf s i with
      | some j => [(0x0038, leBytes 1 (match j.st with | .held => 0 | .placed => 1 | .running => 2 | .ended => 3) ++ jobEnergy j)]
      | none => [], s)
  | 0x0003 => (match packageOf s i with
      | some p => [(0x0038, (List.range p.content.variants.length).flatMap (fun v => leBytes 4 (variantK p v)))]
      | none => [], s)
  | 0x0004 => (match engineData s i with | some b => bytes b | none => open')
  | 0x000B => (match engineData s i with | some b => bytes b | none => open')
  | 0x0005 => bytes (regValues s (powerBase + 0x100 + 4 * i) 1)
  | 0x0006 => bytes (energyState s i)
  | 0x0007 => bytes (regValues s (bridgeBase + 0x100 * i) 8)
  | 0x0008 => bytes (regValues s (winReg i 0) 8)
  | 0x0009 => bytes (granValues s (if i < 72 then tileGranules i else if i < 80 then coreGranules (i - 72) else [8192 + (i - 0x10100)]))
  | 0x0010 => bytes (leBytes 4 (tget 0 s.fc.counts (codeIndex i)))
  | 0x0001 => (match streamOf s i with
      | some x => [(0x0038, x.desc.flatMap (fun w => leBytes 4 w.toNat) ++ bankValues s x ++ setValues x)]
      | none => [], s)
  | 0x000C => (match sessionOf s r.sess with | some x => noticesFrom x i | none => [], s)
  | _ => open'

/-- QUERY: an object's state. The management-only mode returns the device's identity alone (R332). -/
def execQuery (r : AcpReq) (s : State) : Out :=
  executing s r (fun s =>
    let o := (objectOf r).getD (0, 0)
    let only := match sessionOf s r.sess with | some x => x.mgmtOnly | none => false
    if only && decide (o.1 ≠ 0) then failReply s r stVERSION 4 o.1
    else match objectStatus s r o.1 o.2 with
      | some st => failObject s r st o.2
      | none =>
        let d := queryData s r o.1 o.2
        okReply d.2 r (objectTlv o.1 o.2 :: d.1))

/-! ### SET_CONFIG (R335) -/

/-- Keys and values of a request's CONFIG TLVs. -/
def configKeys (r : AcpReq) : List (Nat × List Byte) := (tlvAll r 0x8060).map (fun v => (leAt v 0 2, slice v 4 (leAt v 2 2)))

/-- The SHM mode of a code (R278). -/
def shmModeOf (c : Nat) : ShmMode := if c = 0 then .scratch else if c = 1 then .cacheApp else if c = 2 then .cacheEng else .cacheAll

/-- Whether a bank of a slice is granted (R281). -/
def sliceGranted (s : State) (n : Nat) : Bool := (sliceGranules n).any (fun g => (granOf s g).st = .owned)

/-- The status of the first network port named by a key that is absent or retired (R4, R5): step 7 of R331, before the key's own checks. -/
def configEngine (s : State) (k : Nat) (v : List Byte) : Option Nat :=
  let ports : List Nat :=
    if k = 3 ∧ leAt v 0 1 < 4 then [leAt v 0 1] else if k = 4 then (List.range 4).filter (fun i => (leAt v 0 1).testBit i) else []
  ports.findSome? (fun i => engineStatus s (0x10040 + i))

/-- The status with which a key of SET_CONFIG fails (R335, R320, R383). The byte layouts of keys 1 to 4 are the model's (log 24). -/
def configStatus (s : State) (k : Nat) (v : List Byte) : Option Nat :=
  let must (b : Bool) : Option Nat := if b then none else some stCOUNT
  match k with
  | 0x0001 => must (decide (v.length = 20))
  | 0x0002 => must (decide (v.length = 1))
  | 0x0003 => must (decide (4 ≤ v.length) && decide (leAt v 0 1 < 4) && decide (leAt v 1 1 < 2) && decide (leAt v 2 1 < 4) &&
      decide (v.length = 4 + (if leAt v 2 1 % 2 = 0 then 16 else 32)))
  | 0x0004 => must (decide (v.length = 3) && decide (leAt v 0 1 < 16) && decide (leAt v 1 1 < 128))
  | 0x0005 =>
    if v.length ≠ 16 ∨ (List.range 16).any (fun i => decide (3 < leAt v i 1)) then some stCOUNT
    else if (List.range 16).any (fun i => decide (shmModeOf (leAt v i 1) ≠ (shmOf s i).mode) && sliceGranted s i) then some stBUSY
    else none
  | 0x0006 => must (decide (v.length = 68))
  | 0x0007 => must (decide (v.length = 8) && decide (leAt v 0 4 ≤ 1000) && decide (1 ≤ leAt v 4 1) && decide (leAt v 4 1 ≤ 16) &&
      decide (leAt v 5 1 < 2) && decide (leAt v 6 2 = 0))
  | _ => some stCOUNT

/-- The identifiers of the plan-signing keys once a request's keys are registered, each in its place: a new identifier takes the next one
(R335). -/
def keyPlaces (s : State) (keys : List (Nat × List Byte)) : List Nat :=
  (s.host.planKeys.map (fun e => e.1) ++ (keys.filter (fun e => e.1 = 6)).map (fun e => leAt e.2 0 4)).eraseDups

/-- The flash record of a key that is kept (R335, R424), the plan-signing keys' places given. -/
def configRec (places : List Nat) (k : Nat) (v : List Byte) : Option FlashRec :=
  match k with
  | 0x0005 => none
  | 0x0006 => some (flashRec 0x0005 ((places.findIdx? (fun e => e = leAt v 0 4)).getD 0) v)
  | 0x0003 => some (flashRec 0x0004 (3 + 256 * leAt v 0 1) v)
  | _ => some (flashRec 0x0004 k v)

/-- A list cut into transactions of up to 8 records, the last one carrying the reply (R421). -/
def queueRecs : Nat → State → List FlashRec → Option (Nat × Nat × Nat × Nat) → State
  | 0, s, _, _ => s
  | fuel + 1, s, l, reply =>
    if l.length ≤ 8 then flashQueue s l reply else queueRecs fuel (flashQueue s (l.take 8) none) (l.drop 8) reply

/-- A new SHM layout (R281, R335). -/
def setLayout (s : State) (v : List Byte) : State :=
  forAll (List.range 16) (fun s i =>
    let m := shmModeOf (leAt v i 1)
    if m = (shmOf s i).mode then s else setShm s i { shmOf s i with target := some m }) s

/-- SET_CONFIG (R335, R337): all keys or none; the reply waits for the commit of the keys that flash keeps (R421). -/
def execSetConfig (r : AcpReq) (s : State) : Out :=
  deviceWide s r (fun s =>
    let keys := configKeys r
    match ((keys.findSome? (fun e => (configEngine s e.1 e.2).map (fun st => (st, e.1)))).orElse
        (fun _ => keys.findSome? (fun e => (configStatus s e.1 e.2).map (fun st => (st, e.1))))).orElse
        (fun _ => if 16 < (keyPlaces s keys).length then some (stCOUNT, 6) else none) with
    | some (st, k) => failObject s r st k
    | none =>
      let s1 := forAll (keys.filter (fun e => e.1 = 5)) (fun s e => setLayout s e.2) s
      match keys.filterMap (fun e => configRec (keyPlaces s keys) e.1 e.2) with
      | [] => okReply s1 r []
      | l => queueRecs l.length s1 l (some (r.sess, r.seq, r.typ, r.ctx)))

/-! ### TOPOLOGY (R345) -/

/-- The bytes of an expected topology record. -/
def topoBytes (t : TopoRec) : List Byte :=
  let body := leBytes 2 1 ++ leBytes 2 t.device ++ leBytes 4 t.system ++ leBytes 2 t.master ++ leBytes 1 (b2n t.takeTime) ++ leBytes 1 0 ++
    leBytes 4 t.seq ++ (t.links.flatMap (fun l => leBytes 1 l.1 ++ leBytes 1 (b2n l.2.1) ++ leBytes 2 l.2.2.1 ++ leBytes 1 l.2.2.2 ++ leBytes 3 0))
  body ++ leBytes 4 (crc32c body).toNat

/-- The record in 52 bytes. -/
def topoOf (v : List Byte) : TopoRec :=
  { device := leAt v 2 2 % 2 ^ 14, system := leAt v 4 4, master := leAt v 8 2 % 2 ^ 14, takeTime := decide (leAt v 10 1 % 2 = 1),
    seq := leAt v 12 4,
    links := (List.range 4).map (fun k => (leAt v (16 + 8 * k) 1, decide (leAt v (17 + 8 * k) 1 % 2 = 1), leAt v (18 + 8 * k) 2 % 2 ^ 14,
      leAt v (20 + 8 * k) 1)) }

/-- The status with which a TOPOLOGY write fails (R345). -/
def topoStatus (s : State) (v : List Byte) : Option (Nat × Nat) :=
  let wants (k : Nat) : Bool := decide (leAt v (16 + 8 * k) 1 ≠ 0)
  if v.length ≠ 52 ∨ leAt v 0 2 ≠ 1 ∨ (List.range 4).any (fun k => decide (4 < leAt v (16 + 8 * k) 1)) then some (stCOUNT, 0)
  else if (crc32c (v.take 48)).toNat ≠ leAt v 48 4 then some (stCHECK, 48)
  else match (List.range 4).find? (fun k => wants k && decide (gradeLinks s ≤ k)) with
    | some k => some (stABSENT, k)
    | none =>
      match (List.range 4).find? (fun k => wants k && !licensed s 1) with
      | some k => some (stUNLICENSED, k)
      | none => none

/-- TOPOLOGY (R337, R345): a write carries the record, a read none; the newest record is returned. -/
def execTopology (r : AcpReq) (s : State) : Out :=
  match tlv r 0x8073 with
  | some v => deviceWide s r (fun s =>
      match topoStatus s v with
      | some (st, i) => failObject s r st i
      | none => flashQueue s [flashRec 0x0003 0 v] (some (r.sess, r.seq, r.typ, r.ctx)))
  | none => executing s r (fun s =>
      okReply s r (match (match s.bridge.written with | some t => some t | none => s.bridge.record) with
        | some t => [(0x8073, topoBytes t)]
        | none => []))

/-! ### ATTEST (R339) -/

/-- Spare tiles free (R406). -/
def sparesFree (s : State) : Nat := ((List.range 72).filter (fun n => isSpare s n && decide (tileCtx s n = none))).length

/-- Bytes 0 to 255 of the attestation report. -/
def reportBody (s : State) (major minor : Nat) (nonce : List Byte) : List Byte :=
  leBytes 2 1 ++ leBytes 1 (gradeCode s) ++ leBytes 1 0xB0 ++ leBytes 16 s.fuses.serial ++ leBytes 2 (deviceId s) ++
  leBytes 1 major ++ leBytes 1 minor ++ (padTo 32 nonce).take 32 ++ leBytes 8 s.clk.now ++
  beBytes 32 (match s.boot.image with | some i => i.digest | none => 0) ++
  beBytes 32 (match s.boot.flashImage with | some i => i.digest | none => 0) ++ beBytes 32 s.smi.fwDigest ++
  leBytes 4 (antiRollback s) ++ leBytes 4 s.smi.event ++ leBytes 4 (features s % 32) ++ leBytes 1 (b2n s.smi.sealed) ++
  bitMap 9 (tileRetired s) ++ bitMap 1 (coreRetired s) ++ leBytes 1 (sparesFree s) ++ List.replicate 72 0

/-- The attestation report of 320 bytes, signed with the device identity key (role 0). -/
def report (s : State) (major minor : Nat) (nonce : List Byte) : List Byte :=
  let body := reportBody s major minor nonce
  body ++ (padTo 64 (Config.signature 0 (sha256 body))).take 64

/-- The CERTIFICATES value: the device's and the intermediate's, each after its length. -/
def certificates : List Byte :=
  [0, 1].flatMap (fun r => leBytes 2 (Config.certificate r).length ++ Config.certificate r)

/-- ATTEST (R339). -/
def execAttest (r : AcpReq) (s : State) : Out :=
  executing s r (fun s =>
    if badLen r 0x8040 32 then failReply s r stCOUNT 5 0x8040
    else
      let v := match sessionOf s r.sess with | some x => (x.major, x.minor) | none => (3, 2)
      okReply s r [(0x0041, report s v.1 v.2 ((tlv r 0x8040).getD [])), (0x0042, certificates)])

end Sys2Proof.Machine
end

