-- ==== Sys2Proof/Machine/AcpCtx.lean ====
section
/-!
DEFINITION. Sys2Proof/Machine/AcpCtx.lean: the commands about contexts and the objects they own that need no plan: OPEN_CONTEXT,
CLOSE_CONTEXT, SET_ENERGY_BUDGET, UNLOAD_PACKAGE, STOP, CANCEL, DESTROY_STREAM, SNAPSHOT (R59, R62, R111, R112, R188, R287, R291,
R295, R334, R337, R353, R382, R383).
-/
namespace Sys2Proof.Machine

/-! ### Contexts -/

/-- The budget register of a context written: mJ per window and cap (R394). -/
def setBudget (s : State) (c budget cap : Nat) : State :=
  setWord s (budgetReg c) (BitVec.ofNat 32 (budget % 1024 + (cap - 1) % 16 * 2 ^ 16))

/-- OPEN_CONTEXT (R291, R334, R382, R410): the lowest free context opens with its default budget, its balance at cap × budget and
one translation context and one flag group of its own (logs 26, 27). -/
def execOpenContext (r : AcpReq) (s : State) : Out :=
  executing s r (fun s =>
    let v := (tlv r 0x8010).getD []
    let hold := if v = [] then 0 else leAt v 2 2
    if badLen r 0x8010 4 then failReply s r stCOUNT 5 0x8010
    else if 10000 < hold then failReply s r stCOUNT 8 2
    else match findBelow (fun c => (contextOf s c).isNone) 64 with
      | none => failReply s r stCOUNT 8 64
      | some c =>
        match openXlate s c c with
        | none => failReply s r stCOUNT 8 c
        | some s1 =>
          let k : Context :=
            { sess := r.sess, consent := decide (leAt v 0 1 % 2 = 1), holdMs := hold, variants := s.host.defVariants,
              balance := ((s.host.defCap * s.host.defBudget * 1000 : Nat) : Int), dbg := licensed s 4 }
          answer (openGroup (setContext (setBudget s1 c s.host.defBudget s.host.defCap) c (some k)) c) r.sess r.seq r.typ c stOK
            (routeTlv r ++ [objectTlv okCONTEXT c]))

/-- A stream freed: its bank, its packet map, its tiles and their granules, its shared-memory banks and its request lines go back
(R62, R255, R334). -/
def freeStream (s : State) (n : Nat) : State :=
  match streamOf s n with
  | none => s
  | some x =>
    let p := dPort x
    let s1 := setWord s (bankKey p x.bank 0x34) 0
    let s2 := forAll (List.range 16) (fun s k =>
      if wbit s (intakeBase p + 0x40 + 4 * k) 0 && decide (wfld s (intakeBase p + 0x40 + 4 * k) 19 15 = n) then
        setWord s (intakeBase p + 0x40 + 4 * k) 0 else s) s1
    let s3 := setBank s2 p x.bank {}
    let s4 := if (List.range 16).any (fun k => bitOf (inWord s3 p k 0x34) 7) then s3 else setWbit s3 (intakeBase p) 0 false
    let s5 := releaseAll (withdrawGrants s4 (strokeGranules x) x.ctx) (strokeGranules x) (.ended false)
    let s6 := forAll (strokeTiles x) unbindTile (closeExports (unmapRing s5 x) (1, n))
    let s7 := { s6 with plPend := tset none s6.plPend n none, clPend := tset none s6.clPend n none,
                        plLatch := tset [] s6.plLatch n [], clLatch := tset [] s6.clLatch n [] }
    setStream (withdrawWait s7 (1072 + n)) n none

/-- The exports of a context end (R353): from this tick their windows take no access. -/
def endExports (s : State) (c : Nat) : State :=
  { s with bridge := { s.bridge with exports := s.bridge.exports.map (fun e =>
      if e.ctx = c ∧ e.closedAt = none then { e with closedAt := some s.clk.up } else e) } }

/-- Windows and imports of a context given up at the sender. -/
def endImports (s : State) (c : Nat) : State :=
  let s1 := { s with bridge := { s.bridge with imports := s.bridge.imports.filter (fun i => i.ctx ≠ c) } }
  forAll (List.range 256) (fun s w =>
    if (windowOf s w).st ≠ .closed ∧ (windowOf s w).ctx = c then setWindow (clearRegs s (winReg w 0) 0x20) w {} else s) s1

/-- Flag groups a context owns or shares given back (R295). -/
def freeGroups (s : State) (c : Nat) : State :=
  forAll (List.range 1024) (fun s g =>
    let x := groupOf s g
    if x.owner = some c then setGroup s g {} else if c ∈ x.sharers then setGroup s g { x with sharers := x.sharers.filter (fun k => k ≠ c) } else s) s

/-- A context closed (R334, R363): all its work is cancelled, what it holds is released. -/
def closeContextOp (s : State) (c : Nat) : State :=
  let s1 := cancelContext s c stCANCELLED 0
  let s2 := forAll (streamList s1) (fun s n => match streamOf s n with
    | some x => if x.ctx = c then freeStream s n else s
    | none => s) s1
  let s3 := dropHolds (releaseAll s2 (ownedBy s2 c) .killed) c
  let s4 := endImports (endExports (freeGroups s3 c) c) c
  let s5 := freePages (store s4 (xlateEntry s4 c) (List.replicate 16 0)) c
  let s6 := if wbit s5 (smReg 0x10) 6 && decide (wfld s5 (smReg 0x10) 5 0 = c) then setWord s5 (smReg 0x10) 0 else s5
  setContext (setWord s6 (budgetReg c) (keyReset (budgetReg c))) c none

/-- CLOSE_CONTEXT (R287, R295, R334, R353). -/
def execCloseContext (r : AcpReq) (s : State) : Out :=
  executing s r (fun s => okReply (closeContextOp s r.ctx) r [])

/-- SET_ENERGY_BUDGET (R383): pending until the next window start. -/
def execSetEnergyBudget (r : AcpReq) (s : State) : Out :=
  executing s r (fun s =>
    let v := (tlv r 0x8011).getD []
    match contextOf s r.ctx with
    | none => failReply s r stCOUNT 6 r.ctx
    | some c =>
      if v.length ≠ 8 ∨ 1000 < leAt v 0 4 ∨ leAt v 4 1 = 0 ∨ 16 < leAt v 4 1 ∨ 1 < leAt v 5 1 ∨ leAt v 6 2 ≠ 0 then failReply s r stCOUNT 8 0
      else if leAt v 0 4 < c.reserved then failReply s r stCOUNT 8 0
      else
        let s1 := setContext s r.ctx (some { c with pendingBudget := some (leAt v 0 4, leAt v 4 1, decide (leAt v 5 1 = 1)), explicit := true })
        okReply s1 r [(0x0013, energyState s1 r.ctx)])

/-! ### Packages and streams -/

/-- Whether a Stroke or job uses a package (R188). -/
def planUsed (s : State) (ident : Nat) : Bool :=
  (streamList s).any (fun n => match streamOf s n with | some x => decide (dPlan x = ident) && decide (x.phase ≠ .ended) | none => false) ||
    (jobList s).any (fun j => match jobOf s j with | some x => decide (x.plan = ident) | none => false)

/-- A command on an object of one kind: the checks of R326, then its effect on the object's index. -/
def onObject (s : State) (r : AcpReq) (kind : Nat) (f : State → Nat → State) : Out :=
  executing s r (fun s =>
    match objectOf r with
    | none => failReply s r stCOUNT 5 0x8037
    | some o =>
      if o.1 ≠ kind then failReply s r stCOUNT 8 o.1
      else match objectStatus s r o.1 o.2 with
        | some st => failObject s r st o.2
        | none => f s o.2)

/-- UNLOAD_PACKAGE (R188). -/
def execUnloadPackage (r : AcpReq) (s : State) : Out :=
  onObject s r 3 (fun s ident =>
    if planUsed s ident then failReply s r stBUSY 8 ident
    else
      let s1 := match packageOf s ident with | some p => dropShares s p | none => s
      okReply { s1 with host := { s1.host with packages := s1.host.packages.filter (fun p => p.ident ≠ ident) } } r [])

/-- A Stroke begins to stop (R111): the frame in arrival ends as cancelled, sets not written are given up (R59). -/
def beginStop (s : State) (n : Nat) (x : Stream) (reply : Nat × Nat) : State :=
  let s1 := cancelFrame s (dPort x) x.bank
  updStream s1 n (fun y => cancelSets { y with
    phase := .stopping, stopReq := y.stopReq ++ [reply], stopAt := if y.phase = .stopping then y.stopAt else s.clk.now })

/-- STOP (R111, R337): the reply follows the Stroke end record; a Stroke found cancelled is answered so. -/
def execStop (r : AcpReq) (s : State) : Out :=
  onObject s r 1 (fun s n =>
    match streamOf s n with
    | none => failReply s r stCOUNT 8 n
    | some x =>
      if carries x then beginStop s n x (r.sess, r.seq)
      else if x.phase = .ended then (if x.cut then failReply s r stCANCELLED 8 x.lastRec else okReply s r [])
      else failReply s r stCOUNT 8 n)

/-- CANCEL (R112, R334, R337, R386): one Stroke, one job, or the whole context. -/
def execCancel (r : AcpReq) (s : State) : Out :=
  executing s r (fun s =>
    match objectOf r with
    | none => failReply (cancelContext s r.ctx stCANCELLED 0) r stCANCELLED 8 0
    | some o =>
      if o.1 ≠ 1 ∧ o.1 ≠ 2 then failReply s r stCOUNT 8 o.1
      else match objectStatus s r o.1 o.2 with
        | some st => failObject s r st o.2
        | none =>
          if o.1 = 1 then
            match streamOf s o.2 with
            | some x => if carries x then failReply (cancelStream s o.2 stCANCELLED 0) r stCANCELLED 8 x.lastRec else okReply s r []
            | none => s
          else failReply (cancelJob s o.2 stCANCELLED) r stCANCELLED 8 0)

/-- DESTROY_STREAM (R62, R334). -/
def execDestroyStream (r : AcpReq) (s : State) : Out :=
  onObject s r 1 (fun s n =>
    match streamOf s n with
    | none => failReply s r stCOUNT 8 n
    | some x => if carries x then failReply s r stBUSY 8 n else okReply (freeStream s n) r [])

/-! ### Snapshots (R291) -/

/-- The granules an object of kind 9 names. -/
def objectGranules (i : Nat) : List Nat :=
  if i < 72 then tileGranules i else if i < 80 then coreGranules (i - 72) else if 0x10100 ≤ i ∧ i < 0x10200 then [8192 + (i - 0x10100)] else []

/-- Whether a granule is held for a snapshot of a context. -/
def snapHeld (s : State) (c g : Nat) : Bool :=
  match (granOf s g).hold with | some (.snapshot d _) => decide (d = c) | _ => false

/-- SNAPSHOT (R6, R291, R334): the held granules of the object, one after the other, are copied into a buffer of the context; the
buffer travels as TLV 0x8074: I/O address, translation context (log 24). -/
def execSnapshot (r : AcpReq) (s : State) : Out :=
  onObject s r 9 (fun s i =>
    let v := (tlv r 0x8074).getD []
    let held := (objectGranules i).filter (snapHeld s r.ctx)
    if !licensed s 4 then failReply s r stUNLICENSED 7 i
    else if v.length ≠ 12 ∨ xlateIs s (leAt v 8 1) r.ctx = false then failReply s r stCOUNT 8 0x8074
    else if held = [] then failReply s r stCANCELLED 8 i
    else
      let data := held.flatMap (fun g => bytesAt s (granuleRange g).1 (granuleRange g).2)
      match xlateStore s (.mgmt 0) (leAt v 8 1) (leAt v 0 8) data with
      | some s1 => okReply s1 r [objectTlv okGRANULES i]
      | none => failReply s r stSMALL 8 i)

end Sys2Proof.Machine
end

