-- ==== Sys2Proof/Machine/Loader.lean ====
section
/-!
DEFINITION. Sys2Proof/Machine/Loader.lean: the checks of a plan package and its programs (R116, R119, R121, R124, R126, R141, R144, R148,
R156, R158, R159, R165 to R167, R186 to R190, R196, R197, R213, R217, R249 to R254, R260, R468).
-/
namespace Sys2Proof.Machine

/-- A failed check: status, number under R331, index. -/
abbrev Failed := Option (Nat × Nat × Nat)

/-- The first failure of a list of checks. -/
def firstOf (l : List Failed) : Failed := l.findSome? id

/-- The first failing check of the lowest step of R331: TLVs (5), context (6), engine and feature (7), the command's own (8 and beyond). -/
def byStep (l : List Failed) : Failed :=
  let of (k : Nat) : Failed := l.findSome? (fun c => c.filter (fun e => decide (e.2.1 = k)))
  firstOf [of 5, of 6, of 7, firstOf l]

/-- A check by its condition for failure. -/
def failIf (b : Bool) (status check index : Nat) : Failed := if b then some (status, check, index) else none

/-! ### Package bytes (R186 to R188) -/

/-- A section: type, offset, length, checkword. -/
structure Section' where
  typ : Nat
  off : Nat
  len : Nat
  crc : Nat
  deriving DecidableEq, Repr

/-- The sections a package's table lists. -/
def sectionsOf (b : List Byte) : List Section' :=
  (List.range (leAt b 6 2)).map (fun i =>
    let o := 64 + 16 * i
    { typ := leAt b o 2, off := leAt b (o + 4) 4, len := leAt b (o + 8) 4, crc := leAt b (o + 12) 4 })

/-- Check 1, Version. -/
def chkVersion (b : List Byte) : Failed :=
  failIf (decide (leAt b 0 4 ≠ 0x50535A34) || (decide (leAt b 4 1 ≠ 4) && decide (leAt b 4 1 ≠ 3))) stVERSION 0x201 0

/-- Check 2, Signature. -/
def chkSignature (s : State) (b : List Byte) : Failed :=
  let secs := sectionsOf b
  let bad := match secs.filter (fun x => x.typ = 0xFF) with
    | [g] =>
      decide (g.len ≠ 64) || decide (g.off + 64 ≠ leAt b 8 8) || secs.any (fun x => decide (g.off < x.off)) ||
        (match s.host.planKeys.find? (fun e => e.1 = leAt b 28 4) with
         | some e => !ecdsaVerify e.2 (slice b g.off 64) (sha256 (b.take g.off))
         | none => true)
    | _ => true
  failIf bad stSIGN 0x202 0

/-- Whether two sections overlap. -/
def secOverlap (x y : Section') : Bool := decide (x.off < y.off + y.len) && decide (y.off < x.off + x.len)

/-- Check 3, Section checkwords. -/
def chkSections (b : List Byte) : Failed :=
  let secs := sectionsOf b
  let size := leAt b 8 8
  let bad (x : Section' × Nat) : Bool :=
    decide (x.1.off % 64 ≠ 0) || decide (size < x.1.off + x.1.len) ||
      (decide (x.1.typ ≠ 0xFF) && decide ((crc32c (slice b x.1.off x.1.len)).toNat ≠ x.1.crc)) ||
      (secs.zipIdx).any (fun y => decide (x.2 < y.2) && secOverlap x.1 y.1)
  match (secs.zipIdx).find? bad with
  | some x => some (stCHECK, 0x203, x.2)
  | none => none

/-- Check 4, Required sections (R187): those of the table but 0x0006 to 0x0009, no type twice, an energy entry for each variant. -/
def chkRequired (b : List Byte) (c : PlanContent) : Failed :=
  let ts := (sectionsOf b).map (fun x => x.typ)
  match [1, 2, 3, 4, 5, 0xFF].find? (fun t => !decide (t ∈ ts)) with
  | some t => some (stCOUNT, 0x204, t)
  | none => failIf (decide (ts.eraseDups ≠ ts) || decide (leAt b 6 2 < 2) || decide (64 < leAt b 6 2) || c.variants.any (fun v => !v.energy))
      stCOUNT 0x204 0

/-- Check 6, Tile count, for a fixed plan at load (R189). -/
def chkTiles (s : State) (b : List Byte) : Failed :=
  if leAt b 20 1 % 2 = 1 then
    firstOf [failIf (decide (gradeTiles s < leAt b 26 2)) stABSENT 0x206 (leAt b 26 2),
             failIf (decide (s.retire.inService.length < leAt b 26 2)) stRETIRED 0x206 (leAt b 26 2)]
  else none

/-! ### Tile programs -/

/-- The bits of each layer word that hold a field (R126). -/
def layerBits : List Nat :=
  [0x0FFFFFFF, 0x1FFFFF, 0x3FFF3FFF, 0x7FFF7FFF, 0x7FFF7FFF, 0x7F1FFFFF, 0x3FFF3FFF, 0x7FFF] ++
  [0x7FFF7FFF, 0x3FFF3FFF, 0xFFFFFFFF, 0xFFFF, 0xFFFFF, 0x1FFFFF, 0xFFFFF, 0xFFFFF] ++
  [0xFFFFFFFF, 0x7FFFF, 0x3FFF, 0x1F, 0xFFFFF, 0x1FFF, 0xFFFFFFFF, 0xFF] ++
  [0x3FFFFF, 0xFFFFFFFF, 0xFFFFFFFF, 0x7F07FF, 0xFFFFFFFF, 0x1FFFFF, 0xFFFF, 0xFFFFFFFF]

/-- Whether a record holds a nonzero reserved bit (R119, R126). -/
def recReserved (ws : List Word) : Bool :=
  let w (i : Nat) : Word := ws.getD i 0
  let beyond (x : Word) (mask : Nat) : Bool := decide (x &&& ~~~ BitVec.ofNat 32 mask ≠ 0)
  match fld (w 0) 3 0 with
  | 1 => beyond (w 0) 0xF || (layerBits.zipIdx).any (fun m => beyond (w (1 + m.2)) m.1)
  | 2 => beyond (w 0) 0xFFFFFF || (ws.drop 1).any (fun x => beyond x 0xFFFFFF1F || decide (30 < fld x 4 0))
  | 3 => beyond (w 0) 0x3F
  | 4 => beyond (w 0) 0xFFFF001F
  | 5 => beyond (w 0) 0xFFFF001F
  | 6 => beyond (w 0) 0x7F00000F || beyond (w 1) 0xFFFFF || beyond (w 2) 0xFFFFF || beyond (w 3) 0x1FFFFF
  | _ => beyond (w 0) 0xF

/-- The layers of a program: record place, 32 words. -/
def layersOf (ws : List Word) : List (Nat × List Word) :=
  ((recordsOf ws.length 0 ws).zipIdx).filterMap (fun r =>
    if fld (r.1.2.getD 0 0) 3 0 = 1 then some (r.2, r.1.2.drop 1) else none)

/-- Whether a record of a program uses a microscaling format (R116). -/
def usesMx (ws : List Word) : Bool :=
  (layersOf ws).any (fun l => fmtMx (lAct l.2) || (lArray l.2 && fmtMx (lWgt l.2)) || fmtMx (lOut l.2))

/-- Check 5, Licence: a package, or a record of one, that uses a microscaling format without L-MX (R6, R116). -/
def chkLicence (s : State) (b : List Byte) (c : PlanContent) : Failed :=
  failIf ((decide (leAt b 20 1 / 2 % 2 = 1) || c.variants.any (fun v => v.tiles.any (fun t => usesMx t.words))) && !licensed s 3)
    stUNLICENSED 0x205 0

/-- The tile part of check 7, Record encoding: reserved opcodes and bits, HALT at the end, checkwords. -/
def chkEncoding (ws : List Word) : Failed :=
  let rs := (recordsOf ws.length 0 ws).zipIdx
  let bad (r : (Nat × List Word) × Nat) : Bool :=
    let n := recWords (r.1.2.getD 0 0)
    decide (n = 0) || decide (r.1.2.length < n) || recReserved r.1.2 || (decide (fld (r.1.2.getD 0 0) 3 0 = 1) && decide (7 < lOp (r.1.2.drop 1)))
  match rs.find? bad with
  | some r => some (stCOUNT, 0x207, r.2)
  | none =>
    if (match rs.getLast? with | some r => decide (fld (r.1.2.getD 0 0) 3 0 ≠ 7) | none => true) then some (stCOUNT, 0x207, rs.length)
    else match (layersOf ws).find? (fun l => decide (crcWords (l.2.take 31) ≠ lw l.2 31)) with
      | some l => some (stCHECK, 0x207, l.1)
      | none => none

/-- Check 8, Loops, for a tile program (R121): the levels of the loops that are open. -/
def chkLoops (ws : List Word) : Failed :=
  let step (o : Option (List Nat)) (r : Nat × List Word) : Option (List Nat) :=
    match o with
    | none => none
    | some st =>
      let w := r.2.getD 0 0
      if fld w 3 0 = 2 then
        (match st with
         | [] => some [fld w 5 4]
         | l :: _ => if l < fld w 5 4 ∧ st.length < 4 then some (fld w 5 4 :: st) else none)
      else if fld w 3 0 = 3 then
        (match st with
         | l :: t => if l = fld w 5 4 then some t else none
         | [] => none)
      else some st
  failIf (decide ((recordsOf ws.length 0 ws).foldl step (some []) ≠ some [])) stCOUNT 0x208 0

/-- Check 9, Format pair (R116, R128, R144). -/
def chkFormats (l : List Word) (i : Nat) : Failed :=
  let a := lAct l; let w := lWgt l
  let pair := (decide (a = 0) && decide (w = 0)) || (decide (a = 9) && decide (w = 9)) || (decide (a = 1) && decide (w = 1)) ||
    (decide (a = 3 ∨ a = 4) && decide (w = 3 ∨ w = 4)) || (decide (a = 7 ∨ a = 8) && decide (w = 7 ∨ w = 8)) ||
    (decide (a = 10) && decide (w = 10)) || (decide (a = 2) && decide (w = 1)) || (decide (a = 5) && decide (w = 5)) ||
    (decide (a = 6) && decide (w = 6))
  let g := lf l 3 30 16
  failIf ((lArray l && !pair) || (!lArray l && decide (6 < a)) || decide (11 < lOut l) ||
    (lArray l && fmtMx a && decide (1 < g) && decide (lf l 3 14 0 / g % 32 ≠ 0))) stCOUNT 0x209 i

/-- Whether the clamp bounds of a layer are out of order (R155, R156): in out_fmt, BF16 values for an MX format. -/
def clampBad (l : List Word) : Bool :=
  if lOut l = 11 then false
  else if fmtMx (lOut l) then fvLt (fmtValue 5 (lf l 28 31 16)) (fmtValue 5 (lf l 28 15 0))
  else if fmtInt (lOut l) then decide (sext (fmtBits (lOut l)) (lf l 28 31 16) < sext (fmtBits (lOut l)) (lf l 28 15 0))
  else fvLt (fmtValue (lOut l) (lf l 28 31 16 % 2 ^ fmtBits (lOut l))) (fmtValue (lOut l) (lf l 28 15 0 % 2 ^ fmtBits (lOut l)))

/-- Whether a zero point lies outside the range of its integer format (R156). -/
def zpBad (f v : Nat) : Bool :=
  fmtInt f && (decide (sext 16 v < -(2 ^ (fmtBits f - 1) : Nat)) || decide ((2 ^ (fmtBits f - 1) : Nat) ≤ sext 16 v))

/-- The rules of one operation (R158). -/
def opRules (l : List Word) : Bool :=
  let e := effDims l; let o := compDims l
  let g := lf l 3 30 16
  let zero (ks : List (Nat × Nat × Nat)) : Bool := ks.all (fun k => decide (lf l k.1 k.2.1 k.2.2 = 0))
  let cull := (0, 22, 22); let bias := (0, 19, 19); let nl := (0, 24, 23); let rg := (19, 1, 0); let pool := (18, 1, 0)
  let same := decide (outDims l = heldDims l)
  match lOp l with
  | 0 => decide (0 < g) && decide (e.2.2 % g = 0) && decide (o.2.2 % g = 0) && decide (0 < lf l 9 22 16) && decide (0 < lf l 9 29 23)
  | 1 => decide (o.1 = e.1) && decide (o.2.1 = e.2.1) && decide (g = 1) && zero [(9, 13, 0), (10, 31, 0)] &&
      decide (lf l 9 22 16 = 1) && decide (lf l 9 29 23 = 1)
  | 2 => decide (e.2.2 = o.2.2) && decide (g = e.2.2) && decide (0 < lf l 9 22 16) && decide (0 < lf l 9 29 23)
  | 3 => decide ((outDims l).2.2 = (heldDims l).2.2) && decide (poolMode l = 1 ∨ poolMode l = 2) && zero [(9, 13, 0), cull, rg, bias, nl]
  | 4 => decide (rgMode l = 1 ∨ rgMode l = 2) && !rgAfter l && zero [pool, cull, bias, nl] && decide (outDims l = e)
  | 5 => same && zero [pool, rg, cull]
  | 6 => same && decide (lf l 0 24 23 = 1 ∨ lf l 0 24 23 = 2) && zero [pool, rg, cull]
  | _ => same && zero [pool, rg, cull, bias, nl]

/-- The rules of a fused regroup and of fused pooling (R165 to R167). -/
def fusedRules (l : List Word) : Bool :=
  let f2 := rgF l * rgF l
  let rgOk :=
    if rgMode l = 0 then true
    else decide (rgMode l < 3) && decide (lf l 19 3 2 ≠ 0) &&
      (if rgAfter l then
        lArray l && decide (lf l 27 10 0 % rgF l = 0) && decide (lf l 27 22 16 % rgF l = 0) &&
          (if rgMode l = 2 then decide ((outDims l).2.2 * f2 ≤ 16384) else decide ((outDims l).2.2 % f2 = 0))
       else decide (rgMode l = 1) || decide ((heldDims l).2.2 % f2 = 0))
  let poolOk :=
    if lArray l && decide (poolMode l ≠ 0) then
      decide (poolMode l < 3) && decide (poolW l = poolSx l) && decide (poolH l = poolSy l) &&
        decide (lf l 27 10 0 % poolW l = 0) && decide (lf l 27 22 16 % poolH l = 0)
    else true
  rgOk && poolOk

/-- Check 10, Operator rules (R156, R158, R160, R165 to R167). -/
def chkOperator (l : List Word) (i : Nat) : Failed :=
  let r156 := zpBad (lAct l) (lf l 16 15 0) || zpBad (lOut l) (lf l 16 31 16) || clampBad l ||
    (decide (lOp l = 3 ∨ lOp l = 4 ∨ lOp l = 7) && decide (lOut l ≠ lAct l)) ||
    (decide (lOut l = 11) && (decide (lf l 0 24 23 ≠ 0) || decide (poolMode l ≠ 0) || (decide (rgMode l ≠ 0) && rgAfter l))) ||
    decide (lf l 0 24 23 = 3) || decide (5 < lf l 0 18 16) ||
    (lArray l && (decide (lf l 27 10 0 % 16 ≠ 0) || decide (lf l 27 10 0 = 0) || decide (1024 < lf l 27 10 0) ||
      decide (lf l 27 22 16 = 0) || decide (64 < lf l 27 22 16)))
  failIf (r156 || !opRules l || !fusedRules l) stCOUNT 0x20A i

/-- Check 13, Alignment, of a layer (R115, R126, R148): the WM and PM bases whether the layer uses them or not. -/
def chkAlign (l : List Word) (i : Nat) : Failed :=
  let pitch := decide (lf l 4 14 0 % 8 ≠ 0) || decide (lf l 4 30 16 % 8 ≠ 0) || decide (lf l 8 14 0 % 8 ≠ 0) || decide (lf l 8 30 16 % 8 ≠ 0)
  let base := decide (lf l 1 14 0 % 64 ≠ 0) || decide (lf l 5 14 0 % 64 ≠ 0) || (decide (lOp l = 5) && decide (lf l 29 14 0 % 64 ≠ 0))
  let fetch := lb l 0 26 && (decide (lf l 22 31 0 % 64 ≠ 0) || decide (lf l 24 20 0 % 64 ≠ 0) || decide (lf l 25 15 0 % 64 ≠ 0) ||
    decide (lf l 26 31 0 % 64 ≠ 0))
  let local' := decide (lf l 12 19 0 % 64 ≠ 0) || decide (lf l 17 18 0 % 64 ≠ 0) || decide (lf l 14 19 0 % 4 ≠ 0) ||
    decide (lf l 15 19 0 % 8 ≠ 0) || decide (lf l 20 19 0 % 16 ≠ 0)
  failIf (pitch || base || fetch || local') stALIGN 0x20D i

/-- The layer part of check 14, Buffer sizes (R117, R159). -/
def chkBuffers (l : List Word) (i : Nat) : Failed :=
  let d := loopDims l
  let need := if lOp l = 2 then ceilDiv (effDims l).2.2 d.il * d.kw * d.kh * setSize l
    else d.groups * d.cgs * d.igs * d.kw * d.kh * setSize l
  failIf (lArray l && (decide (524288 < d.bw * d.bh * d.ol * d.ps) || decide (lf l 13 20 0 < need))) stSMALL 0x20E i

/-- The end of a tensor's bytes within a bank: base, plane and row pitch, element bits, dimensions. -/
def bankEnd (base plane row bits : Nat) (d : Nat × Nat × Nat) : Nat :=
  if d.1 = 0 ∨ d.2.1 = 0 ∨ d.2.2 = 0 then 0
  else base + (d.2.2 - 1) / 64 * plane + (d.2.1 - 1) * row + ceilDiv (d.1 * bits) 8

/-- The scale tensor of a microscaling tensor: its base and its dimensions (R144). -/
def scaleBase (base plane : Nat) (d : Nat × Nat × Nat) : Nat := base + ceilDiv d.2.2 64 * plane
def scaleDims (d : Nat × Nat × Nat) : Nat × Nat × Nat := (d.1, d.2.1, ceilDiv d.2.2 32)

/-- The end of a tensor's bytes within a bank, its scales among them. -/
def tensorEnd (f base plane row : Nat) (d : Nat × Nat × Nat) : Nat :=
  if fmtMx f then max (bankEnd base plane row (fmtBits f) d) (bankEnd (scaleBase base plane d) plane row 8 (scaleDims d))
  else bankEnd base plane row (fmtBits f) d

/-- The passes of a layer: the words with each pointer entry added (R164), the list read from a WM image. -/
def layerPasses (img : Memory) (l : List Word) : List (List Word) :=
  if lf l 21 12 0 = 0 then [l]
  else (List.range (lf l 21 12 0)).map (fun p =>
    let a := lf l 20 19 0 + 16 * p
    ([1, 5, 12, 29].zipIdx).foldl (fun l k => l.set k.1 (lw l k.1 + BitVec.ofNat 32 (memNum img (a + 4 * k.2) 4))) l)

/-- The ranges of WM a layer reads: weights, biases, requantisation entries, pointer list (R148, R159, R164). -/
def wmReads (l : List Word) : List (Nat × Nat) :=
  let c := (outDims l).2.2
  (if lArray l then [(lf l 12 19 0, lf l 13 20 0)] else []) ++
    (if lb l 0 19 && !lb l 0 21 then [(lf l 14 19 0, 4 * c)] else []) ++
    (if (lArray l || decide (lOp l = 5 ∨ lOp l = 6)) && !lb l 0 21 && decide (lOut l ≠ 11) then [(lf l 15 19 0, 8 * c)] else []) ++
    (if lf l 21 12 0 = 0 then [] else [(lf l 20 19 0, 16 * lf l 21 12 0)])

/-- Check 15, Bounds, of one pass of a layer: every range lies in AM, WM or PM. -/
def chkBounds (l : List Word) (i : Nat) : Failed :=
  let d := loopDims l
  let am := decide (32768 < tensorEnd (lAct l) (lf l 1 14 0) (lf l 4 30 16) (lf l 4 14 0) (heldDims l)) ||
    (!lb l 0 21 && decide (32768 < tensorEnd (lOut l) (lf l 5 14 0) (lf l 8 30 16) (lf l 8 14 0) (outDims l))) ||
    (decide (lOp l = 5) && decide (32768 < tensorEnd (lAct l) (lf l 29 14 0) (lf l 4 30 16) (lf l 4 14 0) (heldDims l)))
  let pm := lArray l && decide (0x80000 < lf l 17 18 0 + d.bw * d.bh * d.ol * d.ps)
  let fetch := lb l 0 26 && decide ((if lb l 24 21 then 0x100000 else 0x200000) < lf l 24 20 0 + lf l 25 15 0 * lf l 25 31 16)
  failIf (!lEmpty l && (am || (wmReads l).any (fun r => decide (0x100000 < r.1 + r.2)) || pm || fetch)) stSMALL 0x20F i

/-- The DDR5 or SHM rows of a layer's fetch are mapped (R136, R196); a row of the Plate output ring is found at run time (R95). -/
def chkFetch (s : State) (xlate : Nat) (rings : List Nat) (l : List Word) (i : Nat) : Failed :=
  let f := layerFetch l
  failIf (lb l 0 26 && !lEmpty l && !decide (i ∈ rings) && (fetchPieces f).any (fun p => (translate s xlate false (fetchIo f p.1)).isNone))
    stSMALL 0x20F i

/-- The byte rows of a tensor in AM: bank, first byte, bytes. -/
def amRows (off bank plane row bits : Nat) (d : Nat × Nat × Nat) : List (Nat × Nat × Nat) :=
  if d.1 = 0 then []
  else (List.range d.2.2).flatMap (fun c => (List.range d.2.1).map (fun y => ((bank + c) % 64, off + c / 64 * plane + y * row, ceilDiv (d.1 * bits) 8)))

/-- The rows of a tensor's scales, for a microscaling format (R144). -/
def scaleRows (f off bank plane row : Nat) (d : Nat × Nat × Nat) : List (Nat × Nat × Nat) :=
  if fmtMx f then amRows (scaleBase off plane d) bank plane row 8 (scaleDims d) else []

/-- Whether two lists of bank rows meet. -/
def rowsMeet (a b : List (Nat × Nat × Nat)) : Bool :=
  a.any (fun x => b.any (fun y => decide (x.1 = y.1) && decide (x.2.1 < y.2.1 + y.2.2) && decide (y.2.1 < x.2.1 + x.2.2)))

/-- Rows a layer reads and writes in its own AM. -/
def readRows (l : List Word) : List (Nat × Nat × Nat) :=
  amRows (lf l 1 14 0) (lf l 1 20 15) (lf l 4 30 16) (lf l 4 14 0) (fmtBits (lAct l)) (heldDims l) ++
    scaleRows (lAct l) (lf l 1 14 0) (lf l 1 20 15) (lf l 4 30 16) (lf l 4 14 0) (heldDims l)
def in2Rows (l : List Word) : List (Nat × Nat × Nat) :=
  if lOp l = 5 then amRows (lf l 29 14 0) (lf l 29 20 15) (lf l 4 30 16) (lf l 4 14 0) (fmtBits (lAct l)) (heldDims l) else []
def writesOwn (l : List Word) : Bool := !lb l 0 21 && !lb l 0 27
def writeRows (l : List Word) : List (Nat × Nat × Nat) :=
  if writesOwn l then amRows (lf l 5 14 0) (lf l 5 20 15) (lf l 8 30 16) (lf l 8 14 0) (fmtBits (lOut l)) (outDims l) else []
def writeScales (l : List Word) : List (Nat × Nat × Nat) :=
  if writesOwn l then scaleRows (lOut l) (lf l 5 14 0) (lf l 5 20 15) (lf l 8 30 16) (lf l 8 14 0) (outDims l) else []

/-- In place under R468: the same base, bank, element size and pitches. -/
def inPlace (l : List Word) (w off bank : Nat) : Bool :=
  decide (5 ≤ lOp l) && decide (lf l w 14 0 = off) && decide (lf l w 20 15 = bank) && decide (fmtBits (lAct l) = fmtBits (lOut l)) &&
    decide (lw l 4 = lw l 8)

/-- Whether a pass of a layer writes what it reads, other than in place; whether one pass writes what another reads (R468). -/
def ownMeets (l : List Word) : Bool :=
  let o := lf l 5 14 0; let b := lf l 5 20 15
  (rowsMeet (writeRows l) (readRows l) && !inPlace l 1 o b) || (rowsMeet (writeRows l) (in2Rows l) && !inPlace l 29 o b) ||
    rowsMeet (writeScales l) (readRows l ++ in2Rows l)
def passesMeet (ps : List (List Word)) : Bool :=
  ps.any ownMeets || (ps.zipIdx).any (fun p => (ps.zipIdx).any (fun q => decide (p.2 ≠ q.2) &&
    rowsMeet (writeRows p.1 ++ writeScales p.1) (readRows q.1 ++ in2Rows q.1)))

/-- Whether n bytes written from an offset of AM or WM on meet what a pass of a layer reads (R141). -/
def bytesMeet (wm : Bool) (a n : Nat) (l : List Word) : Bool :=
  if lEmpty l then false
  else if wm then (wmReads l).any (fun r => decide (a < r.1 + r.2) && decide (r.1 < a + n))
  else (readRows l ++ in2Rows l).any (fun r => decide (a < r.1 * 32768 + r.2.1 + r.2.2) && decide (r.1 * 32768 + r.2.1 < a + n))

/-- Check 16, Overlap, of the layers a program runs: of each with itself, and of each fetch with the layers that may run beside it. -/
def chkOverlap (img : Memory) : List (Nat × List Word) → Failed
  | [] => none
  | l :: t =>
    let beside := (l :: t.takeWhile (fun m => !lb m.2 0 25)).flatMap (fun m => layerPasses img m.2)
    let fetched := lb l.2 0 26 && !lEmpty l.2 && beside.any (bytesMeet (lb l.2 24 21) (lf l.2 24 20 0) (lf l.2 25 15 0 * lf l.2 25 31 16))
    if (!lEmpty l.2 && passesMeet (layerPasses img l.2)) || fetched then some (stOVERLAP, 0x210, l.1) else chkOverlap img t

/-- A check over the layers of a program. -/
def onLayers (ls : List (Nat × List Word)) (f : List Word → Nat → Failed) : Failed := ls.findSome? (fun l => f l.2 l.1)

/-- ROTATE records of a program: destination and size; whether one overlaps itself. -/
def rotatesOf (ws : List Word) : List (Nat × Nat) :=
  (recordsOf ws.length 0 ws).filterMap (fun r =>
    if fld (r.2.getD 0 0) 3 0 = 6 then some (fld (r.2.getD 2 0) 19 0, fld (r.2.getD 3 0) 20 0) else none)
def rotateBad (ws : List Word) : Bool :=
  (recordsOf ws.length 0 ws).any (fun r => decide (fld (r.2.getD 0 0) 3 0 = 6) &&
    overlap (fld (r.2.getD 1 0) 19 0) (fld (r.2.getD 3 0) 20 0) (fld (r.2.getD 2 0) 19 0) (fld (r.2.getD 3 0) 20 0))
def rotateOut (ws : List Word) : Bool :=
  (recordsOf ws.length 0 ws).any (fun r => decide (fld (r.2.getD 0 0) 3 0 = 6) &&
    (decide (0x100000 < fld (r.2.getD 1 0) 19 0 + fld (r.2.getD 3 0) 20 0) || decide (0x100000 < fld (r.2.getD 2 0) 19 0 + fld (r.2.getD 3 0) 20 0)))

/-- Flag indices a tile program names. -/
def tileFlags (ws : List Word) : List Nat :=
  (recordsOf ws.length 0 ws).filterMap (fun r =>
    if fld (r.2.getD 0 0) 3 0 = 4 ∨ fld (r.2.getD 0 0) 3 0 = 5 then some (fld (r.2.getD 0 0) 31 16) else none)

/-! ### Etch images (R213, R217) -/

/-- The bundles of an image. -/
def imageBundles (e : EtchImage) : List Bundle :=
  (List.range (ceilDiv e.bundles.length 32)).map (fun i => bundleOf (fun k => BitVec.ofNat 32 (leAt e.bundles (32 * i + 4 * k) 4)))

/-- The Etch part of check 7, Record encoding: every bundle legal (R213, R225, R229). -/
def chkEtchLoad (e : EtchImage) (i : Nat) : Failed := failIf ((imageBundles e).any (fun b => !bundleLegal b)) stCOUNT 0x207 i

/-- The Etch part of check 14, Buffer sizes: the image and its DMEM segments fit (R217). -/
def chkEtchSize (e : EtchImage) (i : Nat) : Failed :=
  failIf (decide (0x40000 < e.bundles.length) || e.segs.any (fun g => decide (0x100000 < g.1 + g.2.length))) stSMALL 0x20E i

/-- Flag indices an image names. -/
def etchFlags (e : EtchImage) : List Nat :=
  (imageBundles e).flatMap (fun b => [b.s0, b.s1].filterMap (fun w => if isOp w .fwait || isOp w .fsig then some (fld w 15 0) else none))

/-! ### DMA programs (R249 to R254, R260) -/

/-- Whether the loops of a DMA program keep R251: levels rise, bodies nest, at most four deep. -/
def dmaLoopsBad (ws : List Word) : Bool :=
  let n := ws.length
  let step (a : Bool × List (Nat × Nat)) (r : Nat × List Word) : Bool × List (Nat × Nat) :=
    let open' := a.2.filter (fun f => decide (r.1 < f.2))
    let w := r.2.getD 0 0
    if fld w 3 0 = 2 then
      let first := r.1 + r.2.length
      let stop := first + fld (r.2.getD 1 0) 15 0
      let bad := decide (n < stop) || (match open' with
        | f :: _ => decide (fld w 5 4 ≤ f.1) || decide (f.2 < stop) || decide (4 ≤ open'.length)
        | [] => false)
      (a.1 || bad, (fld w 5 4, stop) :: open')
    else (a.1, open')
  ((dmaList ws).foldl step (false, [])).1

/-- The MOVEs of a program. -/
def movesOf (ws : List Word) : List (Nat × MoveWork) :=
  (dmaList ws).filterMap (fun r =>
    if fld (r.2.getD 0 0) 3 0 = 1 then
      some (r.1, { words := r.2, src := (r.2.getD 2 0).toNat + fld (r.2.getD 3 0) 7 0 * 2 ^ 32, dst := (r.2.getD 4 0).toNat + fld (r.2.getD 5 0) 7 0 * 2 ^ 32,
                   target := fld (r.2.getD 1 0) 15 0, cur := [0, 0, 0, 0], down := false, issuedAll := false, nacked := false, redo := 0, fmt := 0 })
    else none)

/-- Whether the codec rules of a MOVE are broken (R252, R254, R260). -/
def codecBad (m : MoveWork) : Bool :=
  decide (mCodec m = 3) ||
    (decide (mCodec m ≠ 0) && (decide (mDims m ≠ 4) || decide (mStride m (decide (mCodec m = 1)) 1 ≠ 0)))

/-- The checks of a DMA program at load (R260 rows 1 to 5), in the Record encoding row of R196. -/
def chkDmaLoad (ws : List Word) (i : Nat) : Failed :=
  firstOf [failIf (decide (fld (ws.getD 0 0) 7 0 ≠ 1)) stVERSION 0x301 i,
    failIf (decide (crcWords (ws.take 3 ++ ws.drop 4) ≠ ws.getD 3 0)) stCHECK 0x302 i,
    failIf (!headerGood (ws.take 4) || decide (fld (ws.getD 0 0) 31 16 ≠ ws.length) || (dmaList ws).any (fun r => decide (r.2 = []) || dmaBadFields r.2))
      stCOUNT 0x303 i,
    failIf (dmaLoopsBad ws) stCOUNT 0x304 i,
    failIf ((movesOf ws).any (fun m => codecBad m.2)) stCOUNT 0x305 i]

/-- Lines a program is paced by or pulses, and logical cores it pulses, over all its loops (R252). -/
def pacedLines (ws : List Word) : List Nat := (movesOf ws).filterMap (fun m => if mPaced m.2 then some (mLine m.2) else none)
def eventLines (ws : List Word) : List Nat := (moveRun ws).filterMap (fun m => if mEvent m = 3 then some (m.target % 256) else none)
def eventCores (ws : List Word) : List Nat := (moveRun ws).filterMap (fun m => if mEvent m = 2 then some (m.target / 16 % 8) else none)

/-- Flag indices a DMA program names, over all its loops (R251). -/
def dmaFlags (ws : List Word) : List Nat :=
  (dmaList ws).filterMap (fun r => if fld (r.2.getD 0 0) 3 0 = 3 ∨ fld (r.2.getD 0 0) 3 0 = 4 then some (fld (r.2.getD 0 0) 31 16) else none) ++
    (moveRun ws).filterMap (fun m => if mEvent m = 1 then some m.target else none)

/-- Whether a stride lies below a minimum or off the 64-byte grid. -/
def pitchBad (st : Int) (low : Nat) : Bool := decide (st % 64 ≠ 0) || decide (st < (low : Int))

/-- Alignment of a MOVE (R181, R253, R254): without codec its addresses, size0 and strides, and no size above its dimensions; with it the
row length, the row pitch of the uncompressed side and the plane pitch of the compressed one. -/
def moveMisaligned (m : MoveWork) : Bool :=
  if mCodec m = 0 then
    decide (m.src % 64 ≠ 0) || decide (m.dst % 64 ≠ 0) || decide (mSize m 0 % 64 ≠ 0) ||
      ((List.range (mDims m)).drop 1).any (fun d => decide (mStride m false d % 64 ≠ 0) || decide (mStride m true d % 64 ≠ 0)) ||
      (decide (mDims m < 2) && decide (fld (mw m 7) 15 0 ≠ 0)) || (decide (mDims m < 3) && decide (fld (mw m 7) 31 16 ≠ 0)) ||
      (decide (mDims m < 4) && decide (fld (mw m 8) 15 0 ≠ 0))
  else
    let packed := decide (mCodec m = 1)
    decide (8192 < mSize m 0) || pitchBad (mStride m (!packed) 1) (ceilDiv (mSize m 0 * (if mE16 m then 2 else 1)) 64 * 64) ||
      pitchBad (mStride m packed 2) (ceilDiv (mSize m 1) 8 * mBlocksPerRow m * stBlock (mE16 m) (mRatio m))

/-- The ranges one side of a MOVE touches: its runs of dimension 0, or the compressed planes of a codec MOVE (R181, R253, R254). -/
def moveRows (m : MoveWork) (dst : Bool) : List (Nat × Nat) :=
  if mEmpty m then []
  else
    (List.range (mSize m 3)).flatMap (fun r => (List.range (mSize m 2)).flatMap (fun c =>
      if mCodec m ≠ 0 ∧ decide (mCodec m = 1) = dst then
        [(mAddr m dst [0, 0, c, r] 0, ceilDiv (mSize m 1) 8 * mBlocksPerRow m * stBlock (mE16 m) (mRatio m))]
      else (List.range (mSize m 1)).map (fun y =>
        (mAddr m dst [0, y, c, r] 0, if mCodec m ≠ 0 ∧ mE16 m then 2 * mSize m 0 else mSize m 0))))

/-- The lowest byte and the byte past the highest that one side of a MOVE touches (R260). -/
def moveExtent (m : MoveWork) (dst : Bool) : Nat × Nat :=
  (moveRows m dst).foldl (fun a r => (min a.1 r.1, max a.2 (r.1 + r.2))) (2 ^ 40, 0)

/-- Whether a multi-dimensional MOVE's written extent meets its read extent. -/
def moveMeets (m : MoveWork) : Bool :=
  !(decide (mSize m 1 = 1) && decide (mSize m 2 = 1) && decide (mSize m 3 = 1)) &&
    (let r := moveExtent m false; let w := moveExtent m true
     decide (w.1 < r.2) && decide (r.1 < w.2))

/-- The checks of a DMA program at instantiation that need no map: Alignment and Overlap rows. -/
def chkDmaAlign (ws : List Word) (i : Nat) : Failed := failIf ((moveRun ws).any moveMisaligned) stALIGN 0x308 i
def chkDmaOverlap (ws : List Word) (i : Nat) : Failed := failIf ((moveRun ws).any moveMeets) stOVERLAP 0x30A i

/-- Whether an I/O address of a channel program is mapped: in the window of a logical tile or core of the plan, within the memories a
channel reaches (log 32), or in the translation context. -/
def ioMapped (s : State) (xlate : Nat) (tiles cores : List Nat) (write : Bool) (a : Nat) : Bool :=
  if tileIo 0 ≤ a ∧ a < tileIo 128 then decide ((a - tileIo 0) / 0x400000 ∈ tiles) && decide (a % 0x400000 < 0x390000)
  else if coreIo 0 ≤ a ∧ a < coreIo 16 then decide ((a - coreIo 0) / 0x400000 ∈ cores) && decide (a % 0x400000 < 0x140000)
  else (translate s xlate write a).isSome

/-- The Bounds row: every page that a MOVE touches, over all loops, is mapped. -/
def chkDmaBounds (s : State) (xlate : Nat) (tiles cores : List Nat) (ws : List Word) (i : Nat) : Failed :=
  let side (m : MoveWork) (dst : Bool) : Bool := (moveRows m dst).any (fun r =>
    decide (2 ^ 40 < r.1 + r.2) || (pageSpans (r.2 / 4096 + 2) r.1 r.2).any (fun p => !ioMapped s xlate tiles cores dst p.1))
  failIf ((moveRun ws).any (fun m => side m false || side m true)) stSMALL 0x309 i

/-- Whether a channel program writes AM or WM bytes of a logical tile that one of its layers reads (R141). -/
def dmaMeets (img : Memory) (logical : Nat) (ls : List (Nat × List Word)) (ws : List Word) : Bool :=
  (moveRun ws).any (fun m => (moveRows m true).any (fun r =>
    decide (tileIo logical ≤ r.1) && decide (r.1 < tileIo (logical + 1)) &&
      (let o := r.1 - tileIo logical
       ls.any (fun l => (layerPasses img l.2).any (fun q =>
         if o < 0x200000 then bytesMeet false o r.2 q else if o < 0x300000 then bytesMeet true (o - 0x200000) r.2 q else false)))))

/-- Whether the declarations order two programs of a plan: one waits on a flag that the other updates. -/
def ordered (c : PlanContent) (p q : Prog) : Bool :=
  c.decls.any (fun d => (decide (p ∈ d.waiters) && decide (q ∈ d.signallers)) || (decide (q ∈ d.waiters) && decide (p ∈ d.signallers)))

/-! ### The flag graph (R197) -/

/-- A node of the flag graph: the programs of different plans are different nodes; BRU slots and queues are the device's. -/
def nodeOf (plan : Nat) (p : Prog) : Nat × Prog := match p with | .bru _ => (0, p) | .queue _ => (0, p) | _ => (plan, p)

/-- The edges of the declarations, each with its plan: for every flag from each waiter to each signaller, none from a program to itself, none
among the participants of a barrier. -/
def flagEdges (ds : List (Nat × FlagDecl)) : List ((Nat × Prog) × (Nat × Prog)) :=
  (ds.map (fun d => d.2.flag)).eraseDups.flatMap (fun f =>
    let here := ds.filter (fun d => d.2.flag = f)
    let all (k : FlagDecl → List Prog) : List (Nat × Prog) := here.flatMap (fun d => (k d.2).map (nodeOf d.1))
    let parts := all (fun d => if d.barrier then d.participants else [])
    (all (fun d => d.waiters)).flatMap (fun w => ((all (fun d => d.signallers)).filter (fun g =>
      decide (g ≠ w) && !(decide (w ∈ parts) && decide (g ∈ parts)))).map (fun g => (w, g))))

/-- Edges whose target has an edge of its own, again and again: what stays holds a cycle. -/
def pruneEdges : Nat → List ((Nat × Prog) × (Nat × Prog)) → List ((Nat × Prog) × (Nat × Prog))
  | 0, es => es
  | fuel + 1, es => pruneEdges fuel (es.filter (fun e => es.any (fun f => f.1 = e.2)))

/-- Whether declared waits form a cycle. -/
def flagCycle (ds : List (Nat × FlagDecl)) : Bool := let es := flagEdges ds; !(pruneEdges es.length es).isEmpty

/-- The declarations of a plan with those of loaded plans that declare one of its flags, each with its plan (R197). -/
def allDecls (s : State) (c : PlanContent) : List (Nat × FlagDecl) :=
  c.decls.map (fun d => (1, d)) ++ (s.host.packages.zipIdx).flatMap (fun p =>
    if p.1.content ≠ c ∧ p.1.content.decls.any (fun d => c.decls.any (fun e => e.flag = d.flag)) then
      p.1.content.decls.map (fun d => (p.2 + 2, d)) else [])

/-! ### The checks at LOAD_PACKAGE (R196) -/

/-- The programs of every variant. -/
def planTiles (c : PlanContent) : List TileProg := c.variants.flatMap (fun v => v.tiles)

/-- The checks at LOAD_PACKAGE in the order of *Loader checks*. -/
def chkLoad (s : State) (b : List Byte) (c : PlanContent) : Failed :=
  let tiles := planTiles c
  firstOf [chkVersion b, chkSignature s b, chkSections b, chkRequired b c, failIf (decide (c.variants = [])) stCOUNT 0x204 6,
    chkLicence s b c, chkTiles s b,
    tiles.findSome? (fun t => chkEncoding t.words),
    failIf (c.variants.any (fun v => v.segs.any (fun g => !v.tiles.any (fun t => t.logical = g.logical)))) stCOUNT 0x207 0,
    (c.cores.zipIdx).findSome? (fun e => chkEtchLoad e.1 e.2),
    (c.dmas.zipIdx).findSome? (fun d => chkDmaLoad d.1.words d.2),
    tiles.findSome? (fun t => chkLoops t.words),
    tiles.findSome? (fun t => onLayers (layersOf t.words) chkFormats),
    failIf (c.stippleFmts.any (fun f => decide (f.2 ≠ 0) && (decide (f.1 = 0) || decide (7 ≤ f.1)))) stCOUNT 0x20B 0,
    failIf (decide (256 ≤ s.host.packages.length) || s.host.packages.any (fun p => p.ident = leAt b 16 4)) stCOUNT 0x213 (leAt b 16 4)]

end Sys2Proof.Machine
end

