-- ==== Sys2Proof/Machine/Place.lean ====
section
/-!
DEFINITION. Sys2Proof/Machine/Place.lean: Apgil's choice of stripe height, variant and strings, the placement of logical tiles, and
the checks at instantiation (R189 to R195, R196, R197, R255, R260).
-/
namespace Sys2Proof.Machine

/-- R189 for a parametric plan: more tiles needed than the grade or the service has. -/
def chkMinTiles (s : State) (p : Package) : Failed :=
  firstOf [failIf (decide (gradeTiles s < p.tilesMin)) stABSENT 7 p.tilesMin,
           failIf (decide (s.retire.inService.length < p.tilesMin)) stRETIRED 7 p.tilesMin]

/-! ### Checks at instantiation (R196) -/

/-- Whether a context owns or shares the group of a flag. -/
def ownsFlag (s : State) (ctx f : Nat) : Bool := flagAllowed s (some ctx) f

/-- What a variant of a plan runs at some dimensions: each tile's program with its words and the layers they run, the channel programs. -/
structure Bound where
  tiles : List (TileProg × List Word × List (Nat × List Word))
  dmas : List (List Word × Nat)
  deriving DecidableEq, Repr

/-- The programs of a variant bound to dimensions (R191, R194, R195). -/
def boundOf (c : PlanContent) (i : Nat) (v : Variant) (dims : List Nat) : Bound :=
  { tiles := v.tiles.map (fun t => let ws := bindProg c i t dims; (t, ws, layerRun ws)),
    dmas := (c.dmas.zipIdx).map (fun d => (bindDma c i d.1 [] [], d.2)) }

/-- Flags a plan's programs and declarations name, with those of a Stroke's descriptor and strings (R91, R97). -/
def planFlags (c : PlanContent) (v : Variant) (b : Bound) (strings : Nat) (desc : Option (List Nat)) : List Nat :=
  desc.getD [] ++ c.decls.map (fun d => d.flag) ++ b.tiles.flatMap (fun t => tileFlags t.2.1) ++ b.dmas.flatMap (fun d => dmaFlags d.1) ++
    c.cores.flatMap etchFlags ++
    (List.range (if desc.isSome then strings else 0)).flatMap (fun i => [v.inFlag + i, v.inCredit + i, v.outFlag + i] ++
      (List.range (v.segs.length - 1)).flatMap (fun k => [v.handFlag + 8 * k + i, v.handCredit + 8 * k + i]))

/-- Whether the channel a line is bound to belongs to another context (R255). -/
def lineTaken (s : State) (ctx l : Nat) : Bool := match lineChan s l with | some c => decide (chanCtx s c ≠ some ctx) && (chanCtx s c).isSome | none => false

/-- Check 12, Counts; `desc` are the flags of a Stroke's descriptor, none for a job. -/
def chkCounts (s : State) (ctx : Nat) (c : PlanContent) (v : Variant) (b : Bound) (strings : Nat) (desc : Option (List Nat)) : Failed :=
  let rings := ringGroups v
  let held := ((List.range 1024).filter (fun g => ownsFlag s ctx (64 * g))).length * 64
  firstOf [failIf (b.tiles.any (fun t => t.2.2.any (fun l => decide (4096 < lf l.2 21 12 0)))) stCOUNT 0x20C 0,
    failIf (decide (8 < strings)) stCOUNT 0x20C strings,
    failIf (rings.any (fun g => decide (g.length < 2) || decide (16 < g.length))) stCOUNT 0x20C 1,
    failIf (rings.any (fun g => decide (((b.tiles.filter (fun t => decide (t.1.logical ∈ g))).map (fun t => rotatesOf t.2.1)).eraseDups.length > 1))) stCOUNT 0x20C 2,
    failIf (c.dmas.any (fun d => d.lines.any (lineTaken s ctx))) stCOUNT 0x20C 3,
    failIf (decide (held < (c.decls.map (fun d => d.flag)).eraseDups.length)) stCOUNT 0x20C 4,
    (planFlags c v b strings desc).findSome? (fun f => failIf (!ownsFlag s ctx f) stCOUNT 0x20C f),
    (c.dmas.zipIdx).findSome? (fun d => failIf ((pacedLines d.1.words).any (fun l => !decide (l ∈ d.1.lines))) stCOUNT 0x306 d.2),
    b.dmas.findSome? (fun d => failIf ((eventLines d.1).any (fun l => !c.dmas.any (fun e => decide (l ∈ e.lines))) ||
      (eventCores d.1).any (fun k => !c.cores.any (fun e => decide (e.logical = k)))) stCOUNT 0x307 d.2)]

/-- Checks 13 to 16 of the programs of a plan: tile programs first, then Etch images, then channel programs (R260). -/
def chkRanges (s : State) (xlate : Nat) (c : PlanContent) (v : Variant) (b : Bound) (dims : List Nat) : Failed :=
  let img (p : TileProg) : Memory := memScatter [] (wmImage p dims)
  let rings (p : TileProg) : List Nat := (p.rows.filter (fun e => e.ring.isSome)).map (fun e => e.record)
  let logical := v.tiles.map (fun t => t.logical)
  let cores := c.cores.map (fun e => e.logical)
  firstOf [b.tiles.findSome? (fun p => onLayers p.2.2 (fun l i => (layerPasses (img p.1) l).findSome? (fun q => chkAlign q i))),
    b.dmas.findSome? (fun d => chkDmaAlign d.1 d.2),
    b.tiles.findSome? (fun p => failIf (decide (16384 < p.2.1.length)) stSMALL 0x20E p.1.logical),
    failIf (!v.segs.all (fun g => segFits g (dims.getD 0 0) (dims.getD 1 0))) stSMALL 0x20E 0,
    b.tiles.findSome? (fun p => onLayers p.2.2 chkBuffers),
    (c.cores.zipIdx).findSome? (fun e => chkEtchSize e.1 e.2),
    b.tiles.findSome? (fun p => onLayers p.2.2 (fun l i =>
      firstOf [(layerPasses (img p.1) l).findSome? (fun q => chkBounds q i), chkFetch s xlate (rings p.1) l i])),
    b.tiles.findSome? (fun p => failIf (rotateOut p.2.1) stSMALL 0x20F p.1.logical),
    b.dmas.findSome? (fun d => chkDmaBounds s xlate logical cores d.1 d.2),
    b.tiles.findSome? (fun p => chkOverlap (img p.1) p.2.2),
    b.tiles.findSome? (fun p => failIf (rotateBad p.2.1) stOVERLAP 0x210 p.1.logical),
    b.dmas.findSome? (fun d => chkDmaOverlap d.1 d.2),
    b.dmas.findSome? (fun d => failIf (!(match c.dmas[d.2]? with | some x => x.pre | none => true) && b.tiles.any (fun p =>
      !ordered c (.tile p.1.logical) (.dma d.2) && dmaMeets (img p.1) p.1.logical p.2.2 d.1)) stOVERLAP 0x210 d.2)]

/-- The checks at instantiation in the order of *Loader checks* for variant i, after the repeat of the record checks on rewritten
records (R191). -/
def chkInst (s : State) (ctx xlate : Nat) (c : PlanContent) (i strings : Nat) (desc : Option (List Nat)) (dims : List Nat) : Failed :=
  match c.variants[i]? with
  | none => none
  | some v =>
    let b := boundOf c i v dims
    firstOf [failIf (b.tiles.any (fun p => usesMx p.2.1) && !licensed s 3) stUNLICENSED 0x205 0,
      b.tiles.findSome? (fun p => chkEncoding p.2.1), b.tiles.findSome? (fun p => onLayers p.2.2 chkFormats),
      b.tiles.findSome? (fun p => onLayers p.2.2 chkOperator), chkCounts s ctx c v b strings desc, chkRanges s xlate c v b dims,
      failIf (flagCycle (allDecls s c)) stCYCLE 0x211 0]

/-! ### LOAD_PACKAGE (R186, R188, R336) -/

/-- A plan's content where a package's sections name nothing. -/
def emptyPlan : PlanContent :=
  { networks := [], inlet := false, heights := 0, radii := [], fixed := false, variants := [], decls := [], bindings := [], dmas := [],
    cores := [], stippleFmts := [], shmBanks := 0 }

/-- The content of a package of version 3: one variant with outer visit order NHWC (R186). -/
def oneVariant (c : PlanContent) : PlanContent :=
  { c with variants := (c.variants.take 1).map (fun v => { v with segs := v.segs.map (fun g => { g with outer := 1 }) }) }

/-- Whether the inlet of the SMI is bound to another context (R363). -/
def inletTaken (s : State) (c : Nat) : Bool := wbit s (smReg 0x10) 6 && decide (wfld s (smReg 0x10) 5 0 ≠ c)

/-- The inlet bound to a context (R363). -/
def bindInlet (s : State) (c : Nat) : State := setWord s (smReg 0x10) (BitVec.ofNat 32 (c % 64 + 64))

/-- LOAD_PACKAGE: chunks staged; the completing one runs the load checks. -/
def execLoadPackage (r : AcpReq) (s : State) : Out :=
  executing s r (fun s =>
    match sessionOf s r.sess with
    | none => s
    | some x =>
      if !chunksGood r then failReply s r stCOUNT 5 0x8020
      else if (transferOf x r.typ r.ctx).isNone ∧ 4 ≤ x.transfers.length then failReply s r stCOUNT 8 4
      else
        let old := (transferOf x r.typ r.ctx).getD { ident := 0, typ := r.typ, ctx := r.ctx, length := none, chunks := [], last := 0 }
        let t := addChunks old (tlvAll r 0x8020) 8 8 s.clk.up
        let closed := setSession s r.sess (some (dropTransfer x r.typ r.ctx))
        if (match t.length with | some n => decide (2 ^ 32 < n) | none => false) then failReply closed r stCOUNT 8 8
        else if !transferDone t then okReply (setSession s r.sess (some (putTransfer x t))) r []
        else
          let b := (assembled t.chunks).take (t.length.getD 0)
          let c0 := (match r.plan with | some c => some c | none => Config.planOf b).getD emptyPlan
          let c := if leAt b 4 1 = 3 then oneVariant c0 else c0
          match chkLoad closed b c with
          | some f => failReply closed r f.1 f.2.1 f.2.2
          | none =>
            if c.inlet && inletTaken closed r.ctx then failReply closed r stBUSY 8 (leAt b 16 4)
            else
            let closed := if c.inlet then bindInlet closed r.ctx else closed
            let p : Package := { ident := leAt b 16 4, ctx := r.ctx, content := c, tilesMin := leAt b 24 2 }
            okReply (takeGroups { closed with host := { closed.host with packages := closed.host.packages ++ [p] } } r.ctx c) r
              [objectTlv okPACKAGE p.ident])

end Sys2Proof.Machine
end

