-- ==== Sys2Proof/Machine/Imports.lean ====
section
/-!
DEFINITION. Sys2Proof/Machine/Imports.lean: what CREATE_STREAM and LAUNCH_JOB share: the exports and imports they carry (R350, R353,
R354), the partitions their work needs (R389, R391), failures that leave nothing open.
-/
namespace Sys2Proof.Machine

/-! ### Partitions -/

/-- The DDR5 controllers. -/
def ddrParts : List Nat := [36, 37, 38, 39]

/-- The partitions a stream's Stroke needs (R391). -/
def streamParts (x : Stream) : List Nat :=
  ([26 + dPort x / 4, 30] ++ (if dStage x = 1 then [31] else []) ++ tileParts (strokeTiles x) ++ ddrParts).eraseDups

/-- The partitions a job needs. -/
def jobParts (j : Job) : List Nat :=
  (tileParts j.tiles ++ j.cores.map (fun c => 18 + c) ++ j.chans.map (fun c => 32 + c / 32) ++ ddrParts).eraseDups

/-- Whether every partition of a list is on. -/
def allOn (s : State) (l : List Nat) : Bool := l.all (partOn s)

/-! ### Exports -/

/-- The EXPORT TLVs of a request: identifier, address or group, bytes, kind, read, write. -/
def exportTlvs (r : AcpReq) : List (Nat × Nat × Nat × Nat × Bool × Bool) :=
  (tlvAll r 0x8070).map (fun v => (leAt v 0 4, leAt v 4 8, leAt v 12 8, leAt v 20 1, decide (leAt v 21 1 % 2 = 1), decide (leAt v 21 1 / 2 % 2 = 1)))

/-- The IMPORT TLVs of a request: identifier, owner, wait in ms, I/O address. -/
def importTlvs (r : AcpReq) : List (Nat × Nat × Nat × Nat) :=
  (tlvAll r 0x8071).map (fun v => (leAt v 0 4, leAt v 4 2, (if leAt v 6 2 = 0 then 1000 else leAt v 6 2), leAt v 8 8))

/-- Whether a range of a translation context may be exported: each page is not mapped yet, lies in DDR5, or in SCRATCH banks of SHM that the
context holds (R350). -/
def exportable (s : State) (ctx xlate io bytes : Nat) : Bool :=
  (List.range (bytes / 4096)).all (fun i => match translate s xlate false (io + 4096 * i) with
    | none => true
    | some a => match locate a with
      | .ddr => true
      | .shm sl _ => decide ((shmOf s sl).mode = .scratch) && (match granuleAt (locate a) with
          | some g => decide ((granOf s g).st = .owned) && decide ((granOf s g).owner = some ctx)
          | none => false)
      | _ => false)

/-- The checks of a request's EXPORT and IMPORT TLVs (R350): links and licence first, then identifiers, sizes and alignment; a flag
export names its group in the address field (log 29). -/
def chkWindows (s : State) (r : AcpReq) (xlate : Nat) : Failed :=
  if (tlvAll r 0x8070).isEmpty && (tlvAll r 0x8071).isEmpty then none
  else
    let es := exportTlvs r
    firstOf [failIf (badLen r 0x8070 24) stCOUNT 5 0x8070, failIf (badLen r 0x8071 16) stCOUNT 5 0x8071,
      failIf (decide (gradeLinks s = 0)) stABSENT 7 0, failIf (!licensed s 1) stUNLICENSED 7 0,
      failIf (decide ((es.map (fun e => e.1)).eraseDups.length ≠ es.length)) stCOUNT 8 0x8070,
      es.findSome? (fun e => failIf (s.bridge.exports.any (fun x => x.ident = e.1) || decide (1 < e.2.2.2.1)) stCOUNT 8 e.1),
      es.findSome? (fun e => failIf (decide (e.2.2.2.1 = 1) && (decide (1024 ≤ e.2.1) || !flagAllowed s (some r.ctx) (64 * e.2.1))) stCOUNT 8 e.1),
      es.findSome? (fun e => failIf (decide (e.2.2.2.1 = 0) && (decide (e.2.1 % 0x200000 ≠ 0) || decide (e.2.2.1 % 0x200000 ≠ 0) ||
        decide (e.2.2.1 = 0))) stALIGN 8 e.1),
      es.findSome? (fun e => failIf (decide (e.2.2.2.1 = 0) && !exportable s r.ctx xlate e.2.1 e.2.2.1) stCOUNT 8 e.1),
      (importTlvs r).findSome? (fun i => failIf (decide (i.2.2.2 % 0x200000 ≠ 0)) stALIGN 8 i.1)]

/-- The SHM granules behind a buffer of a translation context. -/
def bufferGranules (s : State) (xlate io bytes : Nat) : List Nat :=
  ((List.range (bytes / 4096)).filterMap (fun i => match translate s xlate true (io + 4096 * i) with
    | some a => (match locate a with | .shm _ _ => granuleAt (locate a) | _ => none)
    | none => none)).eraseDups

/-- The exports of a request opened for an object; a memory buffer that is not mapped is mapped (R196), and senders that have asked for
the export are answered (R350). None when DDR5 is used up. -/
def openExports (s : State) (r : AcpReq) (xlate : Nat) (obj : Nat × Nat) : Option State :=
  (exportTlvs r).foldl (fun st e =>
    match st with
    | none => none
    | some s =>
      let add (s1 : State) (gs : List Nat) : State :=
        let mine (q : Nat × Nat × Nat) : Bool := decide (q.2.1 = e.1)
        { s1 with bridge := { s1.bridge with
          exports := s1.bridge.exports ++
            [{ ident := e.1, ctx := r.ctx, xlate := xlate, base := e.2.1, bytes := e.2.2.1, flagGroup := decide (e.2.2.2.1 = 1),
               read := e.2.2.2.2.1, write := e.2.2.2.2.2, obj := obj, granules := gs, closedAt := none }],
          answers := s1.bridge.answers ++ ((s1.bridge.asked.filter (fun q => mine q && decide (s1.clk.up < q.2.2))).map (fun q => (q.1, e.1, stOK))),
          asked := s1.bridge.asked.filter (fun q => !mine q) } }
      if e.2.2.2.1 = 1 then some (add s [])
      else (mapBuffer s r.ctx xlate e.2.1 e.2.2.1).map (fun s1 => add s1 (bufferGranules s1 xlate e.2.1 e.2.2.1))) (some s)

/-! ### Imports -/

/-- Whether a window of a request's import is open. -/
def importOpen (s : State) (r : AcpReq) (ident owner : Nat) : Bool :=
  (List.range 256).any (fun w => decide ((windowOf s w).st = .open') && decide ((windowOf s w).req = (r.sess, r.seq)) &&
    decide ((word s (winReg w 12)).toNat = ident) && decide (wfld s (winReg w 0) 29 16 = owner))

/-- The imports of a request that have no window yet. -/
def importsLeft (s : State) (r : AcpReq) : List (Nat × Nat × Nat × Nat) :=
  (importTlvs r).filter (fun i => !importOpen s r i.1 i.2.1)

/-- The owners asked for the imports that have not been asked for (R350). -/
def askImports (s : State) (r : AcpReq) (xlate : Nat) : State :=
  forAll (importsLeft s r) (fun s i =>
    if s.bridge.imports.any (fun w => w.ident = i.1 && w.owner = i.2.1 && w.sess = r.sess && w.seq = r.seq) then s
    else { s with bridge := { s.bridge with imports := s.bridge.imports ++
      [{ ident := i.1, owner := i.2.1, ctx := r.ctx, xlate := xlate, io := i.2.2.2, until' := s.clk.up + i.2.2.1 * 1000000,
         sess := r.sess, seq := r.seq }] } }) s

/-- A window and its range of the translation context removed. -/
def dropWindow (s : State) (w : Nat) : State :=
  let x := windowOf s w
  let s1 := forAll (List.range (wfld s (winReg w 8) 15 0)) (fun s i => (mapBig s x.xlate (x.io + i * 0x200000) 0 0).getD s) s
  setWindow (clearRegs s1 (winReg w 0) 0x20) w {}

/-- The imports and windows of a request given up: a request that fails opens nothing (R350). -/
def dropImports (s : State) (sess seq : Nat) : State :=
  let s1 := { s with bridge := { s.bridge with imports := s.bridge.imports.filter (fun i => !(decide (i.sess = sess) && decide (i.seq = seq))) } }
  forAll (List.range 256) (fun s w => if (windowOf s w).st ≠ .closed ∧ (windowOf s w).req = (sess, seq) then dropWindow s w else s) s1

/-- A request that fails after it may have asked for windows. -/
def failRequest (s : State) (r : AcpReq) (f : Nat × Nat × Nat) : State := failReply (dropImports s r.sess r.seq) r f.1 f.2.1 f.2.2

end Sys2Proof.Machine
end

