-- ==== Sys2Proof/Machine/StreamCmd.lean ====
section
/-!
DEFINITION. Sys2Proof/Machine/StreamCmd.lean: CREATE_STREAM, START_STREAM and SET_SETTINGS (R39, R40, R53, R54, R57 to R59, R62, R77,
R83, R84, R89 to R93, R104, R109, R113, R192, R193, R196, R290, R324, R325, R385, R387).
-/
namespace Sys2Proof.Machine

/-! ### The stream request and the profile (R54, R324) -/

/-- The first byte offset of a STREAM_REQ whose field lies outside its range. -/
def reqBad (v : List Byte) : Option Nat :=
  let f (off n : Nat) : Nat := leAt v off n
  let plane (b : Nat) : List (Bool × Nat) :=
    (List.range 3).flatMap (fun p => [(decide (2 ^ 40 ≤ f (b + 16 * p) 8), b + 16 * p), (decide (2 ^ 20 ≤ f (b + 8 + 16 * p) 4), b + 8 + 16 * p),
      (decide (f (b + 12 + 16 * p) 4 ≠ 0), b + 12 + 16 * p)])
  let sc := f 168 4; let sz := f 172 4
  let out (lo hi n : Nat) : Bool := decide (n < lo) || decide (hi < n)
  let checks : List (Bool × Nat) :=
    [(decide (f 0 4 = 0) && decide (f 16 1 ≠ 3), 0), (decide (15 < f 6 1), 6), (decide (f 7 1 / 16 % 4 = 3), 7), (out 1 4000000 (f 8 4), 8),
     (decide (3 < f 16 1), 16), (decide (3 < f 17 1) || (decide (f 17 1 = 3) && decide (f 16 1 < 2)), 17),
     (decide (f 18 1 % 4 = 3) || decide (16 ≤ f 18 1), 18), (out 1 4096 (f 20 2), 20), (out 1 64 (f 22 1), 22), (decide (f 23 1 ≠ 0), 23),
     (decide (2 ^ 40 ≤ f 24 8), 24), (decide (2 ^ 40 ≤ f 40 8), 40)] ++ plane 48 ++ [(decide (2 ^ 40 ≤ f 96 8), 96)] ++ plane 104 ++
    [(decide (2 ^ 14 ≤ f 152 2), 152), (decide (2 ^ 14 ≤ f 154 2), 154), (out 1 4096 (f 156 2), 156), (decide (f 158 2 ≠ 0), 158),
     (decide (2 ^ 40 ≤ f 160 8), 160), (out 1 32 (sc / 16 % 64) || out 1 32 (sc / 1024 % 64), 168),
     (decide (sz % 2 = 1) || decide (sz % 65536 < 2) || decide (8192 < sz % 65536) || decide (sz / 65536 % 2 = 1) || decide (sz / 65536 < 2) ||
       decide (8192 < sz / 65536), 172), (decide (2 ^ 24 ≤ f 176 4), 176), (decide (f 180 4 ≠ 0), 180)]
  (checks.find? (fun c => c.1)).map (fun c => c.2)

/-- Whether a profile contradicts R38 to R41 or the limits of the port registers (R54). A width or height of 0 is let through: R92 and
R192 give it a meaning (log 30). -/
def profileBad (f : SensorProfile) : Bool :=
  decide (8192 < f.width) || decide (16383 < f.height) || decide (f.exposures = 0) || decide (3 < f.exposures) ||
    decide (f.routes.length ≠ (if f.interleaved then 1 else f.exposures)) ||
    f.routes.any (fun v => decide (15 < v.1) || (dtBits v.2).isNone) ||
    (match f.embDt with | some d => decide (d ≠ 0x12) | none => !f.embLines.isEmpty) || decide (f.lanes = 0) || decide (4 < f.lanes) ||
    decide (f.rateMbps < 80) || decide (4500 < f.rateMbps) || (decide (1500 < f.rateMbps) && !f.deskew) || decide (255 < f.laneMap) ||
    decide (15 < f.invert) || decide (7 < f.bus) || decide (127 < f.addr) || decide (15 < f.trigPin) || decide (2 ^ 32 ≤ f.period) ||
    decide (2 ^ 16 ≤ f.tol) || decide (2 ^ 24 ≤ f.timeout) || decide (2 ^ 16 ≤ f.pad)

/-- The packet-map entries of a profile: virtual channel, data type, kind, exposure (R41, R62). -/
def mapEntries (f : SensorProfile) : List (Nat × Nat × Nat × Nat) :=
  f.routes.zipIdx.map (fun v => (v.1.1, v.1.2, 0, v.2)) ++
    (match f.embDt with | some d => [((f.routes.headD (0, 0)).1, d, 1, 0)] | none => [])

/-- A packet-map entry of a port. -/
def vcMap (s : State) (p k : Nat) : Word := word s (intakeBase p + 0x40 + 4 * k)

/-- Whether a (VC, DT) pair stands twice among new entries and the valid entries of a port (R39). -/
def vcRepeats (s : State) (p : Nat) (es : List (Nat × Nat × Nat × Nat)) : Bool :=
  let old : List (Nat × Nat) :=
    (List.range 16).filterMap (fun k => if bitOf (vcMap s p k) 0 then some (fld (vcMap s p k) 4 1, fld (vcMap s p k) 10 5) else none)
  let new : List (Nat × Nat) := es.map (fun e => (e.1, e.2.1))
  let all : List (Nat × Nat) := old ++ new
  decide (all.eraseDups.length ≠ all.length)

/-- Whether two valid banks of a port name one stream, a new stream's bank among them (R62). -/
def bankRepeats (s : State) (p new : Nat) : Bool :=
  let l := new :: (List.range 16).filterMap (fun k =>
    if bitOf (inWord s p k 0x34) 7 then some (fld (inWord s p k 0x34) 4 0) else none)
  decide (l.eraseDups.length ≠ l.length)

/-- The number of the next stream. -/
def nextStream (s : State) : Option Nat := findBelow (fun n => (streamOf s n).isNone) 32

/-- The free packet-map entries of a port. -/
def vcFree (s : State) (p : Nat) : List Nat := (List.range 16).filter (fun k => !bitOf (vcMap s p k) 0)

/-- The lowest free bank of a port (R62). -/
def freeBank (s : State) (p : Nat) : Option Nat := findBelow (fun k => !bitOf (inWord s p k 0x34) 7) 16

/-- The rows of an intake stripe (R53): the largest multiple of 8 that divides H, up to its cap. -/
def intakeRows (h exps w : Nat) : Nat :=
  let cap := if exps = 3 ∧ 3072 < w then 16 else 32
  (((List.range 4).map (fun i => 32 - 8 * i)).find? (fun k => decide (k ≤ cap) && decide (h % k = 0))).getD 8

/-! ### The choice and the placement of a Stroke -/

/-- The stripe height of a stream without a network (log 30). -/
def rawHeight : Nat := 32

/-- The first run of n SHM banks, one after the other, that a Plate output ring may take: SCRATCH, powered, of no owner (log 31). -/
def ringBanks (s : State) (n : Nat) : Option (List Nat) :=
  let ok (b : Nat) : Bool := decide ((shmOf s (b / 16)).mode = .scratch) && decide ((shmOf s (b / 16)).target = none) &&
    decide ((granOf s (8192 + b)).st ≠ .owned) && decide ((granOf s (8192 + b)).st ≠ .off) && decide ((granOf s (8192 + b)).grantWait = none)
  ((List.range (257 - n)).find? (fun b => (List.range n).all (fun i => ok (b + i)))).map (fun b => (List.range n).map (fun i => b + i))

/-- A stream with its strings: halo, height, strings, park buffers, estimate and string table of the descriptor (R91, R104). -/
def withFit (x : Stream) (p : Option Package) (f : Fit) : Stream :=
  let v := p.bind (fun q => q.content.variants[f.variant]?)
  let r := match p with | some q => radiusAt q.content f.h | none => 0
  let park := match v with | some w => if w.parkOff + 2 * w.parkBytes ≤ 32768 then 2 else 1 | none => 1
  let est := match v with | some w => estimate w [dWidth x, dHeight x, 1, 1] | none => 0
  let x1 := setDesc (setDesc x 8 (park * 2 ^ 20)) 0x28 est
  { putStrings x1 f.h r f.variant f.strings with
    variant := f.variant
    halo := r
    replan := none
    strings := f.strings.zipIdx.map (fun t =>
      ({ index := t.2, variant := f.variant, tiles := t.1, dispatch := true, inFlight := [], parked := [], credits := 0, remap := [] } : Strg)) }

/-- The I/O address at which Apgil maps the Plate output ring of a stream (R91, R95; log 31). -/
def ringIo (n : Nat) : Nat := 0xFE00000000 + n % 32 * 2 ^ 26

/-- A stream with a Plate output ring of at least 2H + 2r rows, when the banks are there; otherwise it has no row, and START_STREAM
fails the Plate ring check (R92, R95). -/
def withRing (s : State) (x : Stream) : Stream :=
  let rows := 2 * dH x + 2 * x.halo; let pitch := ringPitch x
  let put (y : Stream) (a n : Nat) : Stream := sealDesc (setDesc (setDesc (setDesc y 0x18 (a % 2 ^ 32)) 0x1C (a / 2 ^ 32)) 0x20 (min n 65535))
  let io := ringIo (dStream x)
  if pitch = 0 then put { x with shmBanks := [] } io rows
  else match ringBanks s (ceilDiv (rows * pitch) 0x40000) with
    | some l => put { x with shmBanks := l } io (l.length * 0x40000 / pitch)
    | none => put { x with shmBanks := [] } io 0

/-- The ring of a stream mapped to its SHM banks, one 4 KiB page after the other (R283); none when no page for a table is left. -/
def mapRing (s : State) (x : Stream) : Option State :=
  mapRange s (dXlate x) (dRing x) (shmBase + x.shmBanks.headD 0 * 0x40000) (x.shmBanks.length * 64)

/-- Every granule a Stroke works in asked for (R287, R288). -/
def askGranules (s : State) (x : Stream) (keep : Bool) : State :=
  forAll (strokeGranules x) (fun s g => if (granOf s g).st = .owned && (granOf s g).owner = some x.ctx then s else grantGranule s g x.ctx keep) s

/-- The tiles of a stream's strings bound to it (R141, R283). -/
def bindStrings (s : State) (x : Stream) : State :=
  forAll x.strings (fun s g => forAll (g.tiles.zip (segsOf s x g)) (fun s t => bindTile s t.1 x.ctx (dXlate x) t.2.logical) s) s

/-- A stream put in place with its strings: tiles bound, partitions enabled, granules asked for. -/
def installFit (s : State) (n : Nat) (x : Stream) : State :=
  askGranules (enableAll (bindStrings (setStream s n (some x)) x) (streamParts x)) x false

/-! ### PIPE_PARAMS (R325) -/

/-- The parts of a PIPE_PARAMS value: block, selector, first offset, words. -/
def pipeOf (v : List Byte) : Nat × Nat × Nat × List Nat :=
  (leAt v 0 1, leAt v 2 2, leAt v 4 4, (List.range ((v.length - 8) / 4)).map (fun i => leAt v (8 + 4 * i) 4))

/-- Whether a register word of a per-stream block is Apgil's alone: commit, status, counters, written and read counts; the bank
field of the first word (log 30). -/
def pipeReserved (block off v : Nat) : Bool :=
  if block = 0 then decide (off ∈ [0x04, 0x08, 0x64, 0x68, 0x80, 0x84, 0x88]) || (plateSpec off).isNone || (decide (off = 0) && decide (v / 16 % 2 = 1))
  else decide (off ∈ [0x04, 0x08]) || (colourSpec off).isNone || (decide (off = 0) && decide (v / 2 % 2 = 1))

/-- Whether the latched copy of another stream that runs uses a shading slot or a PCM entry. -/
def pipeUsed (s : State) (n block sel lo k : Nat) : Bool :=
  (streamList s).any (fun m => decide (m ≠ n) && streamCarries s m &&
    (let t := tget [] s.plLatch m
     if block = 4 then decide (fld (plWord t 0x48) 3 0 = sel)
     else decide (lo < fld (plWord t 0x40) 20 0 + fld (plWord t 0x44) 21 0) && decide (fld (plWord t 0x40) 20 0 < lo + k)))

/-- The status with which a PIPE_PARAMS value fails for a stream whose PCM segment is known. -/
def pipeStatus (s : State) (n : Nat) (v : List Byte) : Option Nat :=
  let q := pipeOf v; let k := q.2.2.2.length
  let base := wfld s (plReg n 0x40) 20 0; let count := wfld s (plReg n 0x44) 21 0
  if v.length < 12 ∨ v.length % 4 ≠ 0 ∨ 1016 < k then some stCOUNT
  else match q.1 with
    | 0 | 1 => if (q.2.2.2.zipIdx).any (fun w => pipeReserved q.1 (4 * (q.2.2.1 + w.2)) w.1) then some stCOUNT else none
    | 2 => if 2 < q.2.1 ∨ 257 < q.2.2.1 + k then some stCOUNT else none
    | 3 => if 2 < q.2.1 ∨ 512 < q.2.2.1 + k then some stCOUNT else none
    | 4 => if 15 < q.2.1 ∨ 0x4000 < q.2.2.1 + k then some stCOUNT else if pipeUsed s n 4 q.2.1 0 0 then some stBUSY else none
    | 5 => if k % 2 = 1 ∨ count < q.2.2.1 + k / 2 then some stCOUNT
           else if pipeUsed s n 5 0 (base + q.2.2.1) (k / 2) then some stBUSY else none
    | _ => some stCOUNT

/-- A word of a table memory or the PCM window written by Apgil; a word in use is left and ACCESS_DENIED raised (R84). -/
def tableWrite (s : State) (a v : Nat) : State :=
  let used := match locate a with | .block .front off => tableInUse s off | .pcm off => pcmInUse s off | _ => false
  let rw := match regSpec (locate a) with | some r => r.rw | none => 0
  if used then denied s (.mgmt 0) a else store s a (leBytes 4 (BitVec.ofNat 32 v &&& BitVec.ofNat 32 rw).toNat)

/-- The bank of a table memory that is not active for a stream: linearisation (2) or tone curves (3). -/
def idleBank (s : State) (n block : Nat) : Nat :=
  if streamCarries s n then
    (if block = 2 then 1 - fld (plWord (tget [] s.plLatch n) 0) 4 4 else 1 - fld (clWord (tget [] s.clLatch n) 0) 1 1)
  else if block = 2 then 1 - wfld s (plReg n 0) 4 4 else 1 - wfld s (clReg n 0) 1 1

/-- One PIPE_PARAMS value written: registers into the shadow copy, tables into the inactive bank given. -/
def pipeWrite (s : State) (n lin tone : Nat) (v : List Byte) : State :=
  let q := pipeOf v
  let words := q.2.2.2.zipIdx
  let regs (base : Nat) (spec : Nat → Option RegSpec) (bank : Nat) : State :=
    forAll words (fun s w =>
      let off := 4 * (q.2.2.1 + w.2)
      let rw := (match spec off with | some r => r.rw | none => 0) - (if off = 0 then bank else 0)
      setWord s (base + off) (mergeWord (word s (base + off)) (BitVec.ofNat 32 w.1) rw 0)) s
  let tab (a k : Nat) : State := forAll words (fun s w => tableWrite s (a + k * (q.2.2.1 + w.2)) w.1) s
  match q.1 with
  | 0 => regs (plReg n 0) plateSpec 0x10
  | 1 => regs (clReg n 0) colourSpec 2
  | 2 => setWfld (tab (frontBase + 0x10000 + n * 0x2000 + lin * 0x1000 + q.2.1 * 0x500) 4) (plReg n 0) 4 4 lin
  | 3 => setWfld (tab (frontBase + 0x80000 + n * 0x4000 + tone * 0x2000 + q.2.1 * 0x800) 4) (clReg n 0) 1 1 tone
  | 4 => tab (frontBase + 0x100000 + q.2.1 * 0x10000) 4
  | _ => forAll words (fun s w => tableWrite s (pcmBase + 8 * (wfld s (plReg n 0x40) 20 0 + q.2.2.1) + 4 * w.2) w.1) s

/-- Every PIPE_PARAMS of a request judged and written in order, or the first failure: its status. -/
def pipeAll (s : State) (n : Nat) (vs : List (List Byte)) : State × Option Nat :=
  let lin := idleBank s n 2; let tone := idleBank s n 3
  vs.foldl (fun st v =>
    match st.2 with
    | some _ => st
    | none => match pipeStatus st.1 n v with
      | some c => (st.1, some c)
      | none => (pipeWrite st.1 n lin tone v, none)) (s, none)

/-! ### CREATE_STREAM -/

/-- The descriptor of a new stream before its strings and ring (R91, R324). -/
def newDesc (ctx n stroke : Nat) (stage : Nat) (f : SensorProfile) (v : List Byte) : List Word :=
  let g (off k : Nat) : Nat := leAt v off k
  let o := g 7 1
  let planes (b : Nat) (at' : Nat) : List (Nat × Nat) :=
    (List.range 3).flatMap (fun p => [(at' + 12 * p, g (b + 16 * p) 4), (at' + 4 + 12 * p, g (b + 4 + 16 * p) 4), (at' + 8 + 12 * p, g (b + 8 + 16 * p) 4)])
  let put : List (Nat × Nat) :=
    [(0x00, 0x01000002), (0x04, ctx + n * 2 ^ 8 + g 6 1 * 2 ^ 16 + stage * 2 ^ 24 + o % 8 * 2 ^ 25), (0x0C, f.width + f.height * 2 ^ 16),
     (0x10, g 0 4), (0x14, stroke), (0x24, g 12 4), (0x2C, g 19 1), (0x38, g 24 4), (0x3C, g 28 4), (0x40, g 20 2), (0x44, g 32 2),
     (0x48, g 34 2 + g 36 2 * 2 ^ 16), (0x4C, g 176 4), (0x74, g 22 1), (0x78, g 40 4), (0x7C, g 44 4), (0xA4, g 96 4), (0xA8, g 100 4)] ++
    planes 48 0x50 ++ planes 104 0x80
  put.foldl (fun d e => d.set (e.1 / 4) (BitVec.ofNat 32 e.2)) (List.replicate 64 0)

/-- The colour stage of a stream (R78, R324): the one named; for either, stage 1 only when its group is on and it serves fewer
streams (log 30). -/
def stageOf (s : State) (o : Nat) : Nat :=
  let n (k : Nat) : Nat := ((streamList s).filter (fun i => match streamOf s i with | some x => decide (dStage x = k) | none => false)).length
  let gone (k : Nat) : Bool := decide (.colour k ∈ s.retire.others)
  if o / 16 % 4 < 2 then o / 16 % 4
  else if gone 0 || (partOn s 31 && decide (n 1 < n 0) && !gone 1) then 1 else 0

/-- The port, Plate and colour registers of a new stream (R62, R83, R324). How Apgil sets `IN_DEADLINE` is open (R51, log 1). -/
def streamRegs (s : State) (n : Nat) (x : Stream) (v : List Byte) : State :=
  let g (off k : Nat) : Nat := leAt v off k
  let f := x.profile; let p := dPort x; let k := x.bank; let o := g 7 1
  let d := freshNat 62 s
  let bank (s : State) (off w : Nat) : State := setWord s (bankKey p k off) (BitVec.ofNat 32 w)
  let s1 := bank d.2 0 (b2n f.triggered * 2 + b2n f.lineNumbers * 4 + o / 64 * 16 + f.trigPin * 2 ^ 8 + intakeRows (dH x) f.exposures f.width * 2 ^ 12)
  let s2 := bank (bank (bank (bank (bank (bank s1 0x10 (f.width + f.height * 2 ^ 16 + f.exposures * 2 ^ 30)) 0x14 f.pad) 0x18 f.timeout)
    0x1C f.period) 0x20 f.tol) 0x34 (n + 0x80)
  let s3 := forAll ((vcFree s2 p).zip (mapEntries f)) (fun s e =>
    setWord s (intakeBase p + 0x40 + 4 * e.1)
      (BitVec.ofNat 32 (1 + e.2.1 * 2 + e.2.2.1 * 2 ^ 5 + e.2.2.2.1 * 2 ^ 11 + e.2.2.2.2 * 2 ^ 13 + n * 2 ^ 15))) s2
  let s4 := setWord s3 (intakeBase p + 8) (BitVec.ofNat 32 (f.lanes + b2n f.contClock * 8 + b2n f.deskew * 16 + f.laneMap * 2 ^ 8 + f.invert * 2 ^ 16))
  let s5 := clearRegs (clearRegs s4 (plReg n 0) 0x100) (clReg n 0) 0x100
  let s6 := setWbit (setWbit s5 (plReg n 0) 0 true) (plReg n 0) 8 (decide (o / 8 % 2 = 1))
  let put (s : State) (a w : Nat) : State := setWord s a (BitVec.ofNat 32 w)
  let s7 := put (put (put (put (put (put s6 (plReg n 0x50) (g 168 4)) (plReg n 0x54) (g 172 4)) (plReg n 0x58) (g 160 4 / 64 * 64))
    (plReg n 0x5C) (g 164 4)) (plReg n 0x60) (g 156 2)) (plReg n 0x6C) (g 38 2)
  let s8 := put (put s7 (clReg n 0) (1 + b2n (decide (o / 4 % 2 = 1)) * 8 + g 16 1 * 2 ^ 4 + g 17 1 * 2 ^ 7 + g 18 1 % 4 * 2 ^ 9 + g 18 1 / 4 % 2 * 2 ^ 11 +
    g 18 1 / 8 % 2 * 2 ^ 12)) (clReg n 0x68) (g 152 2 + g 154 2 * 2 ^ 16)
  bank s8 0x24 d.1

/-- The checks of CREATE_STREAM before the plan is looked at (R5, R39, R40, R54, R62, R324, R331, R350); the profile is none where it cannot
be read. -/
def chkStream (s : State) (r : AcpReq) (v : List Byte) (prof : Option SensorProfile) : Failed :=
  let p := leAt v 6 1; let stage := leAt v 7 1 / 16 % 4
  let engine (i : Nat) : Failed := (engineStatus s i).map (fun st => (st, 7, i))
  let bad (g : SensorProfile → Bool) : Bool := match prof with | some f => g f | none => true
  byStep [failIf (decide (v.length ≠ 184)) stCOUNT 5 0x8030,
    (if 15 < p then none else engine (272 + p)),
    (if stage < 2 then engine (0x10010 + stage) else if (engine 0x10010).isSome then engine 0x10011 else none),
    failIf (bad (fun f => decide (f.exposures = 3)) && prof.isSome && !licensed s 2) stUNLICENSED 7 2,
    (reqBad v).map (fun o => (stCOUNT, 8, o)), failIf (bad profileBad) stCOUNT 8 0x8031,
    failIf (bad (fun f => vcRepeats s p (mapEntries f))) stCOUNT 8 0x8031,
    failIf (bad (fun f => decide ((vcFree s p).length < (mapEntries f).length))) stCOUNT 8 0x8031,
    failIf (freeBank s p).isNone stCOUNT 8 6, failIf (nextStream s).isNone stCOUNT 8 32,
    failIf (bankRepeats s p ((nextStream s).getD 32)) stCOUNT 8 6, chkWindows s r (leAt v 19 1)]

/-- The checks on the plan of a stream (R189, R192, R196), and what it gets. -/
def chkStreamPlan (s : State) (ctx : Nat) (v : List Byte) (f : SensorProfile) : Failed × Option Package × Fit :=
  let none' : Fit := { h := rawHeight, variant := 0, strings := [] }
  if leAt v 0 4 = 0 then (none, none, none')
  else match packageOf s (leAt v 0 4) with
    | none => (some (stCOUNT, 8, 0), none, none')
    | some p =>
      let nets := p.content.networks.filter (fun n => n.index = leAt v 4 2 && n.stroke)
      match firstOf [failIf (decide (p.ctx ≠ ctx)) stCOUNT 8 0, failIf nets.isEmpty stCOUNT 8 4, chkMinTiles s p] with
      | some e => (some e, none, none')
      | none =>
        match fitFor s p.content (List.range p.content.variants.length) (planHeights p.content) [] (leAt v 8 4) f.height f.width with
        | none => (some (stCOUNT, 8, 8), none, none')
        | some fit =>
          (chkInst s ctx (leAt v 19 1) p.content fit.variant fit.strings.length (some [leAt v 32 2, leAt v 34 2, leAt v 36 2])
            [f.width, fit.h, 1, 1], some p, fit)

/-- CREATE_STREAM once its checks have passed and its imports are open: stream, registers, parameters. A parameter that fails leaves
everything as it was. -/
def makeStream (s : State) (r : AcpReq) (v : List Byte) (f : SensorProfile) (p : Option Package) (fit : Fit) (n bank : Nat) : State :=
  let x0 : Stream :=
    { ctx := r.ctx, sess := r.sess, desc := newDesc r.ctx n (s.host.strokeIds + 1) (stageOf s (leAt v 7 1)) f v, profile := f, bank := bank,
      rate := leAt v 8 4, options := 0, network := leAt v 4 2 }
  let x := withRing s (withFit x0 p fit)
  let s1 := streamRegs { s with host := { s.host with strokeIds := s.host.strokeIds + 1 } } n x v
  let s2 := pipeAll s1 n (tlvAll r 0x8032)
  match s2.2 with
  | some st => failRequest s r (st, 8, 0x8032)
  | none =>
    let pl := plShadow s2.1 n; let cl := clShadow s2.1 n
    if plBad pl || clBad cl then failRequest s r (stCOUNT, 8, 0x8032)
    else
      let s3 := { s2.1 with plLatch := tset [] s2.1.plLatch n pl, clLatch := tset [] s2.1.clLatch n cl }
      match openExports (setBank s3 (dPort x) bank {}) r (dXlate x) (1, n) with
      | none => failRequest s r (stCOUNT, 8, 0x8070)
      | some s4 => match mapRing s4 x with
        | none => failRequest s r (stCOUNT, 8, 0)
        | some s5 => okReply (installFit s5 n x) r [objectTlv okSTREAM n]

/-- CREATE_STREAM: checks, imports asked for, and the stream once they are there. -/
def createStreamOp (r : AcpReq) (s : State) : State :=
  let v := (tlv r 0x8030).getD []
  let prof := match r.profile with | some f => some f | none => Config.profileOf ((tlv r 0x8031).getD [])
  match chkStream s r v prof, prof with
  | some e, _ => failRequest s r e
  | none, none => failRequest s r (stCOUNT, 8, 0x8031)
  | none, some f => match chkStreamPlan s r.ctx v f with
    | (some e, _, _) => failRequest s r e
    | (none, p, fit) =>
      if importsLeft s r ≠ [] then askImports s r (leAt v 19 1)
      else match nextStream s, freeBank s (leAt v 6 1) with
        | some n, some b => makeStream s r v f p fit n b
        | _, _ => failRequest s r (stCOUNT, 8, 32)

/-- CREATE_STREAM (R39, R40, R90, R192, R324, R325, R350). -/
def execCreateStream (r : AcpReq) (s : State) : Out := executing s r (createStreamOp r)

/-! ### START_STREAM -/

/-- The bytes of n samples of a depth code (R81). -/
def depthBytes (d n : Nat) : Nat := if d = 0 then n else if d = 1 then ceilDiv n 4 * 5 else 2 * n

/-- The planes a stream writes (R81): index, bytes of a line, rows. -/
def outPlanes (s : State) (n : Nat) (x : Stream) : List (Nat × Nat × Nat) :=
  let f := wfld s (clReg n 0) 6 4; let d := wfld s (clReg n 0) 8 7; let w := dWidth x; let h := dHeight x
  if f = 0 then [(0, depthBytes d w, h), (1, depthBytes d (ceilDiv w 2 * 2), ceilDiv h 2)]
  else if f = 1 then [(0, depthBytes d w, h), (1, depthBytes d (ceilDiv w 2 * 2), h)]
  else if f = 2 then (List.range 3).map (fun p => (p, depthBytes d w, h))
  else [(0, depthBytes d w, h)]

/-- The planes of a stream's detection copy (R82). -/
def detPlanes (s : State) (n : Nat) : List (Nat × Nat × Nat) :=
  if wbit s (clReg n 0) 3 then
    (List.range 3).map (fun p => (p, wfld s (clReg n 0x68) 13 0 * (if wbit s (clReg n 0) 12 then 2 else 1), wfld s (clReg n 0x68) 29 16))
  else []

/-- Whether a network's output suits the format (R92). -/
def outputSuits (x : Stream) (p : Option Package) (raw : Bool) : Bool :=
  match p with
  | none => true
  | some q => match q.content.networks.find? (fun k => k.index = x.network) with
    | some k => decide (k.outPlanes = (if raw then 1 else 3)) && decide (k.outBits = 16)
    | none => false

/-- The checks of START_STREAM, in the order of *Stroke launch checks* (R92). -/
def chkLaunch (s : State) (n : Nat) (x : Stream) : Failed :=
  let raw := decide (wfld s (clReg n 0) 6 4 = 3)
  let p := packageOf s (dPlan x)
  let net := p.bind (fun q => q.content.networks.find? (fun k => k.index = x.network))
  let v := variantOf s x
  let c (b : Bool) (st row : Nat) : Failed := failIf b st (0x100 + row) n
  firstOf [c (decide (fld (dw x 0) 7 0 ≠ 2)) stVERSION 1, c (decide (crcWords (x.desc.take 63) ≠ dw x 0xFC)) stCHECK 2,
    c (decide (gradePorts s ≤ dPort x)) stABSENT 3, c (decide (dStage x = 1) && !partOn s 31) stBUSY 4,
    c (decide (dH x < 8) || decide (128 < dH x) || decide (dH x % 8 ≠ 0)) stCOUNT 5,
    c (decide (8 < dStrings x) || (decide (dStrings x = 0) && !raw)) stCOUNT 6, c (!outputSuits x p raw) stCOUNT 7,
    c (decide (8192 < dWidth x)) stCOUNT 8, c (dReal x && decide (dDeadline x = 0)) stCOUNT 9,
    c (decide (dResultN x = 0) || decide (4096 < dResultN x)) stCOUNT 10, c (!xlateIs s (dXlate x) x.ctx) stCOUNT 11,
    c (match net with | some k => decide (k.maxW < dWidth x) || decide (k.maxH < dHeight x) | none => false) stSHAPE 12,
    c ((([dRing x, dResult x] ++ (List.range 3).flatMap (fun q => [dOutBase x q, dOutStride x q, dDetBase x q, dDetStride x q])).any
      (fun a => decide (a % 64 ≠ 0)))) stALIGN 13,
    c (decide (dRingRows x < 2 * dH x + 2 * dR x)) stSMALL 14,
    c ((outPlanes s n x).any (fun q => decide (dOutStride x q.1 < q.2.1)) || (detPlanes s n).any (fun q => decide (dDetStride x q.1 < q.2.1))) stSMALL 15,
    c (match v with
       | some w => decide (32768 < w.parkOff + dPark x * w.parkBytes) || decide (w.parkBytes < dH x * w.parkRow) || decide (w.parkRow < 2 * dWidth x)
       | none => false) stSMALL 16]

/-- The buffers a stream declares: result ring, output and detection slots, statistics ring (log 30). -/
def streamBuffers (s : State) (n : Nat) (x : Stream) : List (Nat × Nat) :=
  let slots (base pitch stride rows : Nat) : Nat × Nat := (base, (dOutSlots x - 1) * pitch + stride * rows)
  let frame : FrameRec := { seq := 0, csiNo := 0, start := 0, plate := plShadow s n }
  let stat := if wbit s (plReg n 0) 8 then
      [(wfld s (plReg n 0x58) 31 6 * 64 + wfld s (plReg n 0x5C) 7 0 * 2 ^ 32,
        64 + wfld s (plReg n 0x60) 12 0 * (statRecord n frame x.profile.exposures).length)] else []
  [(dResult x, 64 + 128 * dResultN x)] ++ (outPlanes s n x).map (fun q => slots (dOutBase x q.1) (dOutPitch x) (dOutStride x q.1) q.2.2) ++
    (detPlanes s n).map (fun q => slots (dDetBase x q.1) (dDetPitch x) (dDetStride x q.1) q.2.2) ++ stat

/-- Buffers mapped, none when DDR5 is used up. -/
def mapAll (s : State) (ctx xlate : Nat) (l : List (Nat × Nat)) : Option State :=
  l.foldl (fun st b => match st with | some s => mapBuffer s ctx xlate b.1 b.2 | none => none) (some s)

/-- The reservation of a real-time Stroke in mJ per window (R385). -/
def reserveOf (s : State) (x : Stream) (variant : Nat) (est : Nat) : Nat :=
  let k := match packageOf s (dPlan x) with | some p => variantK p variant | none => 1000
  ceilDiv (corrected est k * x.rate) 100000000

/-- Whether a reservation can be made (R385): under the context's budget, a pending one, and the device limit. -/
def canReserve (s : State) (c r : Nat) : Bool :=
  match contextOf s c with
  | none => false
  | some k =>
    let all := ((contextList s).map (fun i => match contextOf s i with | some y => y.reserved | none => 0)).sum
    decide (k.reserved + r ≤ budgetOf s c) && (match k.pendingBudget with | some b => decide (k.reserved + r ≤ b.1) | none => true) &&
      decide ((all + r) * 100 ≤ wfld s (powerBase + 0x800) 16 0)

/-- A reservation made. -/
def reserve (s : State) (c r : Nat) : State :=
  match contextOf s c with | some k => setContext s c (some { k with reserved := k.reserved + r }) | none => s

/-- Whether a stream passes the checks at instantiation with another choice of R192 (R196). -/
def fitChecked (s : State) (x : Stream) (p : Package) (f : Fit) : Bool :=
  (chkInst s x.ctx (dXlate x) p.content f.variant f.strings.length (some [dResultFlag x, dDetFlag x, dBruFlag x]) [dWidth x, f.h, 1, 1]).isNone

/-- The first other variant whose reservation can be made, whose tiles are free and which passes the checks at instantiation (R196, R387). -/
def otherVariant (s : State) (x : Stream) (p : Package) : Option (Fit × Nat) :=
  (List.range p.content.variants.length).findSome? (fun i =>
    if i = x.variant then none
    else match p.content.variants[i]? with
      | none => none
      | some v =>
        let r := reserveOf s x i (estimate v [dWidth x, dHeight x, 1, 1])
        if canReserve s x.ctx r then
          ((fitFor s p.content [i] (planHeights p.content) (strokeTiles x) x.rate (dHeight x) (dWidth x)).filter (fitChecked s x p)).map
            (fun f => (f, r))
        else none)

/-- A stream moved to another variant's strings: tiles and banks of the old ones given back (R387). -/
def refit (s : State) (n : Nat) (x : Stream) (p : Package) (f : Fit) : State × Stream :=
  let s1 := releaseAll (withdrawGrants s (strokeGranules x) x.ctx) (strokeGranules x) (.ended false)
  let s2 := unmapRing (forAll (strokeTiles x) unbindTile s1) x
  let y := withRing s2 (withFit { x with shmBanks := [] } (some p) f)
  let s3 := setWfld s2 (bankKey (dPort y) y.bank 0) 19 12 (intakeRows (dH y) y.profile.exposures y.profile.width)
  (installFit ((mapRing s3 y).getD s3) n y, y)

/-- The flags and the statistics ring's header that START_STREAM sets to 0 (R77, R104). -/
def startFlags (s : State) (n : Nat) (x : Stream) : State :=
  let s1 := setWord (forAll [dResultFlag x, dDetFlag x, dBruFlag x] (fun s f => apgilSet s f 0) s) (plReg n 0x64) 0
  (xlateStore s1 (.mgmt 0) (dXlate x) (wfld s1 (plReg n 0x58) 31 6 * 64 + wfld s1 (plReg n 0x5C) 7 0 * 2 ^ 32) (List.replicate 64 0)).getD s1

/-- A stream as a launch begins: counters, frames and rings of an earlier launch are gone. Drain mode asked for by START_STREAM holds for this
launch alone; the descriptor's bit is the stream's (R91, R113). -/
def freshLaunch (x : Stream) (opts launch reserved : Nat) (again : Option Nat) : Stream :=
  let x1 := setDesc (setDesc x 0x30 (launch % 2 ^ 32)) 0x34 (launch / 2 ^ 32)
  let x2 := match again with | some i => setDesc x1 0x14 i | none => x1
  sealDesc { x2 with
    options := opts
    phase := .launching
    start := 0
    stopAt := 0
    stopReq := []
    cut := false
    drain := launchDrain { x with options := opts }
    drainNext := none
    frames := []
    framesBegun := 0
    ring := []
    ringNext := 0
    nextStripe := 0
    markers := []
    head := 0
    written := 0
    lost := 0
    late := 0
    deferredN := 0
    completed := 0
    lastSeq := 0
    lastRec := 0
    chans := []
    strings := x2.strings.map (fun g => { g with dispatch := true, inFlight := [], passed := [], parked := [], credits := 0, remap := [],
                                                 toVariant := none })
    flagsOr := 0
    measured := 0
    measuredAt := 0
    estimated := 0
    reserved := reserved
    setsDone := []
    colourFrame := none
    rsRow := []
    rsNext := 0 }

/-- The stroke whose shape is zero (R92): one end record with EMPTY, nothing else. -/
def emptyStroke (s : State) (n : Nat) (x : Stream) : State :=
  endStroke (setStream s n (some { x with start := s.clk.now, stopAt := s.clk.now })) n stEMPTY

/-- Granules that a launch with KEEP of a stream launched with KEEP before no longer finds held (R290). -/
def keepLost (s : State) (x : Stream) (opts : Nat) : Nat :=
  if opts % 2 = 1 ∧ x.options % 2 = 1 ∧ x.phase = .ended then
    ((strokeGranules x).filter (fun g => match (granOf s g).hold with | some (.keep c _) => decide (c ≠ x.ctx) | _ => true)).length
  else 0

/-- The reply to START_STREAM, sent once every partition the Stroke needs is on (R389). -/
def answerStart (s : State) (n : Nat) : State :=
  match streamOf s n with
  | some x => match x.startReply with
    | some q =>
      if allOn s (streamParts x) then
        answer (setStream s n (some { x with startReply := none })) q.1 q.2.1 0x0031 x.ctx stOK (objectTlv okSTREAM n :: q.2.2)
      else s
    | none => s
  | none => s

/-- A launch whose checks and reservation are done (R93, R104, R385). -/
def beginLaunch (s : State) (n : Nat) (x : Stream) (r : AcpReq) (opts launch reserved : Nat) (named : List (Nat × List Byte)) : State :=
  let again := if x.phase = .ended then some (s.host.strokeIds + 1) else none
  let lost := keepLost s x opts
  let y := freshLaunch x opts launch reserved again
  let s1 := if again.isSome then { s with host := { s.host with strokeIds := s.host.strokeIds + 1 } } else s
  let s2 := startFlags (reserve (setStream s1 n (some y)) y.ctx reserved) n y
  if dWidth y = 0 ∨ dHeight y = 0 then
    answer (emptyStroke s2 n y) r.sess r.seq r.typ r.ctx stEMPTY (objectTlv okSTREAM n :: named)
  else
    let s3 := setWbit (askGranules (enableAll s2 (streamParts y)) y (decide (opts % 2 = 1))) (intakeBase (dPort y)) 0 true
    let s4 := if lost = 0 then s3 else noticeCtx s3 y.ctx (mkNotice s3 0x0035 stOK 15 okSTREAM n y.ctx (leBytes 4 lost) [])
    answerStart (updStream s4 n (fun z => { z with startReply := some (r.sess, r.seq, named) })) n

/-- START_STREAM (R77, R92, R93, R104, R109, R113, R196, R290, R385, R387, R389): LAUNCH_OPTS may carry KEEP, drain and a launch time.
A reply that names another variant carries it as TLV 0x0039 (log 24). -/
def execStartStream (r : AcpReq) (s : State) : Out :=
  onObject s r 1 (fun s n =>
    match streamOf s n with
    | none => failReply s r stCOUNT 8 n
    | some x =>
      let v := (tlv r 0x8033).getD (List.replicate 12 0)
      if v.length ≠ 12 ∨ 4 ≤ leAt v 0 4 then failReply s r stCOUNT 8 0x8033
      else if carries x then failReply s r stBUSY 8 n
      else match chkLaunch s n x with
        | some e => failReply s r e.1 e.2.1 e.2.2
        | none => match mapAll s x.ctx (dXlate x) (streamBuffers s n x) with
          | none => failReply s r stCOUNT 8 n
          | some s1 =>
            let res := reserveOf s1 x x.variant (frameEstimate x)
            if dWidth x = 0 ∨ dHeight x = 0 then beginLaunch s1 n x r (leAt v 0 4) (leAt v 4 8) 0 []
            else if !dReal x then beginLaunch s1 n x r (leAt v 0 4) (leAt v 4 8) 0 []
            else if canReserve s1 x.ctx res then beginLaunch s1 n x r (leAt v 0 4) (leAt v 4 8) res []
            else match (match contextOf s1 x.ctx, packageOf s1 (dPlan x) with
                | some c, some p => if c.variants then (otherVariant s1 x p).map (fun o => (p, o.1, o.2)) else none
                | _, _ => none) with
              | none => failReply s r stENERGY 8 n
              | some (p, f, res2) =>
                let t := refit s1 n x p f
                match chkLaunch t.1 n t.2 with
                | some e => failReply s r e.1 e.2.1 e.2.2
                | none => beginLaunch t.1 n t.2 r (leAt v 0 4) (leAt v 4 8) res2 [(0x0039, leBytes 2 f.variant)])

/-! ### SET_SETTINGS -/

/-- The values of a SETTINGS_SET: identifier, target, exposure and gain of each exposure. -/
def settingsOf (v : List Byte) : Nat × Nat × List (Nat × Nat) :=
  (leAt v 0 2, leAt v 2 4, (List.range ((v.length - 6) / 6)).map (fun i => (leAt v (6 + 6 * i) 4, leAt v (10 + 6 * i) 2)))

/-- A commit by Apgil of the shadow copies that a request changed (R83, R325). -/
def commitPipes (s : State) (n : Nat) (vs : List (List Byte)) (target : Option Nat) : State :=
  let value : Word := match target with | some t => BitVec.ofNat 32 (3 + t % 65536 * 65536) | none => 1
  let touched (bs : List Nat) : Bool := vs.any (fun v => decide (leAt v 0 1 ∈ bs))
  let s1 := if touched [0, 2] then commitPlate s n value else s
  if touched [1, 3] then commitColour s1 n value else s1

/-- SET_SETTINGS (R57 to R59, R325). -/
def execSetSettings (r : AcpReq) (s : State) : Out :=
  onObject s r 1 (fun s n =>
    match streamOf s n with
    | none => failReply s r stCOUNT 8 n
    | some x =>
      let pipes := tlvAll r 0x8032
      let set := (tlv r 0x8034).map settingsOf
      if (match tlv r 0x8034 with | some v => decide (v.length ≠ 6 + 6 * x.profile.exposures) | none => false) then failReply s r stCOUNT 5 0x8034
      else if x.phase = .ended ∨ x.phase = .stopping then failReply s r stCANCELLED 8 n
      else
        let p := pipeAll s n pipes
        match p.2 with
        | some st => failReply s r st 8 0x8032
        | none =>
          let s1 := commitPipes p.1 n pipes (set.map (fun q => q.2.1))
          match set with
          | none => okReply s1 r []
          | some q =>
            let t := scheduleSet s1 n x q.1 q.2.1 q.2.2
            okReply t.1 r [(0x0035, leBytes 4 (b2n t.2.2) ++ leBytes 4 t.2.1)])

end Sys2Proof.Machine
end

