-- ==== Sys2Proof/Machine/JobCmd.lean ====
section
/-!
DEFINITION. Sys2Proof/Machine/JobCmd.lean: LAUNCH_JOB: its checks, admission, placement, start, zero shapes and the limit on held
launches (R15, R192, R193, R196, R198, R199, R202, R217, R223, R255, R259, R270, R287, R290, R350, R386, R387, R389, R446, R469).
-/
namespace Sys2Proof.Machine

/-! ### The request -/

/-- A JOB value: plan, network, shape, rate in Hz, buffers. -/
def jobTlv (v : List Byte) : Nat × Nat × List Nat × Nat × List (Nat × Nat) :=
  (leAt v 0 4, leAt v 4 2, (List.range 4).map (fun i => leAt v (6 + 2 * i) 2), leAt v 14 4,
    (List.range ((v.length - 18) / 16)).map (fun i => (leAt v (18 + 16 * i) 8, leAt v (26 + 16 * i) 8)))

/-! ### Zero shapes (R199) -/

/-- The SIGNALs of a tile program in program order, its loops unrolled: flag, whether ADD, operand. -/
def tileSignals (ws : List Word) : List (Nat × Bool × Word) :=
  (tileRun unrollFuel ws 0 []).filterMap (fun r =>
    let w := r.2.getD 0 0
    if fld w 3 0 = 5 then some (fld w 31 16, bitOf w 4, r.2.getD 1 0) else none)

/-- The SIGNALs of an Etch image in program order (R199). -/
def imageSignals (e : EtchImage) : List (Nat × Bool × Word) :=
  etchSignals unrollFuel (imageBundles e) (memScatter [] e.segs) { pc := e.entry % 8192 }

/-- What a DMA program signals: a flag update or a pulse of a request line. -/
inductive DmaOut where
  | flag (f : Nat) (add : Bool) (v : Word)
  | line (l : Nat)
  deriving DecidableEq, Repr

/-- The SIGNALs and event pulses of a DMA program in program order, its loops unrolled and steps applied (R259). -/
def dmaSignals (ws : List Word) : List DmaOut :=
  (dmaItems ws).filterMap (fun r =>
    let w := r.1.getD 0 0
    if fld w 3 0 = 4 then some (.flag (fld w 31 16) (bitOf w 4) (r.1.getD 1 0))
    else if fld w 3 0 = 1 ∧ mEvent r.2 = 1 then some (.flag r.2.target true 1)
    else if fld w 3 0 = 1 ∧ mEvent r.2 = 3 then some (.line (r.2.target % 256)) else none)

/-- The SIGNALs and increments of a job of zero shape (R199): tile programs by logical tile, Etch images by logical core, DMA programs in
the order of their section. -/
def zeroSignals (s : State) (c : PlanContent) (v : Variant) : State :=
  let tiles := sortBy (fun (t : TileProg) => t.logical) v.tiles
  let cores := sortBy (fun (e : EtchImage) => e.logical) c.cores
  let s1 := forAll (tiles.flatMap (fun t => tileSignals t.words) ++ cores.flatMap imageSignals) (fun s e => apgilFlag s e.1 e.2.1 e.2.2) s
  forAll (c.dmas.flatMap (fun d => dmaSignals d.words)) (fun s o => match o with
    | .flag f a w => apgilFlag s f a w
    | .line l => if (lineChan s l).isSome && pulseFits s l 1 then pulseLine s l 1 else s) s1

/-! ### Placement (R192, R193) -/

/-- What a job gets: variant, tiles of its strings, cores, channels. -/
structure JobFit where
  variant : Nat
  strings : List (List Nat)
  cores : List Nat
  chans : List Nat
  deriving DecidableEq, Repr

/-- Cores free for a job. -/
def freeCores (s : State) : List Nat :=
  (List.range 8).filter (fun n => coreInService s n && decide (coreCtx s n = none) &&
    (decide ((coreOf s n).st = .idle) || decide ((coreOf s n).st = .done)))

/-- The cores a job takes: one for each image while the service has them; images beyond wait for a turn (R223, R446). -/
def coresNeeded (s : State) (c : PlanContent) : Nat := min c.cores.length ((List.range 8).filter (coreInService s)).length

/-- The choice of R192 for a job among some variants: one pass of the launch rate, on a number of free tiles. -/
def jobChoice (c : PlanContent) (only : List Nat) (free : Nat) (shape : List Nat) (rate : Nat) : Option (Nat × Nat) :=
  (bestAt c only free (rate * 1000) (shape.getD 1 0) (shape.getD 1 0) (shape.getD 0 0)).map (fun b => (b.1, b.2.1))

/-- The choice placed on what is free now. -/
def jobFit (s : State) (c : PlanContent) (only : List Nat) (shape : List Nat) (rate : Nat) : Option JobFit :=
  match jobChoice c only (freeTiles s).length shape rate with
  | none => none
  | some ch => match c.variants[ch.1]? with
    | none => none
    | some v => match placeStrings ch.2 (freeTiles s) v with
      | none => none
      | some l =>
        if coresNeeded s c ≤ (freeCores s).length ∧ (c.cores = [] ∨ 0 < coresNeeded s c) ∧ c.dmas.length ≤ (freeChans s).length then
          some { variant := ch.1, strings := l, cores := (freeCores s).take (coresNeeded s c), chans := (freeChans s).take c.dmas.length }
        else none

/-! ### Admission (R386, R387) -/

/-- The corrected estimate of a variant of a package at a shape. -/
def jobCost (p : Package) (i : Nat) (shape : List Nat) : Nat :=
  match p.content.variants[i]? with | some v => corrected (estimate v shape) (variantK p i) | none => 0

/-- The variants a job may run as: all with variants allowed, else the main one. -/
def allowedVariants (s : State) (ctx main : Nat) (p : Package) : List Nat :=
  match contextOf s ctx with
  | some c => if c.variants then List.range p.content.variants.length else [main]
  | none => [main]

/-- A placement of a job that passes the checks at instantiation (R196). -/
def jobFitGood (s : State) (ctx : Nat) (p : Package) (only : List Nat) (shape : List Nat) (rate : Nat) : Option JobFit :=
  (jobFit s p.content only shape rate).filter (fun f => (chkInst s ctx ctx p.content f.variant f.strings.length none shape).isNone)

/-- What a job is admitted with now: the main choice when the energy covers it, otherwise the first variant that fits. -/
def jobAdmit (s : State) (ctx main : Nat) (p : Package) (shape : List Nat) (rate : Nat) : Option JobFit :=
  let fits (i : Nat) : Bool := decide (((jobCost p i shape : Nat) : Int) ≤ available s ctx)
  let other (v : Nat) : Option JobFit :=
    (allowedVariants s ctx v p).findSome? (fun i => if fits i then jobFitGood s ctx p [i] shape rate else none)
  match jobFitGood s ctx p (List.range p.content.variants.length) shape rate with
  | some f => if fits f.variant then some f else other f.variant
  | none => other main

/-- Whether energy is short for every variant a job may run as. -/
def energyLacks (s : State) (ctx main : Nat) (p : Package) (shape : List Nat) : Bool :=
  (allowedVariants s ctx main p).all (fun i => decide (available s ctx < ((jobCost p i shape : Nat) : Int)))

/-- Whether an earlier launch of the context is held (R386: held launches go in launch order). -/
def othersHeld (s : State) (ctx jn : Nat) : Bool :=
  (jobList s).any (fun k => decide (k ≠ jn) && (match jobOf s k with | some j => decide (j.ctx = ctx) && decide (j.st = .held) | none => false))

/-! ### Engines of a job -/

/-- The images of a job bound to its cores (R223); those beyond the cores wait for their turns (R446). -/
def assignCores (s : State) (jn : Nat) (p : Package) (cores : List Nat) : State :=
  let c := p.content
  let n := cores.length
  match jobOf s jn with
  | none => s
  | some j =>
    let j' := { j with cores := cores, turns := (List.range (c.cores.length - n)).map (fun i => (cores.getD (i % max 1 n) 0, n + i)) }
    forAll (cores.zip c.cores) (fun s e => setWord s (ecReg e.1 0x10) (BitVec.ofNat 32 (j.ctx % 64 + e.2.logical % 8 * 2 ^ 16)))
      (setJob s jn (some j'))

/-- The engines of an admitted job bound, their granules asked for, their lines bound (R141, R223, R255, R270, R283, R287, R389). -/
def bindJob (s : State) (jn : Nat) (p : Package) (ctx : Nat) (f : JobFit) (keep : Bool) : State :=
  let segs := match p.content.variants[f.variant]? with | some v => v.segs | none => []
  let s1 := forAll f.strings (fun s l => forAll (l.zip segs) (fun s t =>
    bindTile (setTile s t.1 { tileOf s t.1 with st := .idle }) t.1 ctx ctx t.2.logical) s) s
  let s2 := assignCores s1 jn p f.cores
  let s3 := forAll (f.chans.zip p.content.dmas) (fun s e => bindChan s e.1 ctx ctx e.2.lines) s2
  forAll (f.strings.flatten.flatMap tileGranules ++ f.cores.flatMap coreGranules) (fun s g => grantGranule s g ctx keep) s3

/-- Granules of a job that a launch with KEEP finds held for its context, and those it does not (R290). -/
def keepSplit (s : State) (ctx : Nat) (f : JobFit) : Nat × Nat :=
  let gs := f.strings.flatten.flatMap tileGranules ++ f.cores.flatMap coreGranules
  let held := gs.filter (fun g => match (granOf s g).hold with | some (.keep c _) => decide (c = ctx) | _ => false)
  (held.length, gs.length - held.length)

/-- The channel programs of a job as Apgil generates them for its placement (R194, R249). -/
def jobDmas (j : Job) (p : Package) : List (List Word) :=
  let segs := match p.content.variants[j.variant]? with | some v => v.segs | none => []
  let turned := j.turns.map (fun e => (((p.content.cores[e.2]?).map (fun c => c.logical)).getD 16, e.1))
  p.content.dmas.map (fun d => bindDma p.content j.variant d ((segs.map (fun g => g.logical)).zip j.first)
    ((p.content.cores.map (fun e => e.logical)).zip j.cores ++ turned))

/-- The programs of a placed job loaded, and its engines started; with programs that load its tiles those run first (R119, R137, R191, R202,
R217, R249, R268). -/
def startJob (s : State) (jn : Nat) (j : Job) (p : Package) : State :=
  let c := p.content
  let segs := match c.variants[j.variant]? with | some v => v.segs | none => []
  let progs := match c.variants[j.variant]? with | some v => v.tiles | none => []
  let load (s : State) (t : Nat × Segment) : State :=
    match progs.find? (fun q => q.logical = t.2.logical) with
    | some q => loadTile s t.1 q (bindProg c j.variant q j.shape) j.shape
    | none => s
  let s1 := forAll (j.cores.zip c.cores) (fun s e => loadCore s e.1 j.ctx e.2) (forAll (j.first.zip segs) load s)
  let s2 := if j.chans = [] then s1
    else forAll j.cores (fun s n => mapEngine s j.ctx (coreIo n) (coreBase n))
      (forAll j.tiles (fun s n => mapEngine s j.ctx (tileIo n) (tileBase n)) s1)
  let s3 := forAll (j.chans.zip (jobDmas j p)) (fun s e => loadChan s e.1 j.ctx j.ctx e.2) s2
  let k := { j with st := .running, loading := true }
  let s4 := setJob s3 jn (some k)
  let pre := jobChans s4 k true
  let s5 := if pre = [] then goJob s4 jn k else forAll pre chanGo s4
  answer s5 j.req.sess j.req.seq j.req.typ j.ctx stOK [objectTlv okJOB jn, (0x0039, leBytes 2 j.variant)]

/-- Whether a placed job's engines are there: its partitions on, its granules its context's, its launch time reached, every engine IDLE or
DONE (R288, R389, R469). -/
def jobReady (s : State) (j : Job) : Bool :=
  decide (j.launchAt ≤ s.clk.now) && allOn s (jobParts j) && !cancelDue s j.ctx &&
    granted s j.ctx (j.tiles.flatMap tileGranules ++ j.cores.flatMap coreGranules) && j.tiles.all (tileReady s) &&
    j.cores.all (fun n => !heldInReset s (.core n) && (decide ((coreOf s n).st = .idle) || decide ((coreOf s n).st = .done))) &&
    j.chans.all (fun c => !heldInReset s (.dma (c / 32)) && chanFree (chanOf s c))

/-- An engine of a placed job in ERROR or out of service (R469). -/
def coreLost (s : State) (n : Nat) : Bool := !heldInReset s (.core n) && (decide ((coreOf s n).st = .error) || !coreInService s n)
def chanLost (s : State) (c : Nat) : Bool := !heldInReset s (.dma (c / 32)) && decide ((chanOf s c).st = .error)

/-- A lost tile of a placed job replaced by a spare, or by a free tile in service (R204, R206, R469). -/
def swapTile (s : State) (jn t : Nat) (j : Job) : State :=
  match (match spareFor s with | some r => some r | none => findBelow (freeTile s) 72) with
  | none => endJob s jn stRETIRED
  | some r =>
    let put (n : Nat) : Nat := if n = t then r else n
    let s1 := bindTile (unbindTile (serveFor s t r) t) r j.ctx j.ctx (wfld s (gtReg t 0x10) 22 16)
    let k := { j with tiles := j.tiles.map put, first := j.first.map put }
    enableAll (forAll (tileGranules r) (fun s g => grantGranule s g j.ctx j.keep) (setJob s1 jn (some k))) (jobParts k)

/-- A lost core of a placed job replaced by a free one; without one its images run in turn on the job's others (R223, R446, R469). -/
def swapCore (s : State) (jn n : Nat) (j : Job) (p : Package) : State :=
  let rest := j.cores.filter (fun m => m ≠ n)
  match (freeCores s).head? with
  | some r =>
    let cores := j.cores.map (fun m => if m = n then r else m)
    let s1 := assignCores (unbindCore (releaseCore s n .killed) n) jn p cores
    enableAll (forAll (coreGranules r) (fun s g => grantGranule s g j.ctx j.keep) s1) (jobParts { j with cores := cores })
  | none => if rest = [] then endJob s jn stRETIRED else assignCores (unbindCore (releaseCore s n .killed) n) jn p rest

/-- A lost channel of a placed job replaced by a free one (R469). -/
def swapChan (s : State) (jn c : Nat) (j : Job) (p : Package) : State :=
  match (freeChans s).head? with
  | none => endJob s jn stRETIRED
  | some r =>
    let chans := j.chans.map (fun d => if d = c then r else d)
    let lines := match p.content.dmas[j.chans.idxOf c]? with | some d => d.lines | none => []
    let k := { j with chans := chans }
    enableAll (setJob (bindChan (unbindChan s c) r j.ctx j.ctx lines) jn (some k)) (jobParts k)

/-- A placed job examined: a lost engine is replaced, else it starts once it is ready. -/
def placedJob (s : State) (jn : Nat) (j : Job) (p : Package) : State :=
  match j.tiles.find? (tileLost s), j.cores.find? (coreLost s), j.chans.find? (chanLost s) with
  | some t, _, _ => swapTile s jn t j
  | none, some n, _ => swapCore s jn n j p
  | none, none, some c => swapChan s jn c j p
  | none, none, none => if jobReady s j then startJob s jn j p else s

/-- Every placed job examined. -/
def jobsGo (s : State) : State :=
  forAll (jobList s) (fun s jn => match jobOf s jn with
    | some j => if j.st = .placed then (match packageOf s j.plan with | some p => placedJob s jn j p | none => s) else s
    | none => s) s

/-- An admitted job placed: its engines bound, its exports open; it starts when they are ready. -/
def placeJob (s : State) (jn : Nat) (j : Job) (p : Package) (f : JobFit) : State :=
  let split := keepSplit s j.ctx f
  let cost := jobCost p f.variant j.shape
  let est := match p.content.variants[f.variant]? with | some v => estimate v j.shape | none => 0
  let k : Job :=
    { j with st := .placed, variant := f.variant, tiles := f.strings.flatten, first := f.strings.headD [], cores := f.cores,
             chans := f.chans, corrected := cost, estimate := est }
  let s1 := enableAll (bindJob (setJob s jn (some k)) jn p j.ctx f j.keep) (jobParts k)
  let s2 := if j.keep ∧ 0 < split.1 ∧ 0 < split.2 then
      noticeCtx s1 j.ctx (mkNotice s1 0x0035 stOK 15 okJOB jn j.ctx (leBytes 4 split.2) []) else s1
  jobsGo s2

/-- A launch that is not admitted: held, and its host told (R327, R386). -/
def holdJob (s : State) (jn : Nat) (j : Job) : State :=
  notify (setJob s jn (some j)) j.ctx 0x0035 stENERGY 7 okJOB jn
    (leBytes 8 j.corrected ++ leBytes 8 (wrapI 64 (available s j.ctx))) []

/-! ### LAUNCH_JOB -/

/-- The checks of a launch up to the plan (R326, R334, R350). -/
def chkJob (s : State) (r : AcpReq) (v o : List Byte) : Failed :=
  let q := jobTlv v
  byStep [failIf (decide (v.length < 18) || decide ((v.length - 18) % 16 ≠ 0)) stCOUNT 5 0x8036,
    failIf (decide (o.length ≠ 12) || decide (4 ≤ leAt o 0 4)) stCOUNT 8 0x8033, chkWindows s r r.ctx,
    failIf (match packageOf s q.1 with | some p => decide (p.ctx ≠ r.ctx) | none => true) stCOUNT 8 0,
    failIf (q.2.2.2.2.any (fun b => decide (2 ^ 40 < b.1 + b.2))) stCOUNT 8 18]

/-- Whether an item can never be admitted: its corrected estimate exceeds cap × budget for every variant it may run as (R386). -/
def neverFits (s : State) (ctx main : Nat) (p : Package) (shape : List Nat) : Bool :=
  (allowedVariants s ctx main p).all (fun i => decide (capOf s ctx * budgetOf s ctx * 1000 < jobCost p i shape))

/-- A launch whose shape has a zero (R199): signals, EMPTY, no engine. -/
def zeroJob (s : State) (r : AcpReq) (p : Package) (jn plan : Nat) : State :=
  let s1 := match p.content.variants[0]? with | some v => zeroSignals s p.content v | none => s
  let s2 := answer s1 r.sess r.seq r.typ r.ctx stEMPTY (routeTlv r ++ [objectTlv okJOB jn])
  notify s2 r.ctx 0x0035 stEMPTY 6 okJOB jn (leBytes 4 plan ++ leBytes 2 0)
    [(0x0013, energyState s2 r.ctx), (0x0014, leBytes 8 0 ++ leBytes 8 0 ++ leBytes 2 0 ++ leBytes 2 0)]

/-- LAUNCH_JOB: buffers mapped, checks, imports, then admission. A launch that fails leaves the context as it was. -/
def launchJobOp (r : AcpReq) (s : State) : State :=
  let v := (tlv r 0x8036).getD []
  let o := (tlv r 0x8033).getD (List.replicate 12 0)
  let q := jobTlv v
  let shape := q.2.2.1; let rate := q.2.2.2.1
  match chkJob s r v o, packageOf s q.1 with
  | some e, _ => failRequest s r e
  | none, none => failRequest s r (stCOUNT, 8, 0)
  | none, some p =>
    match p.content.networks.find? (fun n => n.index = q.2.1) with
    | none => failRequest s r (stCOUNT, 8, 4)
    | some net =>
      let large := decide (net.maxW < shape.getD 0 0) || decide (net.maxH < shape.getD 1 0) || decide (net.maxN < shape.getD 2 0) ||
        decide (net.maxT < shape.getD 3 0)
      match findFrom (fun i => (jobOf s (i % 65536)).isNone) 65536 s.host.nextJob with
      | none => failRequest s r (stCOUNT, 8, 65536)
      | some i =>
        let jn := i % 65536
        if decide (0 ∈ shape) && !large then
          (if importsLeft s r ≠ [] then askImports s r r.ctx
           else zeroJob { s with host := { s.host with nextJob := jn + 1 } } r p jn q.1)
        else match chkMinTiles s p, jobChoice p.content (List.range p.content.variants.length) s.retire.inService.length shape rate,
            mapAll s r.ctx r.ctx q.2.2.2.2 with
          | some e, _, _ => failRequest s r e
          | none, none, _ => failRequest s r (if large then (stSHAPE, 0x212, 0) else (stCOUNT, 8, 6))
          | none, _, none => failRequest s r (if large then (stSHAPE, 0x212, 0) else (stCOUNT, 8, 18))
          | none, some ch, some s1 =>
            match firstOf [chkInst s1 r.ctx r.ctx p.content ch.1 ch.2 none shape, failIf large stSHAPE 0x212 0,
                failIf (neverFits s1 r.ctx ch.1 p shape) stCOUNT 8 14] with
            | some e => failRequest s r e
            | none =>
              if importsLeft s1 r ≠ [] then askImports s r r.ctx
              else match openExports s1 r r.ctx (2, jn) with
                | none => failRequest s r (stCOUNT, 8, 0x8070)
                | some s2 =>
                  let s3 := { s2 with host := { s2.host with nextJob := jn + 1 } }
                  let exported := ((exportTlvs r).filter (fun e => decide (e.2.2.2.1 = 0))).map (fun e => (e.2.1, e.2.2.1))
                  let j : Job :=
                    { ctx := r.ctx, plan := q.1, network := q.2.1, variant := ch.1, req := r, st := .held, shape := shape,
                      estimate := (match p.content.variants[ch.1]? with | some w => estimate w shape | none => 0),
                      corrected := jobCost p ch.1 shape, measured := 0, heldAt := s.clk.up, energyShort := energyLacks s3 r.ctx ch.1 p shape,
                      tiles := [], cores := [], chans := [], keep := decide (leAt o 0 4 % 2 = 1), drain := decide (leAt o 0 4 / 2 % 2 = 1),
                      launchAt := leAt o 4 8, first := [], mapped := unmappedPages s r.ctx (q.2.2.2.2 ++ exported) }
                  match (if othersHeld s3 r.ctx jn then none else jobAdmit s3 r.ctx ch.1 p shape rate) with
                  | some f => placeJob s3 jn j p f
                  | none => holdJob s3 jn j

/-- LAUNCH_JOB (R192, R196, R199, R350, R386, R387): the reply comes when the job starts or is rejected; TLV 0x0039 names the variant
(log 24). A request whose job is held or placed already waits for it. -/
def execLaunchJob (r : AcpReq) (s : State) : Out :=
  if (jobList s).any (fun j => match jobOf s j with | some x => decide (x.req = r) | none => false) then .next s
  else executing s r (launchJobOp r)

/-! ### Held launches (R386) -/

/-- The launch rate of a held job. -/
def jobRate (j : Job) : Nat := (jobTlv ((tlv j.req 0x8036).getD [])).2.2.2.1

/-- A held launch examined again. -/
def examineJob (s : State) (jn : Nat) : State :=
  match jobOf s jn with
  | none => s
  | some j =>
    match packageOf s j.plan with
    | none => s
    | some p =>
      if j.st = .held then
        match jobAdmit s j.ctx j.variant p j.shape (jobRate j) with
        | some f => placeJob s jn j p f
        | none => setJob s jn (some { j with energyShort := energyLacks s j.ctx j.variant p j.shape })
      else s

/-- Held launches in launch order. -/
def heldJobs (s : State) : List Nat :=
  (sortBy (fun (e : Nat × Nat) => e.2) ((jobList s).filterMap (fun jn => match jobOf s jn with
    | some j => if j.st = .held then some (jn, j.heldAt) else none
    | none => none))).map (fun e => e.1)

/-- Every held launch examined in launch order; one that stays held keeps the later ones of its context held. -/
def examineHeld (s : State) : State :=
  (heldJobs s).foldl (fun s jn => match jobOf s jn with
    | some j =>
      if (heldJobs s).find? (fun k => match jobOf s k with | some y => decide (y.ctx = j.ctx) | none => false) = some jn then examineJob s jn else s
    | none => s) s

/-- LAUNCH_HOLD_TIMEOUT (R386): a launch held for more than 1 s is rejected. -/
def execLaunchHoldTimeout (job : Nat) (s : State) : Out :=
  match jobOf s job with
  | some j =>
    if j.st = .held ∧ j.heldAt + 1000000000 < s.clk.up then
      let s1 := unmapLaunch (dropImports (closeExports (setJob s job none) (2, job)) j.req.sess j.req.seq) j
      .next (failReply s1 j.req (if j.energyShort then stENERGY else stCOUNT) 8 job)
    else .next s
  | none => .next s

end Sys2Proof.Machine
end

