-- ==== Sys2Proof/Machine/Bridge.lean ====
section
/-!
DEFINITION. Sys2Proof/Machine/Bridge.lean: Bridge links, routes, remote accesses, windows and their close (R340 to R358).
-/
namespace Sys2Proof.Machine

/-! ### Training and width (R342 to R346) -/

/-- The widest width whose lane group passes (R342): 4 for ×8, 3 for ×4, 2 for ×2, 1 for ×1, 0 for none. -/
def laneWidth (lanes : List Bool) : Nat :=
  let ok (i : Nat) : Bool := lanes.getD i false
  let all (a n : Nat) : Bool := (List.range n).all (fun i => ok (a + i))
  if all 0 8 then 4 else if all 0 4 || all 4 4 then 3 else if (List.range 4).any (fun i => all (2 * i) 2) then 2
  else if (List.range 8).any ok then 1 else 0

/-- The entry of a link in the record in force (R345): width, optional, peer, peer link. -/
def linkEntry (s : State) (k : Nat) : Nat × Bool × Nat × Nat :=
  match s.bridge.record with | some t => t.links.getD k (0, false, 0, 0) | none => (0, false, 0, 0)

/-- The system identifier in force. -/
def systemId (s : State) : Nat := match s.bridge.record with | some t => t.system | none => 0

/-- Whether a used link counts as missing (R346). -/
def linkMissing (s : State) (k : Nat) : Bool :=
  let x := linkOf s k; let e := linkEntry s k
  decide (x.st = .failed) || !licensed s 1 || decide (gradeLinks s ≤ k) || decide (x.st = .down) ||
    (decide (x.st ≠ .training) && (decide (x.peerSystem ≠ systemId s) || decide (x.peer ≠ e.2.2.1) || decide (x.peerLink ≠ e.2.2.2)))

/-- A LINK notice to every session (R327). -/
def linkNotice (s : State) (k status : Nat) : State :=
  let x := linkOf s k; let e := linkEntry s k
  noticeAll s (mkNotice s 0x0004 status 10 okLINK k 0xFFFF
    (leBytes 1 (linkCode x.st) ++ leBytes 1 x.width ++ leBytes 1 e.1 ++ leBytes 1 (b2n e.2.1) ++ leBytes 2 x.peer) [])

/-- LINK_DEGRADED of a link: the event and the notice (R346, R438). -/
def linkDegraded (s : State) (k : Nat) : State := linkNotice (raiseOpen s 0x503 stDEGRADED (1122 + k) none) k stDEGRADED

/-- A link judged against its entry (R346): a missing one is kept DOWN; what is narrower than required, or missing, is told. -/
def judgeLink (s : State) (k : Nat) : State :=
  let e := linkEntry s k
  if e.1 = 0 then s
  else if linkMissing s k then
    let x := linkOf s k
    let s1 := setLink s k { x with missing := true, st := if x.st = .failed then .failed else .down }
    if e.2.1 then linkNotice s1 k stOK else if s.boot.st = .ready then linkDegraded s1 k else linkNotice s1 k stTOPOLOGY
  else
    let s1 := setLink s k { linkOf s k with missing := false }
    if (linkOf s1 k).width < e.1 then linkDegraded s1 k else s1

/-- A change of a link after READY is judged at once; routes are computed again (R346, R347). -/
def linkChanged (s : State) (k : Nat) : State := noteRoutes (if s.boot.st = .ready then judgeLink s k else s)

/-- A link that has failed (R342, R343): LINK_FAILED is raised. -/
def linkFails (s : State) (k : Nat) (x : Link) : State :=
  linkChanged (raiseOpen (setLink s k { x with st := .failed, width := 0 }) 0x504 0 (1122 + k) none) k

/-- Whether a link may train: licensed, enabled by the grade, not disabled, its entry used, its partition on (R6, R346, R358). -/
def mayTrain (s : State) (k : Nat) : Bool :=
  decide (k < gradeLinks s) && licensed s 1 && !wbit s (bridgeBase + k * 0x100) 1 && decide ((linkEntry s k).1 ≠ 0) &&
    !heldInReset s (.bridge k)

/-- A link begins to train, when it may; a written record takes effect with it (R342, R345). -/
def beginTraining (s : State) (k : Nat) : State :=
  let s1 := match s.bridge.written with
    | some t => { s with bridge := { s.bridge with record := some t } }
    | none => s
  if mayTrain s1 k then setLink s1 k { linkOf s1 k with st := .training, attempts := 0, missing := false } else s1

/-- A link trained or retrained: stored trims that still hold are kept, others are written anew (R435). -/
def newLinkTrims (s : State) (k : Nat) : State :=
  let h := trimsHold s 0x0011 k
  if h.1 then h.2
  else
    let t := freshNat 63 h.2
    flashQueue t.2 [flashRec 0x0011 k (leBytes 8 t.1)] none

/-- LINK_TRAINING (R342, R344, R435): one attempt of a training link. -/
def execLinkTraining (link : Nat) (r : TrainResult) (s : State) : Out :=
  let x := linkOf s link
  if mayTrain s link && decide (x.st = .training) then
    let w := min (laneWidth r.lanes) r.peerWidth
    if w = 0 then
      let y := { x with attempts := x.attempts + 1 }
      .next (if 3 ≤ x.attempts + 1 then linkFails s link y else setLink s link y)
    else
      let v := if r.peerV2 then 2 else if r.peerV1 then 1 else 0
      let s1 := setLink s link { x with
        st := if v = 0 then .mgmtOnly else .up, width := w, version := v, attempts := x.attempts + 1, peer := r.peerDevice % 2 ^ 14,
        peerLink := r.peerLink % 4, peerSystem := r.peerSystem }
      let s2 := newLinkTrims s1 link
      .next (linkChanged (if v = 0 then linkNotice s2 link stVERSION else s2) link)
  else .next s

/-- LINK_RETRAIN (R343, R345, R346): a link that is UP retrains on its errors; it may settle narrower or fail. What it had not acknowledged
is replayed after it. -/
def execLinkRetrain (link : Nat) (r : TrainResult) (s : State) : Out :=
  let x := linkOf s link
  if decide (x.st = .up) && !heldInReset s (.bridge link) then
    let s0 := bump s (bridgeBase + link * 0x100 + 0x1C)
    let s1 := match s0.bridge.written with
      | some t => { s0 with bridge := { s0.bridge with record := some t } }
      | none => s0
    let w := min (laneWidth r.lanes) r.peerWidth
    if w = 0 ∨ r.eyePass = false then .next (linkFails s1 link x)
    else .next (linkChanged (newLinkTrims (setLink (forAll (s1.bridge.out.filter (fun p => p.link = some link)) (fun s _ => bump s (bridgeBase + link * 0x100 + 0x10)) s1)
      link { x with width := w }) link) link)
  else .next s

/-- LINK_RETRAIN_REQUEST (R345, R358): a write of `BG_LINK_CTRL`. -/
def execLinkRetrainRequest (src : Src) (link : Nat) (value : Word) (s : State) : Out :=
  let a := bridgeBase + link * 0x100
  if 4 ≤ link then .next s
  else match meets s src a with
    | .here =>
      if !isApgil src then .next (denied s src a)
      else
        let s1 := setWbit s a 1 (bitOf value 1)
        if bitOf value 1 then .next (linkChanged (setLink s1 link { linkOf s1 link with st := .down, width := 0 }) link)
        else if bitOf value 0 then .next (beginTraining s1 link)
        else .next s1
    | m => .next (refuse s src a m)

/-! ### Routes (R347, R349) -/

/-- ROUTE_UPDATE (R347): the neighbour list of a device, received over a link that carries the exchange. -/
def execRouteUpdate (link device : Nat) (list : List Neighbour) (s : State) : Out :=
  if linkCarries s true link then
    let mine := list.filter (fun e => e.device = device)
    .next (noteRoutes { s with bridge := { s.bridge with neighbours := s.bridge.neighbours.filter (fun e => e.device ≠ device) ++ mine } })
  else .next s

/-- ROUTE_LOSS_TIMEOUT (R349, R354): no route to a device for 10 ms: every window towards it closes. -/
def execRouteLossTimeout (device : Nat) (s : State) : Out :=
  let since := tget 0 s.bridge.lostSince device
  if (routeTo s false device).isNone ∧ since ≠ 0 ∧ since + 10000000 ≤ s.clk.up + 1 then
    .next (forgetDevice (forAll (List.range 256) (fun s w =>
      if (windowOf s w).st ≠ .closed ∧ wfld s (winReg w 0) 29 16 = device then dropWindow (windowShut s w) w else s) s) device)
  else .next s

/-! ### Remote accesses (R351 to R353) -/

/-- The export a remote access names. -/
def exportOf (s : State) (ident : Nat) : Option ExportBuf := s.bridge.exports.find? (fun e => e.ident = ident)

/-- An answer to a remote access. -/
def remoteAnswer (s : State) (a : RemoteReq) (status : Nat) (data : List Byte) : State :=
  { s with bridge := { s.bridge with remote := s.bridge.remote ++ [(a.sender, status, data)] } }

/-- Zeros in place of the bytes a read asked for. -/
def noData (a : RemoteReq) : List Byte := if a.write then [] else List.replicate a.bytes 0

/-- A write that is dropped, counted at its link (R351, R352). -/
def remoteDrop (s : State) (a : RemoteReq) : State := bump s (bridgeBase + a.link * 0x100 + 0x18)

/-- A write of a flag window (R297, R352): each nonzero word is added to its flag; bytes past offset 255, and every byte over a version-1
link, are dropped and counted. -/
def flagWindowPut (s : State) (a : RemoteReq) (e : ExportBuf) : State :=
  if !e.write ∨ (linkOf s a.link).version < 2 then remoteDrop s a
  else
    let words := (List.range (ceilDiv a.data.length 4)).map (fun i => (a.offset / 4 + i, leAt a.data (4 * i) 4))
    let s1 := forAll (words.filter (fun w => decide (w.1 < 64) && decide (w.2 ≠ 0))) (fun s w =>
      flagUpdateOp s { src := srcIndex (.bridge a.link), ctx := some e.ctx, flag := 64 * e.base + w.1, add := true, value := BitVec.ofNat 32 w.2 }) s
    remoteAnswer (if 256 < a.offset + a.data.length then remoteDrop s1 a else s1) a stOK []

/-- The current values of a flag window's bytes (R352). -/
def flagWindowGet (s : State) (a : RemoteReq) (e : ExportBuf) : List Byte :=
  (List.range a.bytes).map (fun i =>
    let o := a.offset + i
    if o < 256 then (leBytes 4 (flagOf s (64 * e.base + o / 4)).toNat).getD (o % 4) 0 else 0)

/-- A read or write of a memory window (R26, R351): translated, checked, carried out where it leads. -/
def memoryWindow (s : State) (a : RemoteReq) (e : ExportBuf) : State :=
  let n := if a.write then a.data.length else a.bytes
  let fits := decide (a.offset + n ≤ e.bytes) && (if a.write then e.write else e.read)
  let fail (s : State) : State := if a.write then remoteDrop s a else remoteAnswer s a stPAGE (noData a)
  if !fits then fail s
  else match xlatePieces s e.xlate a.write (e.base + a.offset) n with
    | none => fail (iommuFault s (.bridge a.link) (some e.ctx) (e.base + a.offset))
    | some l =>
      if l.any (fun p => match locDomain p.1 (locate p.1) with | some d => heldInReset s d | none => false) then
        remoteAnswer (raiseAt s 0x107 stRESET (.bridge a.link) ((l.map (fun p => p.1)).headD 0)) a stRESET (noData a)
      else if a.write then remoteAnswer (writePieces s (.bridge a.link) l a.data) a stOK []
      else
        let r := readPieces s (.bridge a.link) l
        remoteAnswer r.1 a stOK r.2

/-- A remote access delivered (R351 to R353). An access through an export that is not there is answered as one of a closed window. -/
def remoteDeliver (s : State) (a : RemoteReq) : State :=
  match exportOf s a.exportId with
  | none => remoteAnswer s a stWINDOW (noData a)
  | some e =>
    if e.closedAt.isSome then remoteAnswer s a stWINDOW (noData a)
    else if !e.flagGroup then memoryWindow s a e
    else if a.write then flagWindowPut s a e
    else remoteAnswer s a stOK (flagWindowGet s a e)

/-- The key of a sending endpoint (R348). -/
def sendKey (a : RemoteReq) : Nat := a.sender * 2 ^ 16 + a.endpoint % 2 ^ 16

/-- A request in its turn: delivered, and the next one of its endpoint expected. -/
def remoteTurn (s : State) (a : RemoteReq) : State :=
  remoteDeliver { s with bridge := { s.bridge with expect := tset 0 s.bridge.expect (sendKey a) (a.num + 1) } } a

/-- Early arrivals of an endpoint whose turn has come, delivered in issue order. -/
def remoteDrain : Nat → State → Nat → State
  | 0, s, _ => s
  | n + 1, s, key =>
    match s.bridge.early.find? (fun q => decide (sendKey q = key) && decide (q.num = tget 0 s.bridge.expect key)) with
    | none => s
    | some q => remoteDrain n (remoteTurn { s with bridge := { s.bridge with early := s.bridge.early.filter (fun x => x ≠ q) } } q) key

/-- A request of another device arrives (R348): delivered in its turn with the early ones that follow it, held when requests before it have
not come, dropped when it has come before. -/
def remoteArrive (s : State) (a : RemoteReq) : State :=
  let next := tget 0 s.bridge.expect (sendKey a)
  let s1 := { s with bridge := { s.bridge with remote := [] } }
  if a.num = next then remoteDrain s.bridge.early.length (remoteTurn s1 a) (sendKey a)
  else if a.num < next ∨ s.bridge.early.any (fun q => decide (sendKey q = sendKey a) && decide (q.num = a.num)) then s1
  else { s1 with bridge := { s1.bridge with early := s1.bridge.early ++ [a] } }

/-- REMOTE_ACCESS (R26, R348, R351 to R353): a memory window's read or write, or a flag window's read, arrives. -/
def execRemoteAccess (a : RemoteReq) (s : State) : Out :=
  if linkCarries s false a.link && !heldInReset s (.bridge a.link) then
    match exportOf s a.exportId with
    | some e => if e.flagGroup && a.write then .next s else .next (remoteArrive s a)
    | none => .next (remoteArrive s a)
  else .next s

/-- FLAG_WINDOW_WRITE (R297, R348, R352, R353): a write of a flag window arrives. -/
def execFlagWindowWrite (a : RemoteReq) (s : State) : Out :=
  if linkCarries s false a.link && !heldInReset s (.bridge a.link) && a.write then
    match exportOf s a.exportId with
    | some e => if e.flagGroup then .next (remoteArrive s a) else .next s
    | none => .next (remoteArrive s a)
  else .next s

/-! ### Imports (R350) -/

/-- IMPORT_REQUEST (R350, R354): at the owner: an open export is granted, one past its close point refused with WINDOW_CLOSED, one that
is not there is waited for. -/
def execImportRequest (sender exportId waitMs : Nat) (s : State) : Out :=
  match exportOf s exportId with
  | some e =>
    .next { s with bridge := { s.bridge with answers := s.bridge.answers ++ [(sender, exportId, if e.closedAt.isSome then stWINDOW else stOK)] } }
  | none =>
    let ms := if waitMs = 0 then 1000 else waitMs
    .next { s with bridge := { s.bridge with asked := s.bridge.asked ++ [(sender, exportId, s.clk.up + ms * 1000000)] } }

/-- The request of a session that waits for its imports, taken up again. -/
def resumeRequest (s : State) (sess seq : Nat) : State :=
  match sessionOf s sess with
  | none => s
  | some x => match x.executing.find? (fun r => r.seq = seq) with
    | none => s
    | some r => if r.typ = 0x0030 then createStreamOp r s else if r.typ = 0x0035 then launchJobOp r s else s

/-- The first aperture offset, in units of 2 MiB, at which n units are free. -/
def apertureFree (s : State) (n : Nat) : Option Nat :=
  let used := (List.range 256).filterMap (fun w =>
    if (windowOf s w).st = .closed then none else some (wfld s (winReg w 4) 14 0, wfld s (winReg w 8) 15 0))
  let starts := 0 :: used.map (fun u => u.1 + u.2)
  minBy (fun (b : Nat) => b) (starts.filter (fun b => decide (b + n ≤ 32768) && used.all (fun u => decide (b + n ≤ u.1) || decide (u.1 + u.2 ≤ b))))

/-- A request that waits for imports rejected: it opens nothing. -/
def rejectWaiting (s : State) (sess seq status index : Nat) : State :=
  match (sessionOf s sess).bind (fun x => x.executing.find? (fun r => r.seq = seq)) with
  | some r => failRequest s r (status, 8, index)
  | none => dropImports s sess seq

/-- IMPORT_GRANTED (R350): the window is entered in `BG_WIN` and its aperture range mapped; the last import of a request lets it go
on. A device without room rejects the request with COUNT_LIMIT. -/
def execImportGranted (exportId owner bytes : Nat) (flagGroup read write : Bool) (s : State) : Out :=
  match s.bridge.imports.find? (fun i => i.ident = exportId && i.owner = owner) with
  | none => .next s
  | some i =>
    let n := max 1 (ceilDiv bytes 0x200000)
    match findBelow (fun w => decide ((windowOf s w).st = .closed)) 256, apertureFree s n with
    | some w, some b =>
      let s1 := { s with bridge := { s.bridge with imports := s.bridge.imports.filter (fun q => q ≠ i) } }
      let put (s : State) (off v : Nat) : State := setWord s (winReg w off) (BitVec.ofNat 32 v)
      let s2 := put (put (put (put s1 0 (1 + b2n flagGroup * 2 + b2n read * 4 + b2n write * 8 + owner % 2 ^ 14 * 2 ^ 16)) 4 b) 8 n) 12 exportId
      let s3 := setWindow s2 w { st := .open', ctx := i.ctx, xlate := i.xlate, io := i.io, req := (i.sess, i.seq) }
      let mapped := (List.range n).foldl (fun st k => match st with
        | some s => mapBig s i.xlate (i.io + k * 0x200000) (apertureBase + (b + k) * 0x200000) (1 + b2n read * 4 + b2n write * 8)
        | none => none) (some s3)
      match mapped with
      | none => .next (rejectWaiting s3 i.sess i.seq stCOUNT exportId)
      | some s4 =>
        if s4.bridge.imports.any (fun q => q.sess = i.sess && q.seq = i.seq) then .next s4 else .next (resumeRequest s4 i.sess i.seq)
    | _, _ => .next (rejectWaiting s i.sess i.seq stCOUNT exportId)

/-- IMPORT_TIMEOUT (R350): an export that has not appeared in time. -/
def execImportTimeout (exportId : Nat) (s : State) : Out :=
  match s.bridge.imports.find? (fun i => decide (i.ident = exportId) && decide (i.until' ≤ s.clk.up)) with
  | some i => .next (rejectWaiting s i.sess i.seq stTIMEOUT exportId)
  | none => .next { s with bridge := { s.bridge with
      asked := s.bridge.asked.filter (fun q => !(decide (q.2.1 = exportId) && decide (q.2.2 ≤ s.clk.up))) } }

/-! ### Closing a window (R353, R354) -/

/-- WINDOW_CLOSE (R353, R354): at the owner the close point is this tick; at a sender the entry is CLOSING and its host is told; a
request that waits for the export is rejected with WINDOW_CLOSED. -/
def execWindowClose (exportId : Nat) (s : State) : Out :=
  let s1 := { s with bridge := { s.bridge with exports := s.bridge.exports.map (fun e =>
    if e.ident = exportId ∧ e.closedAt = none then { e with closedAt := some s.clk.up } else e) } }
  let s2 := forAll (List.range 256) (fun s w => if (word s (winReg w 12)).toNat = exportId then windowShut s w else s) s1
  match s2.bridge.imports.find? (fun i => i.ident = exportId) with
  | some i => .next (rejectWaiting s2 i.sess i.seq stWINDOW exportId)
  | none => .next s2

/-- WINDOW_CLOSE_DONE (R353): the owner's export is gone, its buffer may be scrubbed; the sender's entry is removed. -/
def execWindowCloseDone (exportId : Nat) (s : State) : Out :=
  let s1 := { s with bridge := { s.bridge with exports := s.bridge.exports.filter (fun e => !(decide (e.ident = exportId) && e.closedAt.isSome)) } }
  .next (forAll (List.range 256) (fun s w =>
    if (windowOf s w).st = .closing ∧ (word s (winReg w 12)).toNat = exportId then dropWindow s w else s) s1)

end Sys2Proof.Machine
end

