-- ==== Sys2Proof/Machine/Energy.lean ====
section
/-!
DEFINITION. Sys2Proof/Machine/Energy.lean: the 1 ms sample of the rails, its split among contexts, and the 10 ms windows of the
accounts (R380 to R386, R392). A power of 1 mW over 1 ms is 1 µJ.
-/
namespace Sys2Proof.Machine

/-! ### Whom a source works for -/

/-- The stream a source works for: a Stroke's own, or that of a tile of its strings. -/
def streamOfSrc (s : State) (src : Nat) : Option Nat :=
  if src < 72 then (stringOf s src).map (fun g => g.1)
  else if 1072 ≤ src ∧ src < 1104 then some (src - 1072)
  else none

/-- The job a source works for: that of its tile, core or channel. -/
def jobOfSrc (s : State) (src : Nat) : Option Nat :=
  if src < 72 then jobOfTile s src
  else if src < 80 then (jobList s).find? (fun j => match jobOf s j with | some x => decide (src - 72 ∈ x.cores) | none => false)
  else if src < 208 then (jobList s).find? (fun j => match jobOf s j with | some x => decide (src - 80 ∈ x.chans) | none => false)
  else none

/-! ### Charging (R381, R382, R385) -/

/-- Energy taken from a context's account (R382): the balance saturates at its 32 bits (R394). -/
def chargeAccount (s : State) (c e fromBalance : Nat) : State :=
  match contextOf s c with
  | some x => setContext s c (some { x with charged := (x.charged + e) % 2 ^ 64, balance := satS 32 (x.balance - fromBalance) })
  | none => { s with power := { s.power with overhead := s.power.overhead + e } }

/-- Energy of a source charged: to its Stroke or job, and to the context; a reserved Stroke's reservation pays first (R385). -/
def chargeUse (s : State) (src c e : Nat) : State :=
  let s1 := match jobOfSrc s src with
    | some j => (match jobOf s j with | some x => if x.ctx = c then setJob s j (some { x with measured := x.measured + e }) else s | none => s)
    | none => s
  match (streamOfSrc s1 src).bind (fun n => (streamOf s1 n).map (fun x => (n, x))) with
  | some (n, x) =>
    if x.ctx = c then
      let paid := min e x.reserveLeft
      chargeAccount (setStream s1 n (some { x with measured := x.measured + e, reserveLeft := x.reserveLeft - paid })) c e (e - paid)
    else chargeAccount s1 c e e
  | none => chargeAccount s1 c e e

/-- A sensor's energy split by a list of uses: each context's part, truncated; the rest is overhead. -/
def splitEnergy (s : State) (e : Nat) (us : List Use) : State :=
  let total := (us.map (fun u => u.amount)).sum
  let part (u : Use) : Nat := if total = 0 then 0 else e * u.amount / total
  let s1 := us.foldl (fun s u => match u.ctx with | some c => chargeUse s u.src c (part u) | none => s) s
  let paid := (us.map (fun u => if u.ctx.isSome then part u else 0)).sum
  { s1 with power := { s1.power with overhead := s1.power.overhead + (e - paid) } }

/-! ### The basis of the split (R381) -/

/-- The engines of a partition that run a program, each with the cycles of the whole period (log 36). -/
def engineUses (s : State) (p : Nat) : List Use :=
  if p < 18 then
    ((List.range 4).map (fun i => 4 * p + i)).filterMap (fun n =>
      if engBusy (tileOf s n).st then some { sensor := p, src := n, ctx := tileCtx s n, amount := 1 } else none)
  else if engBusy (coreOf s (p - 18)).st then [{ sensor := p, src := 72 + (p - 18), ctx := coreCtx s (p - 18), amount := 1 }]
  else []

/-- The uses that split a sensor's energy; none for a sensor whose energy is overhead (R381), that of a sensor set aside among them
(R436). -/
def sensorUses (s : State) (us : List Use) (p : Nat) : List Use :=
  let noted (k : Nat) : List Use := us.filter (fun u => u.sensor = k)
  if p ∈ s.power.railOut then []
  else if p < 26 then engineUses s p
  else if p < 36 then noted p
  else if p < 40 ∨ p = 49 then noted 49
  else if p = 44 then noted 44
  else []

/-- The sample of every sensor taken: registers, the window's energy, the accounts. -/
def takeSample (s : State) (power : List Nat) : State :=
  let us := s.power.uses
  let mw (p : Nat) : Nat := power.getD p 0 % 2 ^ 24
  let s1 := { s with power := { s.power with
    sensors := (List.range 52).foldl (fun t p => tset 0 t p (mw p)) s.power.sensors
    windowEnergy := s.power.windowEnergy + ((List.range 52).map mw).sum
    uses := [] } }
  forAll (List.range 52) (fun s p => splitEnergy s (mw p) (sensorUses s us p)) s1

/-- ENERGY_SAMPLE (R380, R381, R385, R386, R413): the ledger lies in the always-on island; held launches are examined while Apgil takes
requests. -/
def execEnergySample (power : List Nat) (s : State) : Out :=
  let s1 := takeSample s power
  if heldInReset s1 .mgmt || apgilPaused s1 then .next s1 else .next (jobsGo (examineHeld s1))

/-! ### Windows (R382, R383, R385, R392) -/

/-- A budget change that waited for the window start takes effect; a context without one of its own takes the default (R383, log 64). -/
def applyBudget (s : State) (c : Nat) : State :=
  match contextOf s c with
  | some x => match x.pendingBudget with
    | some (b, cap, v) => setContext (setBudget s c b cap) c (some { x with pendingBudget := none, variants := v })
    | none => if x.explicit then s
      else setContext (setBudget s c s.host.defBudget s.host.defCap) c (some { x with variants := s.host.defVariants })
  | none => s

/-- A context's window start (R382): the balance grows by the budget less the reservations, up to cap × budget. -/
def growBalance (s : State) (c : Nat) : State :=
  match contextOf s c with
  | some x =>
    let b := budgetOf s c
    let grown : Int := x.balance + ((b : Int) - (x.reserved : Int)) * 1000
    setContext s c (some { x with balance := satS 32 (min grown ((capOf s c * b * 1000 : Nat) : Int)) })
  | none => s

/-- Reservations renewed: what is left of one does not carry over (R385). -/
def renewReserves (s : State) : State :=
  forAll (streamList s) (fun s n => updStream s n (fun x => { x with reserveLeft := x.reserved * 1000 })) s

/-- The limit on the device's power judged over the window that ends (R392): issue is withheld from contexts without reservations first, and
from all when the limit is still exceeded. -/
def judgeLimit (p : Power) (limit : Nat) : Power :=
  let above := decide (limit * 10 < p.windowEnergy)
  { p with held := above, heldReserved := above && p.held, windowEnergy := 0, windows := p.windows + 1 }

/-- What a waiting tile counts its stall as when issue is withheld or given back (R110, R392): ENERGY_THROTTLE or FLAG_WAIT. -/
def restall (s : State) (n : Nat) : State :=
  match (tileOf s n).st, (tileOf s n).stall with
  | .waiting, some _ => stallOn s n (if withheld s (tileCtx s n) then 1 else 2)
  | _, _ => s

/-- The same for a core (R224, R392): ENERGY_THROTTLE comes before FLAG_WAIT and EVENT_WAIT. -/
def coreRestall (s : State) (n : Nat) : State :=
  let c := coreOf s n
  let held := withheld s (coreCtx s n)
  match c.st with
  | .waiting => coreStallOn s n (if held then 1 else if c.waitEv.isSome then 3 else 2)
  | .running => if held then coreStallOn s n 1 else coreStallEnd s n
  | _ => s

/-- ENERGY_WINDOW (R110, R382, R383, R385, R392). -/
def execEnergyWindow (s : State) : Out :=
  let s1 := forAll (List.range 72) (fun s n => restall s n) { s with power := judgeLimit s.power (wfld s (powerBase + 0x800) 16 0) }
  let s2 := forAll (List.range 8) coreRestall s1
  .next (renewReserves (forAll (contextList s2) (fun s c => growBalance (applyBudget s c) c) s2))

end Sys2Proof.Machine
end

