-- ==== Sys2Proof/Machine/Reset.lean ====
section
/-!
DEFINITION. Sys2Proof/Machine/Reset.lean: reset domains, SLOW islands and the move of a slow tile's segment, RESET_N and the SMI's
reset (R20, R25 to R31, R51, R87, R103, R203, R208, R287, R360, R364, R469).
-/
namespace Sys2Proof.Machine

/-! ### Islands -/

/-- The islands of a power partition (R28, R380). -/
def islandsOf (p : Nat) : List Domain :=
  if p < 18 then (List.range 4).map (fun i => .tile (4 * p + i))
  else if p < 26 then [.core (p - 18)]
  else if p < 30 then (List.range 4).map (fun i => .port (4 * (p - 26) + i))
  else if p = 30 then [.plate 0, .plate 1, .colour 0, .stat, .pcm]
  else if p = 31 then [.plate 2, .plate 3, .colour 1]
  else if p < 36 then [.dma (p - 32)]
  else if p < 40 then [.ddr (p - 36)]
  else if p < 42 then [.appCluster (p - 40)]
  else if p = 42 then (List.range 4).map (fun k => .bridge k)
  else if p = 43 then [.network]
  else if p = 44 then [.bru, .stipple 0, .stipple 1]
  else if p = 45 then [.mgmt]
  else if p = 46 then [.smi]
  else [.aon]

/-- The source index under which the events of an island are recorded (R310). -/
def domainIndex : Domain → Nat
  | .tile n => n
  | .core n => 72 + n
  | .port n => 272 + n
  | .plate n => srcIndex (.plate n)
  | .colour n => srcIndex (.colour n)
  | .stat => srcIndex (.endpoint 0)
  | .pcm => srcIndex (.endpoint 1)
  | .bru => srcIndex (.endpoint 2)
  | .stipple k => srcIndex (.endpoint (3 + k))
  | .dma k => 80 + 32 * k
  | .ddr k => 1128 + k
  | .bridge k => 1122 + k
  | .network => 1126
  | .appCluster k => srcIndex (.app (4 * k))
  | .mgmt => 1104
  | .smi => srcIndex (.endpoint 5)
  | .aon => 1127

/-- Latches of the register pairs in an address range lost (R467). -/
def clearLatches (s : State) (lo n : Nat) : State :=
  { s with latches := s.latches.filter (fun l => decide (l.2.1 < lo) || decide (lo + n ≤ l.2.1)) }

/-- The registers and latches of an island at their reset values (R30). A port that carries a Stroke keeps the configuration that
Apgil writes again (log 23). The words of the Plate and colour block belong to streams and not to a pipeline or stage, whose own words
only show what it does (R88); statistics engine and PCM have none, and the PCM keeps its entries. -/
def islandRegs (s : State) : Domain → State
  | .tile n => clearLatches (clearRegs s (gtReg n 0) 0x10000) (gtReg n 0) 0x10000
  | .core n => clearLatches (clearRegs s (ecReg n 0) 0x10000) (ecReg n 0) 0x10000
  | .port p =>
    if portCarries s p then clearRegs (setWord s (intakeBase p + 4) 0) (intakeBase p + 0x100) 0x1C
    else { clearRegs s (intakeBase p) 0x10000 with
      regs := (clearRegs s (intakeBase p) 0x10000).regs.filter (fun c => c.1 < bankKey p 0 0 || bankKey (p + 1) 0 0 ≤ c.1) }
  | .dma k => clearLatches (clearRegs s (dmaBase + k * 0x10000) 0x10000) (dmaBase + k * 0x10000) 0x10000
  | .bru => clearRegs s bruBase 0x8000
  | .stipple k =>
    if k = 0 then setWord (setWord s (bruBase + 0x8014) 0) (bruBase + 0x8018) 0
    else setWord (setWord s (bruBase + 0x8010) 0) (bruBase + 0x801C) 0
  | .bridge k => clearRegs s (bridgeBase + k * 0x100 + 0x10) 0x10
  | .mgmt => clearRegs (clearRegs (clearRegs s (mboxBase 0) 0x20000) iommuBase 0x100000) faultBase 0x100000
  | _ => s

/-- The job a core or channel belongs to. -/
def jobOfCore (s : State) (n : Nat) : Option Nat :=
  (jobList s).find? (fun j => match jobOf s j with | some x => decide (n ∈ x.cores) | none => false)
def jobOfChan (s : State) (c : Nat) : Option Nat :=
  (jobList s).find? (fun j => match jobOf s j with | some x => decide (c ∈ x.chans) | none => false)

/-- A job that loses an engine ends with RESET_IN_PROGRESS (R469). -/
def loseJob (s : State) (j : Option Nat) : State := match j with | some n => endJob s n stRESET | none => s

/-- Streams of a port. -/
def portStreams (s : State) (p : Nat) : List Nat :=
  (streamList s).filter (fun n => match streamOf s n with | some x => carries x && decide (dPort x = p) | none => false)

/-- The records of the frames in progress, those with stripes in the engine and no record yet, dropped and counted (R30, R77). -/
def statReset (s : State) : State :=
  forAll (streamList s) (fun s n => match streamOf s n with
    | some x =>
      forAll (x.frames.filter (fun f => f.plateStart.isSome && !f.statDone && bitOf (plWord f.plate 0) 8))
        (fun s f => bump (updFrameIn s n f.seq (fun r => { r with stat := {}, statDone := true })) (plReg n 0x88)) s
    | none => s) s

/-- The SHM slices of a DDR5 controller (R28). -/
def ctlSlices (k : Nat) : List Nat := (List.range 4).map (fun i => 4 * k + i)

/-- What an island did ends (R51, R87, R103, R137, R218, R268, R287, R469): the work that needs it fares as the rules say. `off`
tells a switched-off partition from a domain reset. -/
def islandStop (s : State) (off : Bool) : Domain → State
  | .tile n =>
    let s1 := match jobOfTile s n with
      | some j => endJob s j stRESET
      | none => stringFail s n stRESET true
    let s2 := withdrawWait (unbindTile (releaseTile s1 n .killed) n) n
    let s3 := setTile s2 n { st := if off then .idle else .resetting }
    if tileInService s3 n then setAside s3 n else s3
  | .core n =>
    let s1 := withdrawWait (loseJob s (jobOfCore s n)) (72 + n)
    setCore (unbindCore (releaseCore s1 n .killed) n) n { st := if off then .idle else .resetting }
  | .port p =>
    if off then forAll (portStreams s p) (fun s n => cancelStream s n stRESET 0) s
    else forAll (List.range 16) (fun s k => closeFrame s p k) s
  | .plate n => plateReset s n
  | .colour n => colourReset s n
  | .stat => statReset s
  | .bru => bruReset s
  | .dma k => forAll (List.range 32) (fun s i =>
      let c := k * 32 + i
      let s1 := loseJob s (jobOfChan s c)
      setChan (withdrawWait (unbindChan s1 c) (80 + c)) c
        { st := if off then .idle else .resetting, bursts := if off then [] else (chanOf s1 c).bursts }) s
  | .ddr k =>
    let s1 := forAll (ctlSlices k) cacheClean s
    setDdr s1 k { ddrOf s1 k with selfRefresh := true }
  | .bridge k => noteRoutes (setLink s k { linkOf s k with st := .down, width := 0, hops := none })
  | .network => { s with host := { s.host with ports := s.host.ports.map (fun e => (e.1, { e.2 with up := false })), held := [] } }
  | _ => s

/-- Whether an island can be reset by itself (R30, R31). -/
def resettable : Domain → Bool
  | .aon => false | .smi => false | .mgmt => false | _ => true

/-- The granules of an island's memories. -/
def islandGranules : Domain → List Nat
  | .tile n => tileGranules n
  | .core n => coreGranules n
  | .ddr k => (ctlSlices k).flatMap sliceGranules
  | _ => []

/-- A domain reset begins (R26, R30, R287). -/
def domainResetBegin (s : State) (d : Domain) : State :=
  if resettable d && !decide (d ∈ s.resetting) && partOn s (partitionOf d) then
    let s1 := islandStop s false d
    let s2 := match d with
      | .ddr _ => s1
      | _ => granulesReset s1 (islandGranules d)
    { s2 with resetting := s2.resetting ++ [d] }
  else s

/-- The application cores of a cluster that are on line start at the entry addresses Apgil has set (R30). -/
def appRestart (s : State) (k : Nat) : State :=
  forAll ((List.range 4).map (fun i => 4 * k + i)) (fun s n =>
    if n ∈ s.boot.appOffline then s
    else { s with boot := { s.boot with appPc := tset 0 s.boot.appPc n (tget 0 s.boot.appEntry n) } }) s

/-- Whether a reset can be done: a DMA cluster's only after all of its tags have returned (R30). -/
def resetReady (s : State) : Domain → Bool
  | .dma k => decide (clusterTags s k = 0)
  | _ => true

/-- What the self-test of a tile or core after its reset finds, a free value (log 1): whether it passes. -/
def resetTest (s : State) : Bool × State := let r := freshNat 72 s; (decide (r.1 % 2 = 0), r.2)

/-- A domain reset is done (R30): registers at their reset values. A tile or core is tested then: one that passes is free again, one that
fails is retired (R208, R446). The SLOW flag of the island goes with the reset (DESIGN CHOICE, log 66). -/
def domainResetEnd (s : State) (d : Domain) : State :=
  if decide (d ∈ s.resetting) && resetReady s d then
    let s1 := islandRegs { s with resetting := s.resetting.filter (fun x => x ≠ d), slow := s.slow.filter (fun x => x ≠ d) } d
    match d with
    | .tile n =>
      let r := resetTest (setTile s1 n {})
      if r.1 then promoteSpare { r.2 with retire := { r.2.retire with untested := r.2.retire.untested.filter (fun k => k ≠ n) } }
      else promoteSpare (retireTile r.2 n 1)
    | .core n => let r := resetTest (setCore s1 n {}); if r.1 then r.2 else retireCore r.2 n 1
    | .dma k => forAll (List.range 32) (fun s i => setChan s (k * 32 + i) {}) s1
    | .ddr k => setDdr s1 k { ddrOf s1 k with selfRefresh := false }
    | .port p => { s1 with ports := tset false s1.ports p false }
    | .appCluster k => appRestart s1 k
    | .bridge k => beginTraining s1 k
    | _ => s1
  else s

/-- DOMAIN_RESET (R30, R31, R469). -/
def execDomainReset (d : Domain) (s : State) : Out := .next (domainResetBegin s d)

/-- The requests that wait for the end of a domain's reset answered (R334). -/
def resetAnswers (s : State) (d : Domain) : State :=
  forAll (s.host.resetReplies.filter (fun r => r.1 = d)) (fun s r => answer s r.2.1 r.2.2.1 r.2.2.2.1 r.2.2.2.2 stOK [])
    { s with host := { s.host with resetReplies := s.host.resetReplies.filter (fun r => r.1 ≠ d) } }

/-- DOMAIN_RESET_DONE (R30, R208). -/
def execDomainResetDone (d : Domain) (s : State) : Out :=
  if decide (d ∈ s.resetting) && resetReady s d then .next (resetAnswers (domainResetEnd s d) d) else .next s

/-! ### SLOW islands (R20, R203) -/

/-- A variant of a plan that splits the segment at place k of a variant over two tiles, the other segments being the same (R190, R203). -/
def splitVariant (c : PlanContent) (v : Variant) (k : Nat) : Option Nat :=
  let layers (w : Variant) : List (Nat × Nat) := w.segs.map (fun g => (g.first, g.last))
  (List.range c.variants.length).find? (fun i => match c.variants[i]? with
    | some w =>
      decide (w.segs.length = v.segs.length + 1) && w.segs.all (fun g => decide (g.ring = 0)) &&
        decide ((layers w).take k = (layers v).take k) && decide ((layers w).drop (k + 2) = (layers v).drop (k + 1)) &&
        decide ((layers w)[k]?.map (fun p => p.1) = (layers v)[k]?.map (fun p => p.1)) &&
        decide ((layers w)[k + 1]?.map (fun p => p.2) = (layers v)[k]?.map (fun p => p.2))
    | none => false)

/-- Without a spare, the string of a slow tile bound to a variant that splits its segment over it and a free tile (R203): it leaves dispatch,
and starts again once its stripes are done. -/
def splitString (s : State) (n sn : Nat) (x : Stream) (g : Strg) (k : Nat) : State :=
  match packageOf s (dPlan x), stringVariant s x g, findBelow (freeTile s) 72 with
  | some p, some v, some r =>
    match splitVariant p.content v k with
    | none => s
    | some i =>
      let tiles := g.tiles.take k ++ [n, r] ++ g.tiles.drop (k + 1)
      if fitChecked s x p { h := dH x, variant := i, strings := x.strings.map (fun q => if q.index = g.index then tiles else q.tiles) } then
        raiseOpen (bindFree (setStream s sn (some (updString x g.index (fun h => { h with dispatch := false, toVariant := some (i, tiles) }))))
          x [r]) 0x307 0 n (some x.ctx)
      else s
  | _, _, _ => s

/-- A slow tile that works gets a spare, whose memories are asked for (R203); without one its segment is split where the plan can, and
otherwise it stays. -/
def startMove (s : State) (n : Nat) : State :=
  let take (ctx : Nat) (other : State) : State := match spareFor s with
    | some r => askFor (enableAll { s with moves := s.moves ++ [(n, r)] } (tileParts [r])) ctx (tileGranules r)
    | none => other
  if s.moves.any (fun m => m.1 = n) || s.leaving.any (fun e => decide (e.slow = n)) then s
  else match stringOf s n, (jobOfTile s n).bind (jobOf s) with
    | some (sn, x, g, k), _ =>
      if (x.phase = .running ∨ x.phase = .stopping) ∧ g.remap = [] ∧ g.toVariant = none ∧ x.replan = none then
        take x.ctx (splitString s n sn x g k)
      else s
    | none, some j => if j.st = .running then take j.ctx s else s
    | none, none => s

/-- SLOW (R20, R203): the island is flagged; a slow tile that works gets a spare loaded beside it, when one is free. -/
def execSlow (d : Domain) (s : State) : Out :=
  if d ∈ s.slow then .next s
  else
    let s1 := raiseOpen { s with slow := s.slow ++ [d] } 0x306 0 (domainIndex d) none
    match d with
    | .tile n => .next (startMove s1 n)
    | _ => .next s1

/-- SLOW_CLEAR (R20). -/
def execSlowClear (d : Domain) (s : State) : Out := .next { s with slow := s.slow.filter (fun x => x ≠ d) }

/-- The waits of one tile entered for another. -/
def moveWaits (s : State) (a b : Nat) : State :=
  { s with waits := s.waits.map (fun w => if w.who = a then { w with who := b } else w) }

/-- One tile in the place of another in every string and job. -/
def putTile (s : State) (a b : Nat) : State :=
  let sub (l : List Nat) : List Nat := l.map (fun n => if n = a then b else n)
  { s with
    streams := s.streams.map (fun e => (e.1, e.2.map (fun x => { x with strings := x.strings.map (fun g => { g with tiles := sub g.tiles }) })))
    host := { s.host with jobs := s.host.jobs.map (fun e => (e.1, e.2.map (fun j => { j with tiles := sub j.tiles, first := sub j.first }))) } }

/-- A move given up. -/
def dropMove (s : State) (n : Nat) : State := { s with moves := s.moves.filter (fun m => m.1 ≠ n) }

/-- The segment of a slow tile of a string goes to a loaded spare at a stripe boundary (R203): from now on the stripes come to the spare,
whose buffers are free, and the slow tile finishes those it holds; one that holds none is done. -/
def moveString (s : State) (n r sn : Nat) (x : Stream) (g : Strg) (k : Nat) (v : Variant) (seg : Segment) : State :=
  let feed := feedFlag v g.index k
  let wait := (flagOf s feed).toNat
  let left := (if k = 0 then g.inFlight.length else g.passed.getD (k - 1) 0) - g.passed.getD k 0
  let s1 := apgilSet (apgilSet (placeSeg s x g r seg) feed 0) (creditFlag v g.index k) (BitVec.ofNat 32 v.buffers)
  let s2 := updStream s1 sn (fun y => updString y g.index (fun h => if k = 0 then { h with credits := v.buffers, creditAt := s.clk.up } else h))
  let s3 := serveFor (putTile (dropMove s2 n) n r) n r
  let s4 := tileGo (setWbit { s3 with leaving := s3.leaving ++ [{ slow := n, spare := r, left := left, wait := wait }] } (gtReg r 0) 2
    (wbit s (gtReg n 0) 2)) r
  let s5 := raiseOpen s4 0x307 0 n (some x.ctx)
  if left = 0 ∨ s.waits.any (fun w => decide (w.who = n) && decide (w.flag = feed)) then leaveDone (withdrawWait s5 n) n else s5

/-- What a tile of a job or of a ring group holds goes to a spare between two of its records, while it waits (R203; log 70): its memories,
registers, wait and place; the slow tile is unbound and tested before it is bound again. -/
def moveWhole (s : State) (n r : Nat) (ctx : Nat) : State :=
  let s1 := store (dropMove s n) (tileBase r) (bytesAt s (tileBase n) 0x390000)
  let s2 := forAll (List.range 1024) (fun s i => setWord s (gtReg r (4 * i)) (word s (gtReg n (4 * i)))) s1
  let s3 := moveWaits (setTile (setTile s2 r { tileOf s2 n with touched := [] }) n {}) n r
  setAside (raiseOpen (unbindTile (releaseTile (serveFor (putTile s3 n r) n r) n .killed) n) 0x307 0 n (some ctx)) n

/-- Whether a tile may hand its state to another: it waits, and nothing of it is under way. -/
def tileStill (s : State) (n : Nat) : Bool :=
  let t := tileOf s n
  decide (t.st = .waiting) && decide (t.rotOut = []) && decide (t.rotDue = []) && decide (t.fetch = [])

/-- SEGMENT_MOVE_SWITCH (R3, R203, R207): the move of a slow tile's segment to its spare takes place at a stripe boundary, once the spare's
memories are granted; REMAP is reported. -/
def execSegmentMoveSwitch (tile : Nat) (s : State) : Out :=
  match s.moves.find? (fun m => m.1 = tile) with
  | none => .next s
  | some (_, r) =>
    let ready (ctx : Nat) : Bool := tileReady s r && granted s ctx (tileGranules r)
    match stringOf s tile, jobOfTile s tile with
    | some (sn, x, g, k), _ =>
      (match stringVariant s x g, (segsOf s x g)[k]? with
       | some v, some seg =>
         if !ready x.ctx then .next (askFor s x.ctx (tileGranules r))
         else if seg.ring ≠ 0 then .next (if tileStill s tile then moveWhole s tile r x.ctx else s)
         else if k = 0 ∨ (tileOf s (g.tiles.getD (k - 1) 0)).st ≠ .running then .next (moveString s tile r sn x g k v seg)
         else .next s
       | _, _ => .next (dropMove s tile))
    | none, some j =>
      (match jobOf s j with
       | some y =>
         if !ready y.ctx then .next (askFor s y.ctx (tileGranules r))
         else .next (if tileStill s tile then moveWhole s tile r y.ctx else s)
       | none => .next (dropMove s tile))
    | none, none => .next (dropMove s tile)

/-! ### RESET_N (R25, R31, R394, R395) -/

/-- Bytes of the SMI's window, which no main-side reset touches (R31, R360). -/
def smiMem (m : Memory) : Memory := m.filter (fun c => decide (smiBase ≤ c.1) && decide (c.1 < smiBase + 0x300000))

/-- Register words of the SMI, and with `aon` those of the always-on island. -/
def keptRegs (t : Tbl Word) (aon : Bool) : Tbl Word :=
  t.filter (fun e => (decide (smiBase ≤ e.1) && decide (e.1 < smiBase + 0x300000)) ||
    (aon && ((decide (timeBase ≤ e.1) && decide (e.1 < timeBase + 0x1000)) ||
      (decide (powerBase + 0x100 ≤ e.1) && decide (e.1 < powerBase + 0x1000)))))

/-- What Archive flash keeps of the configuration (R335). -/
def keptHost (h : HostSide) : HostSide :=
  { ports := h.ports.map (fun e => (e.1, { macsec := e.2.macsec, cipher := e.2.cipher, cak := e.2.cak, gptp := e.2.gptp }))
    ipv4 := h.ipv4, ipv6 := h.ipv6, acpSecure := h.acpSecure, gptpDomain := h.gptpDomain, gptpPriority := h.gptpPriority
    planKeys := h.planKeys, defBudget := h.defBudget, defCap := h.defCap, defVariants := h.defVariants }

/-- Transactions after a reset or a power cut (R420 to R422): one whose commit record is written goes on; of another, the journal keeps
the records wholly programmed, which count for the sequence numbers alone. Apgil's operations end; the SMI's go on. -/
def keptFlash (f : Flash) : Flash :=
  let l := match f.waiting with | t :: _ => t.recs | [] => []
  let m := journalled f
  let g : Flash :=
    { f with
      running := f.running.filter (fun o => o.smi)
      suspended := none
      opsMain := []
      waiting := if txCommitted f then f.waiting.take 1 else []
      step := if txCommitted f then f.step else 0
      journal := if f.step = 1 ∧ !txCommitted f then f.journal ++ l.take m else f.journal
      nextSeq := if f.step = 1 ∧ !txCommitted f then (match l with | r :: _ => r.seq + m | [] => f.nextSeq) else f.nextSeq
      freeing := [] }
  flashNext g

/-- The power controller after a reset of every partition but its own and the SMI's (R444, R461): it keeps what it measures and its
thermal state. -/
def keptPower (p : Power) : Power :=
  { p with
    parts := p.parts.map (fun e => (e.1, if e.1 = 46 ∨ e.1 = 47 then e.2 else { e.2 with st := .off, disableNext := false, idleSince := none }))
    uses := [], held := false, heldReserved := false, state := .active, idleSince := none, noContextSince := none }

/-- The main side reset: RESET_N, a power cut, or with `aon` every partition but the always-on island (R444). Fuses, pins, the
SMI and Archive flash stay; an image partly written is none (R416). -/
def resetMain (s : State) (aon : Bool) (reason : BootReason) : State :=
  { State.reset with
    pending := s.pending
    free := s.free
    regs := keptRegs s.regs aon
    mem := smiMem s.mem
    ddrBytes := s.ddrBytes
    clk := if aon then { s.clk with cancels := [] } else {}
    ddr := s.ddr.map (fun e => (e.1, { patrolHours := e.2.patrolHours, rowsKept := e.2.rowsKept }))
    host := keptHost s.host
    bridge := { record := (match s.bridge.written with | some r => some r | none => s.bridge.record), written := s.bridge.written }
    smi := s.smi
    power := if aon then keptPower s.power else {}
    boot := { reason := reason, flashImage := if s.boot.phase = .rewrite then none else s.boot.flashImage }
    retire := { tiles := s.retire.tiles, cores := s.retire.cores, cause := s.retire.cause }
    fuses := s.fuses
    flash := keptFlash s.flash
    pins := if aon then s.pins else { s.pins with avs := 750 }
    licences := s.licences }

/-- RESET_N_ASSERT (R13, R25, R299, R394, R455): the main side is reset; the SMI runs on (R31). -/
def execResetNAssert (s : State) : Out :=
  .next { resetMain s false .resetN with pins := { s.pins with resetN := false, avs := 750 } }

/-- The partitions that are on at reset (R394): network, management, always-on, and the SMI while its supply is in range. -/
def bootPartitions (s : State) : State :=
  forAll ([43, 45, 47] ++ (if s.smi.vdd then [46] else [])) (fun s p => setPart s p { partOf s p with st := .on }) s

/-! ### The SMI's reset (R31, R360, R364) -/

/-- Apgil answers the INSTALL_LICENCE that waits for the SMI (R410): OK for the main side, and the SMI's status in a NOTICE TLV. -/
def answerLicence (s : State) (status : Nat) : State :=
  match s.host.licReply with
  | some (n, seq, typ, ctx) =>
    answer { s with host := { s.host with licReply := none } } n seq typ ctx stOK [(0x0051, noticeValue status okDEVICE 0 s.clk.now [])]
  | none => s

/-- The SMI reset: every slot FREE, messages lost, records counted from 0; log, keys, parameters and calibration stay. -/
def smiResetOp (s : State) : State :=
  let s1 := setWord s (smReg 0xC) 0
  let s2 := { s1 with
    smi := { s1.smi with
      st := if s.smi.vdd then .boot else .off
      legal := false, committed := 0, queue := [], work := none, outWr := 0, staged := [], fwPending := none, refusals := 0, refusedAt := none }
    flash := flashNext { s1.flash with running := s1.flash.running.filter (fun o => !o.smi), opsSmi := [] } }
  answerLicence s2 stRESET

/-- SMI_RESET_N_EVENT (R31, R360). -/
def execSmiResetNEvent (asserted : Bool) (s : State) : Out :=
  let s1 := if asserted then smiResetOp s else s
  .next { s1 with smi := { s1.smi with inReset := asserted }, pins := { s1.pins with smiResetN := !asserted } }

/-- SMI_WATCHDOG_FIRE (R31, R360). -/
def execSmiWatchdogFire (s : State) : Out :=
  if s.smi.inReset || !s.smi.vdd then .next s else .next (smiResetOp s)

end Sys2Proof.Machine
end

