-- ==== Sys2Proof/Machine/Tick.lean ====
section
/-!
DEFINITION. Sys2Proof/Machine/Tick.lean: one event tick (R306, R307, R297, R441): what step does on an empty queue (log 7).
-/
namespace Sys2Proof.Machine

/-- Device time after a tick: 4 ns, trimmed by `DT_RATE` parts per billion (R306, R307, R316). -/
def tickClock (s : State) : Clock :=
  let f : Int := s.clk.frac + 4 * sext 32 (word s (timeBase + 0x10)).toNat
  let carry : Int := f / 1000000000
  { s.clk with now := ((s.clk.now : Int) + 4 + carry).toNat, up := s.clk.up + 4, frac := f - carry * 1000000000, updates := 0 }

/-- Up to 8 held flag updates applied in order (R297). -/
def tickFlags (s : State) : State :=
  let now := s.updates.take 8
  now.foldl applyUpdate { s with updates := s.updates.drop 8 }

/-- The events of a tick that ends follow those held; up to 4 are recorded (R441). -/
def tickEvents (c : Collector) : Collector := recordHeld 4 { c with tick := [] } (c.held ++ c.tick)

/-- One event tick. What was queued before it fell in the tick that ends (R46, R51, R310). -/
def eventTick (s : State) : State :=
  let s1 := tickFlags { s with clk := tickClock s }
  { s1 with endsTaken := []
            fc := tickEvents s1.fc
            smi := { s1.smi with clock := if s1.smi.vdd then s1.smi.clock + 4 else s1.smi.clock } }

end Sys2Proof.Machine
end

