-- ==== Sys2Proof/Machine/Power.lean ====
section
/-!
DEFINITION. Sys2Proof/Machine/Power.lean: power partitions, the device power states, temperatures, RESET_PARTITION (R26, R28 to R30,
R86, R103, R277, R287, R337, R389 to R393, R417, R447, R469).
-/
namespace Sys2Proof.Machine

/-! ### Partitions off and on (R389) -/

/-- Partitions that no request switches (R389, R391): network and management follow RESET_N or park, the SMI its own supply. -/
def fixedPart (p : Nat) : Bool := decide (p ∈ [43, 45, 46, 47])

/-- A partition that is on begins to power down: its islands' work ends; a DDR5 channel goes into self-refresh first. -/
def shutPart (s : State) (p : Nat) : State :=
  let s1 := (islandsOf p).foldl (fun s d => islandStop s true d) s
  let s2 := if 36 ≤ p ∧ p < 40 then setDdr s1 (p - 36) { ddrOf s1 (p - 36) with selfRefresh := true } else s1
  setWbit (setPart s2 p { partOf s2 p with st := .poweringDown, disableNext := false, idleSince := none }) (powerBase + 4 * p) 0 false

/-- A partition disabled (R389). -/
def disablePart (s : State) (p : Nat) : State :=
  let x := partOf s p
  match x.st with
  | .off => s
  | .poweringUp => setWbit (setPart s p { x with disableNext := true }) (powerBase + 4 * p) 0 false
  | .on => shutPart s p
  | .poweringDown => s
  | .enablePending => setWbit (setPart s p { x with st := .poweringDown }) (powerBase + 4 * p) 0 false

/-- The granules of a partition's memories that lie in SCRATCH slices and powered banks, or in tiles and cores. -/
def partGranules (s : State) (p : Nat) : List Nat :=
  ((islandsOf p).flatMap islandGranules).filter (fun g =>
    decide (g < 8192) || (decide ((shmOf s ((g - 8192) / 16)).mode = .scratch) && decide (g - 8192 ∉ s.shmOff)))

/-- What image-front group k loses (R28): with group 0 the words and tables of the Plate and colour block, the PCM and the latched copies
(the block answers for group 0, log 9); with group 1 the latched copies of its colour stage's streams. -/
def loseFront (s : State) (k : Nat) : State :=
  if k = 0 then
    { clearMem (clearMem (clearRegs s frontBase 0x200000) frontBase 0x200000) pcmBase 0x1000000 with
      plPend := [], clPend := [], plLatch := [], clLatch := [] }
  else { s with clLatch := s.clLatch.filter (fun e => !(match streamOf s e.1 with | some x => decide (dStage x = 1) | none => false)) }

/-- What a partition loses when its supply is off, its islands' SLOW flags included (DESIGN CHOICE, log 66): registers and memories of
its islands, the network's flags and queues, mailbox buffers, locks of its ports, modes and lines of its SHM slices (R28, R299). -/
def losePart (s : State) (p : Nat) : State :=
  let s1 := (islandsOf p).foldl islandRegs s
  let s2 := granulesOff s1 ((islandsOf p).flatMap islandGranules)
  let s3 := { s2 with resetting := s2.resetting.filter (fun d => d ∉ islandsOf p), slow := s2.slow.filter (fun d => d ∉ islandsOf p) }
  if p = 43 then { s3 with flags := [], waits := [], updates := [], queues := [] }
  else if p = 42 then forAll (List.range 256) (fun s w => setWindow s w {}) (clearRegs s3 bridgeBase 0x10000)
  else if p = 45 then clearMem { s3 with fc := {}, inval := none, checks := [] } (mboxBase 0) 0x20000
  else if 26 ≤ p ∧ p < 30 then { s3 with ports := s3.ports.filter (fun e => decide (e.1 / 4 ≠ p - 26)) }
  else if p = 30 ∨ p = 31 then loseFront s3 (p - 30)
  else if 36 ≤ p ∧ p < 40 then forAll (ctlSlices (p - 36)) (fun s n => setShm s n {}) s3
  else s3

/-- The cycle requests of a partition answered. -/
def cycleAnswers (s : State) (p : Nat) : State :=
  forAll (s.host.cycleReplies.filter (fun r => r.1 = p)) (fun s r => answer s r.2.1 r.2.2.1 r.2.2.2.1 r.2.2.2.2 stOK [])
    { s with host := { s.host with cycleReplies := s.host.cycleReplies.filter (fun r => r.1 ≠ p) } }

/-- A partition is on: islands out of reset, memories DIRTY without owner (R287, R389), the fault collector empty (R28). -/
def raisePart (s : State) (p : Nat) : State :=
  let x := partOf s p
  let s1 := setPart s p { x with st := .on, cycles := min 0xFFFF (x.cycles + 1), idleSince := none }
  let s2 := granulesOn s1 (partGranules s1 p)
  let s3 := if 36 ≤ p ∧ p < 40 then setDdr s2 (p - 36) { ddrOf s2 (p - 36) with selfRefresh := false } else s2
  if p = 42 then forAll (List.range 4) beginTraining s3 else if p = 45 then { s3 with fc := {} } else s3

/-- Launches that waited for a partition taken up (R389). -/
def partReady (s : State) : State := jobsGo (forAll (streamList s) answerStart s)

/-- A write of `PW_PART_CTRL`: Apgil alone (R394). -/
def powerWrite (s : State) (src : Src) (p : Nat) (f : State → State) : State :=
  let a := powerBase + 4 * p
  match meets s src a with
  | .here => if isApgil src then f s else denied s src a
  | m => refuse s src a m

/-- PARTITION_ENABLE (R389, R394). -/
def execPartitionEnable (src : Src) (part : Nat) (s : State) : Out :=
  if 48 ≤ part then .next s else .next (powerWrite s src part (fun s => if fixedPart part then s else enablePart s part))

/-- Whether an image-front group must stay on (R29, R86). -/
def frontNeeded (s : State) (p : Nat) : Bool :=
  (decide (p = 30) && anyCarries s) ||
  (decide (p = 31) && (streamList s).any (fun n => match streamOf s n with | some x => carries x && decide (dStage x = 1) | none => false))

/-- PARTITION_DISABLE (R29, R86, R389, R394, R469). A group that must stay on answers its requester BUSY_TRANSITION. -/
def execPartitionDisable (src : Src) (part : Nat) (s : State) : Out :=
  if 48 ≤ part then .next s
  else .next (powerWrite s src part (fun s =>
    if frontNeeded s part then { s with bus := some { src := src, status := stBUSY, data := 0 } }
    else if fixedPart part then s else disablePart s part))

/-- PARTITION_POWER_UP_DONE (R287, R389): a disable that came meanwhile is carried out now. -/
def execPartitionPowerUpDone (part : Nat) (s : State) : Out :=
  let x := partOf s part
  if x.st = .poweringUp then
    let s1 := raisePart s part
    if x.disableNext then .next (shutPart s1 part) else .next (partReady (cycleAnswers s1 part))
  else .next s

/-- PARTITION_POWER_DOWN_DONE (R28, R389): the contents are lost; a pending enable powers it up at once. -/
def execPartitionPowerDownDone (part : Nat) (s : State) : Out :=
  let x := partOf s part
  match x.st with
  | .poweringDown => .next (setPart (losePart s part) part { x with st := .off })
  | .enablePending => .next (setPart (losePart s part) part { x with st := .poweringUp })
  | _ => .next s

/-! ### Idle partitions and the device's power states (R391) -/

/-- Whether a partition's engines are bound, or rules keep it on (R391). -/
def partUsed (s : State) (p : Nat) : Bool :=
  if p < 18 then (List.range 4).any (fun i => (tileCtx s (4 * p + i)).isSome)
  else if p < 26 then (coreCtx s (p - 18)).isSome
  else if p < 30 then (streamList s).any (fun n => match streamOf s n with | some x => decide (dPort x / 4 = p - 26) | none => false)
  else if p < 32 then frontNeeded s p
  else if p < 36 then
    (List.range 32).any (fun i => (chanCtx s ((p - 32) * 32 + i)).isSome) ||
    (List.range 72).any (fun n => decide (n % 12 / 3 = p - 32) && (tileCtx s n).isSome)
  else if p < 40 then true
  else if p < 42 then (sessionList s).any (fun n => match sessionOf s n with
    | some x => (match x.origin with | .mbox c => x.open' && (List.range 4).any (fun i => wbit s (mboxBase c + 0x1008) (4 * (p - 40) + i)) | _ => false)
    | none => false)
  else if p = 42 then licensed s 1
  else if p = 44 then (List.range 64).any (fun j => decide ((bruSlotOf s j).st ≠ .free)) || (List.range 128).any (fun c => (chanCtx s c).isSome)
  else true

/-- Whether a Stroke or a job runs. -/
def deviceWorks (s : State) : Bool :=
  anyCarries s || (jobList s).any (fun j => match jobOf s j with | some x => decide (x.st = .running) || decide (x.st = .placed) | none => false)

/-- Since when something has held: kept while it holds. -/
def since (holds : Bool) (old : Option Nat) (up : Nat) : Option Nat := if holds then (match old with | some t => some t | none => some up) else none

/-- The intervals of R391 followed at a tick: idle partitions, no work, no context; work makes the device ACTIVE. -/
def watchIdle (s : State) : State :=
  let works := deviceWorks s
  { s with power := { s.power with
    parts := s.power.parts.map (fun e => (e.1, { e.2 with
      idleSince := since (decide (e.2.st = .on) && !partUsed s e.1) e.2.idleSince s.clk.up }))
    idleSince := since (!works) s.power.idleSince s.clk.up
    noContextSince := since (contextList s).isEmpty s.power.noContextSince s.clk.up
    state := if works && decide (s.power.state = .idle) then .active else s.power.state } }

/-- Whether an interval has passed. -/
def lasted (t : Option Nat) (ns up : Nat) : Bool := match t with | some a => decide (a + ns ≤ up) | none => false

/-- PARTITION_IDLE_TIMEOUT (R391): a partition whose engines have been unbound for 10 ms is switched off. -/
def execPartitionIdleTimeout (part : Nat) (s : State) : Out :=
  let x := partOf s part
  if decide (x.st = .on) && !fixedPart part && !partUsed s part && lasted x.idleSince 10000000 s.clk.up && !heldInReset s .mgmt then
    .next (shutPart s part)
  else .next s

/-- DEVICE_IDLE_ENTRY (R277, R391): no Stroke or job for 10 ms; the DDR5 channels go into self-refresh. -/
def execDeviceIdleEntry (s : State) : Out :=
  if decide (s.power.state = .active) && !deviceWorks s && lasted s.power.idleSince 10000000 s.clk.up && !heldInReset s .mgmt then
    .next (forAll (List.range 4) (fun s k => setDdr s k { ddrOf s k with selfRefresh := true })
      { s with power := { s.power with state := .idle } })
  else .next s

/-- The ports in park (R391): the lowest-numbered port whose link is up stays up. -/
def parkPorts (s : State) : Tbl NetPort :=
  let keep := findBelow (fun p => (portOf s p).up) 4
  s.host.ports.map (fun e => (e.1, { e.2 with up := decide (some e.1 = keep) }))

/-- PARK_ENTRY (R391): no context for 60 s; the park block is written to DDR5, then every partition but network, always-on and SMI is
switched off. Apgil's own state lives on in the block alone. -/
def execParkEntry (s : State) : Out :=
  if decide (s.power.state = .idle) && (contextList s).isEmpty && !deviceWorks s && lasted s.power.noContextSince 60000000000 s.clk.up &&
      decide (s.boot.st = .ready) && decide (s.boot.phase = .none) && !heldInReset s .mgmt && !apgilPaused s then
    let block : HandOver := { host := s.host, streams := s.streams, groups := s.groups, modes := s.shm.map (fun e => (e.1, e.2.mode)) }
    let h : HostSide := { keptHost s.host with ports := parkPorts s }
    let s1 := (List.range 43 ++ [44]).foldl disablePart { s with host := h, boot := { s.boot with park := some block, mgmt := [] } }
    let s2 := setPart s1 45 { partOf s1 45 with st := .poweringDown }
    .next { s2 with power := { s2.power with state := .parked } }
  else .next s

/-- The order of R398's checks: the recovery reason of the first that fails. -/
def imageReason (s : State) (i : FwImage) : Option Nat :=
  if !i.headerOk || decide (i.length < 4096) || decide (15728640 < i.length) then some 1
  else if !i.keyOk then some 2
  else if !i.sigOk then some 2
  else if !i.digestOk then some 3
  else if 0xB0 < i.minStepping then some 1
  else if i.security < antiRollback s then some 4
  else none

/-- The recovery reason of the image in flash (R398, R400, R416): one partly written has a wrong digest. -/
def flashReason (s : State) : Option Nat := match s.boot.flashImage with | some i => imageReason s i | none => some 3

/-- Sessions whose timeout ran out while the device was parked end (R328, R391). -/
def endOldSessions (s : State) : State :=
  forAll (sessionList s) (fun s n => match sessionOf s n with
    | some x => if x.lastReq + x.timeout * 1000000000 ≤ s.clk.up then setSession s n none else s
    | none => s) s

/-- Apgil up again with the park block, the SHM slices in their modes of before, and the held requests served in order; without a block
it starts as after a boot (R391). -/
def takePark (s : State) : State :=
  let held := s.host.held
  let h : HostSide := match s.boot.park with
    | some b => { b.host with ports := s.host.ports, held := [],
                              mboxes := b.host.mboxes.foldl (fun t e => tset {} t e.1 { queued := e.2.queued }) [] }
    | none => { s.host with held := [] }
  let cores := (List.range 2).foldl (fun t n => tset {} t n { tget {} t n with running := !(tget {} t n).retired }) s.boot.mgmt
  let s1 := { s with host := h, power := { s.power with state := .active }, boot := { s.boot with park := none, image := s.boot.flashImage, mgmt := cores } }
  let s2 := match s.boot.park with
    | some b => forAll b.modes (fun s m => granulesOff (setShm s m.1 { mode := m.2 }) (if m.2 = .scratch then [] else sliceGranules m.1)) s1
    | none => s1
  held.foldl acpReceive (endOldSessions (iommuSetup s2))

/-- PARK_WAKE (R391, R398): the first ACP datagram wakes a parked device. An image that fails its check leads to RECOVERY. -/
def execParkWake (f : EthFrame) (s : State) : Out :=
  if s.power.state = .parked then
    match execNetworkFrameReceive f s with
    | .next s1 =>
      if s1.host.held.isEmpty then .next s1
      else
        let s2 := [36, 37, 38, 39, 45].foldl (fun s p => raisePart (if (partOf s p).st = .poweringDown then losePart s p else s) p) s1
        match flashReason s2 with
        | some r => .next { s2 with power := { s2.power with state := .active }
                                    boot := { s2.boot with st := .recovery, recovery := r, mgmt := tset {} [] 0 { running := true } } }
        | none => .next (takePark (if licensed s2 1 then enablePart s2 42 else s2))
    | o => o
  else .next s

/-! ### Temperatures (R393, R447) -/

/-- A thermal trip: every partition but the always-on island and the SMI is off, with all it held; the device state stays (R395). -/
def tripDevice (s : State) : State :=
  let s1 := resetMain s true s.boot.reason
  { s1 with
    boot := { s.boot with handOver := none, park := none, mgmt := [] }
    power := { s1.power with tripped := true, level := 2, parts := s1.power.parts.map (fun e =>
      (e.1, if e.1 = 46 ∨ e.1 = 47 then partOf s e.1 else e.2)) } }

/-- TEMPERATURE_SAMPLE (R393, R436), in sixteenths of a degree: the hottest sensor that is not set aside decides. -/
def execTemperatureSample (temps : List Int) (s : State) : Out :=
  let heard := ((List.range temps.length).filter (fun i => decide (i ∉ s.power.tempOut))).map (fun i => temps.getD i 0)
  let t := heard.foldl max (heard.headD 0)
  let s1 := { s with power := { s.power with
    temps := (List.range temps.length).foldl (fun q i => tset 0 q i (temps.getD i 0)) s.power.temps
    below100 := since (decide (t ≤ 1520)) s.power.below100 s.clk.up
    below105 := since (decide (t ≤ 1600)) s.power.below105 s.clk.up } }
  let s1 := if heard.isEmpty then s1 else forAll (List.range 4) (fun s k => setDdr s k { ddrOf s k with fast := decide (1360 < t) }) s1
  if s1.power.tripped || heard.isEmpty then .next s1
  else if 1840 < t then .next (tripDevice s1)
  else
    let warn := decide (1600 < t) && decide (s1.power.level = 0)
    let limit := decide (1680 < t) && decide (s1.power.level < 2)
    let s2 := if warn then raiseEv { s1 with power := { s1.power with level := 1 } } 0x601 0 1127 none (wrapI 16 t) else s1
    let s3 := if limit then raiseEv { s2 with power := { s2.power with level := 2 } } 0x602 0 1127 none (wrapI 16 t) else s2
    .next s3

/-- THERMAL_CAP_RELEASE (R393): a cap goes when the temperature has stayed 5 °C below its threshold for 1 s. -/
def execThermalCapRelease (s : State) : Out :=
  let p := s.power
  if p.tripped then .next s
  else if decide (p.level = 1 ∨ p.level = 2) && lasted p.below100 1000000000 s.clk.up then .next { s with power := { p with level := 0 } }
  else if decide (p.level = 2) && lasted p.below105 1000000000 s.clk.up then .next { s with power := { p with level := 1 } }
  else .next s

/-! ### RESET_PARTITION (R30, R326, R334, R337, R417, R469) -/

/-- Contexts with work that a reset domain holds. -/
def domainUsers (s : State) (d : Domain) : List Nat :=
  let strokes (f : Stream → Bool) : List Nat := (streamList s).filterMap (fun n => match streamOf s n with
    | some x => if carries x && f x then some x.ctx else none
    | none => none)
  let chans (l : List Nat) : List Nat := l.filterMap (chanCtx s)
  match d with
  | .tile n => (tileCtx s n).toList
  | .core n => (coreCtx s n).toList
  | .port p => strokes (fun x => dPort x = p)
  | .plate _ => strokes (fun _ => true)
  | .colour k => strokes (fun x => dStage x = k)
  | .stat => strokes (fun _ => true)
  | .pcm => strokes (fun _ => true)
  | .bru => (List.range 64).filterMap (bruCtx s)
  | .stipple _ => chans (List.range 128)
  | .dma k => chans ((List.range 32).map (fun i => 32 * k + i))
  | .ddr _ => contextList s
  | .bridge _ => (List.range 256).filterMap (fun w => if (windowOf s w).st = .closed then none else some (windowOf s w).ctx)
  | .network => contextList s
  | .appCluster _ => []
  | .mgmt => []
  | .smi => []
  | .aon => []

/-- Whether a context belongs to another session. -/
def otherSession (s : State) (sess c : Nat) : Bool := match contextOf s c with | some x => decide (x.sess ≠ sess) | none => false

/-- A management core restarts alone (R30, R444): its replies wait for the end. -/
def restartCore (s : State) (n : Nat) : State :=
  { s with boot := { s.boot with mgmt := tset {} s.boot.mgmt n { tget {} s.boot.mgmt n with restarting := true } } }

/-- The reply of a request put off until an island's reset or a partition's cycle ends. -/
def putOffReset (s : State) (r : AcpReq) (d : Domain) : State :=
  { s with host := { s.host with resetReplies := s.host.resetReplies ++ [(d, r.sess, r.seq, r.typ, r.ctx)] } }
def putOffCycle (s : State) (r : AcpReq) (p : Nat) : State :=
  { s with host := { s.host with cycleReplies := s.host.cycleReplies ++ [(p, r.sess, r.seq, r.typ, r.ctx)] } }

/-- One reset domain reset on request. -/
def requestReset (s : State) (r : AcpReq) (i : Nat) (force : Bool) : State :=
  match engineDomain i with
  | none => failReply s r stCOUNT 8 i
  | some .mgmt =>
    if s.boot.phase ≠ .none then failReply s r stBUSY 8 i else putOffReset (restartCore s (i - 0x10060)) r .mgmt
  | some d =>
    let p := partOf s (partitionOf d)
    if !force && (domainUsers s d).any (otherSession s r.sess) then failReply s r stBUSY 8 i
    else if p.st = .off then failReply s r stRESET 8 i
    else if decide (p.st ≠ .on) || decide (d ∈ s.resetting) then failReply s r stBUSY 8 i
    else domainResetBegin (putOffReset s r d) d

/-- One partition cycled on request. -/
def requestCycle (s : State) (r : AcpReq) (p : Nat) (force : Bool) : State :=
  let x := partOf s p
  if p = 45 then
    (if s.boot.phase ≠ .none then failReply s r stBUSY 8 p else putOffReset (restartCore (restartCore s 0) 1) r .mgmt)
  else if fixedPart p then failReply s r stCOUNT 8 p
  else if (!force && (islandsOf p).any (fun d => (domainUsers s d).any (otherSession s r.sess))) || frontNeeded s p then failReply s r stBUSY 8 p
  else if x.st = .on then putOffCycle (enablePart (shutPart s p) p) r p
  else if x.st = .off then putOffCycle (enablePart s p) r p
  else failReply s r stBUSY 8 p

/-- RESET_PARTITION (R30, R326, R337). -/
def execResetPartition (r : AcpReq) (s : State) : Out :=
  deviceWide s r (fun s =>
    let o := (objectOf r).getD (0xFFFF, 0)
    let force := match tlv r 0x8043 with | some v => decide (leAt v 0 1 % 2 = 1) | none => false
    if badLen r 0x8043 4 then failReply s r stCOUNT 5 0x8043
    else if o.1 ≠ 4 ∧ o.1 ≠ 5 then failReply s r stCOUNT 8 o.1
    else match objectStatus s r o.1 o.2 with
      | some st => failObject s r st o.2
      | none => if o.1 = 4 then requestReset s r o.2 force else requestCycle s r o.2 force)

/-! ### The empty queue -/

/-- What step does on an empty queue: an event tick passes, placed jobs start, idle intervals are followed (log 7). -/
def idleTick (s : State) : State := watchIdle (jobsGo (ackOut (eventTick s)))

end Sys2Proof.Machine
end

