-- ==== Sys2Proof/Machine/Hull.lean ====
section
/-!
DEFINITION. Sys2Proof/Machine/Hull.lean: the visual hull of the Sealed Measurement Island and the figures taken from it (R366 to
R370). Coordinates are micrometres; every division truncates; the readings the spec leaves open are log 33.
-/
namespace Sys2Proof.Machine

/-- A point in micrometres. -/
abbrev Pt3 := Int × Int × Int

/-- A view of a MEASURE message: camera, border bit, calibration identifier, vertices as signed Q4.28. -/
structure HullView where
  camera : Nat
  border : Bool
  calib : Nat
  verts : List (Int × Int)
  deriving DecidableEq, Repr

/-- The integer square root, bit by bit from bit `k - 1` of the root down. -/
def isqrt (n : Nat) : Nat → Nat → Nat
  | 0, r => r
  | k + 1, r => isqrt n k (if (r + 2 ^ k) * (r + 2 ^ k) ≤ n then r + 2 ^ k else r)

/-- The root of a number below 2¹²⁸. -/
def root (n : Nat) : Nat := isqrt n 64 0

/-- A point of the world in a camera's frame: R · X + t, R in Q2.30. -/
def camPoint (c : Camera) (p : Pt3) : Pt3 :=
  let row (i : Nat) : Int := (c.rot.getD (3 * i) 0 * p.1 + c.rot.getD (3 * i + 1) 0 * p.2.1 + c.rot.getD (3 * i + 2) 0 * p.2.2).tdiv (2 ^ 30) +
    c.trans.getD i 0
  (row 0, row 1, row 2)

/-- Whether a point lies inside a simple polygon: an odd number of edges cross the ray to its right. -/
def insidePoly (poly : List (Int × Int)) (u v : Int) : Bool :=
  let edges := poly.zip (poly.drop 1 ++ poly.take 1)
  decide ((edges.filter (fun e =>
    let a := e.1
    let b := e.2
    let dy := b.2 - a.2
    let side := (b.1 - a.1) * (v - a.2) - (u - a.1) * dy
    (decide (v < a.2) != decide (v < b.2)) && (if 0 < dy then decide (0 < side) else decide (side < 0)))).length % 2 = 1)

/-- Whether a point of the world projects inside a silhouette (R367). -/
def seesInside (c : Camera) (poly : List (Int × Int)) (p : Pt3) : Bool :=
  let q := camPoint c p
  decide (0 < q.2.2) && insidePoly poly ((q.1 * 2 ^ 28).tdiv q.2.2) ((q.2.1 * 2 ^ 28).tdiv q.2.2)

/-- Voxels of edge e along an axis of the volume. -/
def voxelCount (p : SmiParams) (axis : Nat) : Nat := (p.hi.getD axis 0 - p.lo.getD axis 0).toNat / p.e

/-- The centre of a voxel. -/
def voxelCentre (p : SmiParams) (v : Nat × Nat × Nat) : Pt3 :=
  let at' (axis i : Nat) : Int := p.lo.getD axis 0 + ((p.e * i + p.e / 2 : Nat) : Int)
  (at' 0 v.1, at' 1 v.2.1, at' 2 v.2.2)

/-- The voxels kept (R367): their centres project inside every usable view. The carving from 16e down keeps the same voxels. -/
def keptVoxels (p : SmiParams) (views : List (Camera × List (Int × Int))) : List (Nat × Nat × Nat) :=
  ((List.range (voxelCount p 0)).flatMap (fun i => (List.range (voxelCount p 1)).flatMap (fun j =>
    (List.range (voxelCount p 2)).map (fun k => (i, j, k))))).filter (fun v =>
      views.all (fun w => seesInside w.1 w.2 (voxelCentre p v)))

/-- Whether a kept voxel lies on the boundary of the volume (R368); the floor at z = 0 is no such boundary. -/
def onBoundary (p : SmiParams) (v : Nat × Nat × Nat) : Bool :=
  decide (v.1 = 0) || decide (v.1 + 1 = voxelCount p 0) || decide (v.2.1 = 0) || decide (v.2.1 + 1 = voxelCount p 1) ||
  decide (v.2.2 + 1 = voxelCount p 2) || (decide (v.2.2 = 0) && decide (p.lo.getD 2 0 ≠ 0))

/-- Whether the ray of a vertex passes farther than e from a point given in the camera's frame. -/
def rayFar (e : Nat) (vert : Int × Int) (q : Pt3) : Bool :=
  let d : Pt3 := (vert.1, vert.2, 2 ^ 28)
  let dot := q.1 * d.1 + q.2.1 * d.2.1 + q.2.2 * d.2.2
  let n2 (a : Pt3) : Int := a.1 * a.1 + a.2.1 * a.2.1 + a.2.2 * a.2.2
  let cross : Pt3 := (q.2.1 * d.2.2 - q.2.2 * d.2.1, q.2.2 * d.1 - q.1 * d.2.2, q.1 * d.2.1 - q.2.1 * d.1)
  if dot ≤ 0 then decide (((e : Int) * e) < n2 q) else decide ((e : Int) * e * n2 d < n2 cross)

/-- q_v (R368): the per-mille share of a view's vertices whose ray passes farther than e from every kept voxel centre. -/
def viewShare (p : SmiParams) (c : Camera) (poly : List (Int × Int)) (kept : List (Nat × Nat × Nat)) : Nat :=
  let qs := kept.map (fun v => camPoint c (voxelCentre p v))
  (poly.filter (fun a => qs.all (rayFar p.e a))).length * 1000 / poly.length

/-- D_v (R370): the greatest distance from a camera to a kept voxel centre. -/
def viewReach (p : SmiParams) (c : Camera) (kept : List (Nat × Nat × Nat)) : Nat :=
  (kept.map (fun v => let q := camPoint c (voxelCentre p v); root (q.1 * q.1 + q.2.1 * q.2.1 + q.2.2 * q.2.2).toNat)).foldl max 0

/-- The floor corners of the kept voxels, each with its full extent (R369). -/
def floorCorners (p : SmiParams) (kept : List (Nat × Nat × Nat)) : List (Int × Int) :=
  (kept.flatMap (fun v => [(0, 0), (0, 1), (1, 0), (1, 1)].map (fun (d : Nat × Nat) =>
    (p.lo.getD 0 0 + ((p.e * (v.1 + d.1) : Nat) : Int), p.lo.getD 1 0 + ((p.e * (v.2.1 + d.2) : Nat) : Int))))).eraseDups

/-- The extent of a set of numbers. -/
def spanOf (l : List Int) : Nat :=
  match l with
  | [] => 0
  | a :: t => (t.foldl max a - t.foldl min a).toNat

/-- The rectangle that encloses the points with a side along a direction: both extents times the direction's length, and the
square of that length. -/
def boxAlong (pts : List (Int × Int)) (d : Int × Int) : Nat × Nat × Nat :=
  (spanOf (pts.map (fun r => r.1 * d.1 + r.2 * d.2)), spanOf (pts.map (fun r => r.2 * d.1 - r.1 * d.2)), (d.1 * d.1 + d.2 * d.2).toNat)

/-- The directions of the edges of the convex hull of the points. -/
def hullEdges (pts : List (Int × Int)) : List (Int × Int) :=
  pts.flatMap (fun a => (pts.filter (fun b => decide (b ≠ a) &&
    pts.all (fun r => decide (0 ≤ (b.1 - a.1) * (r.2 - a.2) - (b.2 - a.2) * (r.1 - a.1))))).map (fun b => (b.1 - a.1, b.2 - a.2)))

/-- The smallest-area enclosing rectangle (R369): a side lies along an edge of the convex hull; L is the longer side. -/
def smallestBox (pts : List (Int × Int)) : Nat × Nat :=
  match (hullEdges pts).map (boxAlong pts) with
  | [] => (0, 0)
  | b :: t =>
    let r := t.foldl (fun m c => if c.1 * c.2.1 * m.2.2 < m.1 * m.2.1 * c.2.2 then c else m) b
    let side (x : Nat) : Nat := if r.2.2 = 0 then 0 else root (x * x / r.2.2)
    (max (side r.1) (side r.2.1), min (side r.1) (side r.2.1))

/-- The figures of a measurement (R369, R370). -/
structure HullResult where
  l : Nat
  w : Nat
  h : Nat
  q : Nat
  u : Nat
  box : Nat
  hull : Nat
  deriving DecidableEq, Repr

/-- The figures of a set of kept voxels seen by usable views. -/
def hullFigures (p : SmiParams) (views : List (Camera × List (Int × Int))) (kept : List (Nat × Nat × Nat)) : HullResult :=
  let b := smallestBox (floorCorners p kept)
  let top := (p.lo.getD 2 0 + ((p.e * ((kept.map (fun v => v.2.2 + 1)).foldl max 0) : Nat) : Int)).toNat
  let q := (views.map (fun w => viewShare p w.1 w.2 kept)).foldl max 0
  let m := (views.map (fun w => w.1.rho * viewReach p w.1 kept)).foldl max 0
  { l := b.1, w := b.2, h := top, q := q, u := p.e + p.e * q / 20 + 2 * m / 1000000,
    box := b.1 * b.2 * top / 1000000000, hull := kept.length * p.e * p.e * p.e / 1000000000 }

/-- A length in units of d, rounded to nearest, halves up (R369). -/
def inUnits (d x : Nat) : Nat := if d = 0 then 0 else (2 * x + d) / (2 * d)

end Sys2Proof.Machine
end

