-- ==== Sys2Proof/Machine/Smi.lean ====
section
/-!
DEFINITION. Sys2Proof/Machine/Smi.lean: the Sealed Measurement Island (R359 to R379, R433, R434, R457). The message bodies that the
spec lays out no bytes for are log 34.
-/
namespace Sys2Proof.Machine

/-! ### The inlet (R362 to R364) -/

/-- Slots `first` to `first + n - 1`, wrapping from 15 to 0. -/
def inletSlots (first n : Nat) : List Nat := (List.range n).map (fun i => (first + i) % 16)

/-- The set of committed slots as bits. -/
def slotBits (l : List Nat) : Nat := (l.eraseDups.map (fun k => 2 ^ k)).sum

/-- INLET_WRITE (R362 to R364). -/
def execInletWrite (src : Src) (offset : Nat) (value : Word) (s : State) : Out :=
  let a := smiBase + offset
  match meets s src a with
  | .here =>
    if 0x40000 ≤ offset then .next s
    else .next (inletPut s src a (leBytes 4 value.toNat))
  | m => .next (refuse s src a m)

/-- Slots handed to the SMI (R364), or commit_bad. -/
def inletHand (s : State) (first n : Nat) : State :=
  let l := inletSlots first n
  if l.any (fun k => s.smi.committed.testBit k) then setWbit s (smReg 0xC) 0 true
  else { s with smi := { s.smi with committed := s.smi.committed ||| slotBits l, queue := s.smi.queue ++ [(first, n)] } }

/-- INLET_COMMIT (R363, R364, R379): a write of `SM_IN_COMMIT`. -/
def execInletCommit (src : Src) (value : Word) (s : State) : Out :=
  let a := smReg 8
  match meets s src a with
  | .here => if inletWriter s src then .next (inletHand s (fld value 3 0) (fld value 7 4 + 1)) else .next (denied s src a)
  | m => .next (refuse s src a m)

/-! ### The outlet (R365, R371, R372) -/

/-- Roles of the SMI's keys: 1 the factory key; the record key goes with the running firmware's digest. -/
def recordRole (s : State) : Nat := 2 + s.smi.fwDigest

/-- An outlet record (R372): `hdr` is the header of the message it answers, `rest` bytes 48 to 191. Only a RUNNING SMI makes records. -/
def smiRecord (s : State) (role typ status reason : Nat) (hdr rest : List Byte) : State :=
  if s.smi.st = .running then
    let body := leBytes 2 1 ++ leBytes 1 typ ++ leBytes 1 status ++ leBytes 4 s.smi.outWr ++ leBytes 4 s.smi.boots ++ leBytes 4 s.smi.event ++
      leBytes 1 (b2n s.smi.legal + 2 * b2n s.smi.sealed) ++ leBytes 1 reason ++ leBytes 2 0 ++ slice (padTo 24 hdr) 4 20 ++
      leBytes 8 s.clk.now ++ (padTo 144 rest).take 144
    let s1 := store s (smiBase + 0x100000 + s.smi.outWr % 1024 * 256) (body ++ (padTo 64 (Config.signature role (sha256 body))).take 64)
    { s1 with smi := { s1.smi with outWr := (s1.smi.outWr + 1) % 2 ^ 32 } }
  else s

/-- The administrative result record of a message (R374). -/
def smiResult (s : State) (m : List Byte) (status : Nat) : State :=
  smiRecord s (recordRole s) 5 status 0 m (List.replicate 40 0 ++ sha256 m)

/-- A key statement (R371): record public key, firmware digest, boot count, event counter, signed with the factory key. -/
def smiStatement (s : State) (hdr : List Byte) : State :=
  smiRecord s 1 3 stOK 0 hdr (List.replicate 16 0 ++ (padTo 64 (Config.publicKey (recordRole s))).take 64 ++ beBytes 32 s.smi.fwDigest ++
    leBytes 4 s.smi.boots ++ leBytes 4 s.smi.event)

/-! ### Messages (R364) -/

/-- Bytes of the slots of a message, in order. -/
def slotBytes (s : State) (first n : Nat) : List Byte := (inletSlots first n).flatMap (fun k => bytesAt s (smiBase + k * 0x4000) 0x4000)

/-- Whether the SMI works. -/
def smiAwake (s : State) : Bool := !heldInReset s .smi && (decide (s.smi.st = .running) || decide (s.smi.st = .recovery))

/-- The kinds an SMI takes in its state: all when RUNNING, a firmware's chunks and commit in RECOVERY (R374, R376). -/
def kindTaken (s : State) (k : Nat) : Bool :=
  if s.smi.st = .running then decide (k ∈ [0x01, 0x10, 0x11, 0x20, 0x21, 0x30, 0x40, 0x41]) else decide (k = 0x10) || decide (k = 0x11)

/-- SMI_MESSAGE_TAKE (R364): the oldest committed message moves into working memory and its slots become FREE. A message of no listed
kind ends there, with COUNT_LIMIT when RUNNING. -/
def execSmiMessageTake (s : State) : Out :=
  if smiAwake s && decide (s.smi.work = none) && decide (s.smi.fwPending = none) then
    match s.smi.queue with
    | [] => .next s
    | (f, n) :: t =>
      let bs := slotBytes s f n
      let s1 := { s with smi := { s.smi with queue := t, committed := s.smi.committed &&& (0xFFFF ^^^ slotBits (inletSlots f n)) } }
      if kindTaken s1 (leAt bs 2 1) then .next { s1 with smi := { s1.smi with work := some bs } }
      else .next (smiResult s1 (bs.take 64) stCOUNT)
  else .next s

/-- The message in hand when it is of a kind, cut to its length. -/
def smiWork (s : State) (kind : Nat) : Option (List Byte) :=
  if smiAwake s then (match s.smi.work with | some bs => if leAt bs 2 1 = kind then some bs else none | none => none) else none

/-- The message handled: working memory is free. -/
def smiFree (s : State) : State := { s with smi := { s.smi with work := none } }

/-- A handler run on the message in hand of its kind; without one nothing happens. -/
def onMessage (s : State) (kind : Nat) (f : State → List Byte → State) : Out :=
  match smiWork s kind with
  | some bs => .next (f (smiFree s) bs)
  | none => .next s

/-- The message without its checkword bytes, and whether the checkword matches and the length is in bounds. -/
def msgLength (bs : List Byte) : Nat := leAt bs 24 4
def msgBody (bs : List Byte) : List Byte := bs.take (msgLength bs)
def blankCheck (bs : List Byte) : List Byte := bs.take 28 ++ [0, 0, 0, 0] ++ bs.drop 32
def msgCheckOk (bs : List Byte) : Bool := decide ((crc32c (blankCheck (msgBody bs))).toNat = leAt bs 28 4)
def msgLengthOk (bs : List Byte) : Bool := decide (64 ≤ msgLength bs) && decide (msgLength bs ≤ 262144) && decide (msgLength bs ≤ bs.length)

/-! ### The Proof log (R375, R377, R433, R434) -/

/-- Bytes 0 to 63 of a log entry. -/
def entryBytes (e : LogEntry) : List Byte :=
  let b := leBytes 2 1 ++ leBytes 1 e.kind ++ leBytes 1 0 ++ leBytes 4 e.seq ++ leBytes 4 e.event ++ leBytes 4 e.boot ++ leBytes 8 e.time ++
    beBytes 32 e.digest ++ leBytes 4 e.param
  b ++ leBytes 4 (crc32c b).toNat

/-- The entries that count. -/
def logValid (s : State) : List LogEntry := s.smi.log.filter (fun e => !e.torn)

/-- The newest entry of some kinds. -/
def newestEntry (s : State) (ks : List Nat) : Option LogEntry := (logValid s).foldl (fun o e => if e.kind ∈ ks then some e else o) none

/-- A slot of the log that a cut has torn, voided. -/
def voidEntry : LogEntry := { kind := 0, seq := 0, event := 0, boot := 0, time := 0, digest := 0, param := 0, torn := true, sig := [] }

/-- The log with a torn slot voided before the next entry (R434). -/
def logVoided (s : State) : List LogEntry := if s.smi.torn then s.smi.log ++ [voidEntry] else s.smi.log

/-- Room for one more entry (R377). -/
def logRoom (s : State) : Nat := 65536 - (logVoided s).length

/-- An entry committed (R375, R377): a change increments the event counter; a multiple of 128 burns an OTP bit (R433). -/
def logAppend (s : State) (kind : Nat) (change : Bool) (digest param : Nat) : State :=
  let ev := if change then (s.smi.event + 1) % 2 ^ 32 else s.smi.event
  let e : LogEntry := { kind := kind, seq := match (logValid s).getLast? with | some p => p.seq + 1 | none => 0, event := ev, boot := s.smi.boots,
                        time := s.clk.now, digest := digest, param := param, torn := false, sig := [] }
  let e1 := { e with sig := (padTo 64 (Config.signature (recordRole s) (sha256 (entryBytes e)))).take 64 }
  { s with smi := { s.smi with log := logVoided s ++ [e1], torn := false, event := ev,
                               otpEvents := if change ∧ ev % 128 = 0 then max s.smi.otpEvents (min 512 (ev / 128)) else s.smi.otpEvents } }

/-- A refusal counted, and logged at most once per 60 s while 1,024 entries are free (R377). -/
def logRefusal (s : State) : State :=
  let n := s.smi.refusals + 1
  let due := match s.smi.refusedAt with | some t => decide (t + 60000000000 ≤ s.smi.clock) | none => true
  if due && decide (1024 ≤ logRoom s) then
    let s1 := logAppend s 8 false 0 n
    { s1 with smi := { s1.smi with refusals := 0, refusedAt := some s1.smi.clock } }
  else { s with smi := { s.smi with refusals := n } }

/-- A change of a legally relevant item (R374, R375): refused when the log is full or the seal is asserted, otherwise logged and then put
into effect. -/
def smiChange (s : State) (m : List Byte) (kind digest param : Nat) (apply : State → State) : State :=
  if logRoom s = 0 then smiResult s m stCOUNT
  else if s.smi.sealed then smiResult (logRefusal s) m stSEALED
  else smiResult (apply (logAppend s kind true digest param)) m stOK

/-! ### Signed messages (R374) -/

/-- The key and signature at a message's end. -/
def msgKey (m : List Byte) : List Byte := slice m (m.length - 128) 64
def msgSig (m : List Byte) : List Byte := slice m (m.length - 64) 64

/-- Whether a message is signed by a key with a hash; a blank hash takes any key. -/
def msgSigned (m : List Byte) (hash : Option Nat) : Bool :=
  (match hash with | some h => decide (beNat (sha256 (msgKey m)) = h) | none => true) &&
    ecdsaVerify (msgKey m) (msgSig m) (sha256 (blankCheck (m.take (m.length - 64))))

/-- A message after the checks all messages share: checkword and length, with `body` bytes more after the header. -/
def checkedMessage (s : State) (bs : List Byte) (body : Nat) (f : List Byte → State) : State :=
  let m := msgBody bs
  if !msgCheckOk bs then smiResult s m stCHECK
  else if !msgLengthOk bs ∨ leAt bs 0 2 ≠ 1 ∨ m.length < 64 + body then smiResult s m stCOUNT
  else f m

/-! ### Measurement (R366 to R370) -/

/-- The calibration slot in use. -/
def activeSlot (s : State) : Option CalSlot := if s.smi.active then s.smi.slotB else s.smi.slotA

/-- The view blocks of a message, none where one runs past the end or its vertex count is out of bounds. -/
def viewBlocks : Nat → List Byte → Option (List HullView)
  | 0, _ => some []
  | n + 1, bs =>
    let k := leAt bs 2 2
    if bs.length < 16 ∨ k < 3 ∨ 1024 < k ∨ bs.length < 16 + 8 * k then none
    else
      let vs := (List.range k).map (fun i => (sext 32 (leAt bs (16 + 8 * i) 4), sext 32 (leAt bs (20 + 8 * i) 4)))
      (viewBlocks n (bs.drop (16 + 8 * k))).map (fun t =>
        { camera := leAt bs 0 1, border := decide (leAt bs 1 1 % 2 = 1), calib := leAt bs 4 4, verts := vs } :: t)

/-- A camera of a calibration slot. -/
def cameraOf (sl : Option CalSlot) (k : Nat) : Option Camera := sl.bind (fun x => x.cameras.find? (fun c => c.index = k))

/-- The views of a message that pass check 2 (R368). -/
def structuredViews (s : State) (bs : List Byte) : Option (List HullView) :=
  let n := leAt bs 3 1
  if !msgLengthOk bs ∨ leAt bs 0 2 ≠ 1 ∨ n < 3 ∨ 16 < n then none
  else match viewBlocks n ((msgBody bs).drop 64) with
    | none => none
    | some vs =>
      if vs.any (fun v => (cameraOf (activeSlot s) v.camera).isNone) || decide ((vs.map (fun v => v.camera)).eraseDups.length < vs.length) then none
      else some vs

/-- Bytes 48 to 191 of a measurement or rejection record (R372): `r` gives the figures that are reported. -/
def measureRest (s : State) (m : List Byte) (vs : List HullView) (r : Option HullResult) (q : Nat) : List Byte :=
  let p := s.smi.params
  let x : HullResult := r.getD { l := 0, w := 0, h := 0, q := 0, u := 0, box := 0, hull := 0 }
  leBytes 4 x.l ++ leBytes 4 x.w ++ leBytes 4 x.h ++ leBytes 4 x.u ++ leBytes 8 x.box ++ leBytes 8 x.hull ++
    leBytes 2 (slotBits ((vs.filter (fun v => !v.border)).map (fun v => v.camera))) ++ leBytes 1 vs.length ++ leBytes 1 (min q 255) ++
    leBytes 4 (match activeSlot s with | some c => c.setId | none => 0) ++ sha256 m ++ leBytes 4 p.d ++
    (if r.isSome then leBytes 2 (inUnits p.d x.l) ++ leBytes 2 (inUnits p.d x.w) ++ leBytes 2 (inUnits p.d x.h) else [])

/-- The record of a MEASURE message: status, reason, bytes 48 to 191 (R368: the first failing check). -/
def measureOutcome (s : State) (bs : List Byte) : Nat × Nat × List Byte :=
  let m := msgBody bs
  let p := s.smi.params
  if !msgCheckOk bs then (stCHECK, 1, measureRest s m [] none 0)
  else match structuredViews s bs with
    | none => (stCOUNT, 2, measureRest s m [] none 0)
    | some vs =>
      let no (reason q : Nat) : Nat × Nat × List Byte := (stOK, reason, measureRest s m vs none q)
      if vs.any (fun v => match cameraOf (activeSlot s) v.camera with | some c => decide (c.ident ≠ v.calib) | none => true) then no 3 0
      else
        let use := (vs.filter (fun v => !v.border)).filterMap (fun v => (cameraOf (activeSlot s) v.camera).map (fun c => (c, v.verts)))
        if use.length < 3 then no 4 0
        else
          let kept := keptVoxels p use
          if kept.isEmpty || kept.any (onBoundary p) then no 5 0
          else
            let r := hullFigures p use kept
            if p.qmax < r.q then no 6 r.q
            else if r.l < p.minDim ∨ r.w < p.minDim ∨ r.h < p.minDim then no 7 r.q
            else (stOK, 0, measureRest s m vs (some r) r.q)

/-- MEASURE (R365 to R370, R372, R373): a signed record, type 1 when every check passes, otherwise type 2. -/
def execMeasure (s : State) : Out :=
  onMessage s 0x01 (fun s bs =>
    let o := measureOutcome s bs
    smiRecord s (recordRole s) (if o.2.1 = 0 then 1 else 2) o.1 o.2.1 bs o.2.2)

/-! ### Firmware (R371, R374, R376) -/

/-- The largest SMI image (R418). -/
def smiImageMax : Nat := 1728 * 1024

/-- FW_CHUNK (R373): bytes of an image staged at the offset of bytes 32 to 39. -/
def execFwChunk (s : State) : Out :=
  onMessage s 0x10 (fun s bs => checkedMessage s bs 1 (fun m =>
    if smiImageMax < leAt m 32 8 + (m.length - 64) then smiResult s m stCOUNT
    else smiResult { s with smi := { s.smi with staged := s.smi.staged ++ [(leAt m 32 8, m.drop 64)] } } m stOK))

/-- Flash operations of the image area: each of its blocks erased and programmed. -/
def smiImageOps (n : Nat) : List FlashOp :=
  (List.range (ceilDiv n 65536)).flatMap (fun i => [{ smi := true, erase := true, block := 256 + i }, { smi := true, erase := false, block := 256 + i }])

/-- The metrology key's hash blank: it is burned with the key of the commit, and logged (R374). -/
def burnKey (s : State) (m : List Byte) : State :=
  match s.smi.keyHash with
  | some _ => s
  | none =>
    let h := beNat (sha256 (msgKey m))
    logAppend { s with smi := { s.smi with keyHash := some h } } 9 false h 0

/-- FW_COMMIT (R374 to R376): length in bytes 32 to 35, security version in bytes 36 to 39. FW_PENDING is logged and the image area is
written from then on. -/
def execFwCommit (s : State) : Out :=
  onMessage s 0x11 (fun s bs => checkedMessage s bs 128 (fun m =>
    let n := leAt m 32 4
    let image := (assembled s.smi.staged).take n
    let d := beNat (sha256 image)
    if n = 0 ∨ smiImageMax < n ∨ coveredTo s.smi.staged < n then smiResult s m stCOUNT
    else if !msgSigned m s.smi.keyHash then smiResult s m stSIGN
    else if leAt m 36 4 < s.smi.fwSecurity then smiResult s m stVERSION
    else
      let s1 := if s.smi.sealed ∨ logRoom s < 2 then s else burnKey s m
      smiChange s1 m 1 d 0 (fun s => { s with
        smi := { s.smi with fwPending := some (d, leAt m 36 4), imageDigest := 0 }
        flash := flashSubmit s.flash (smiImageOps n) })))

/-- SMI_FW_DONE (R376): the image area is written and verified: FW_DONE is logged and the SMI restarts. -/
def execSmiFwDone (s : State) : Out :=
  match s.smi.fwPending with
  | some (d, v) =>
    if smiAwake s && !flashPortBusy s.flash true then
      let s1 := { s with smi := { s.smi with imageDigest := d, fwSecurity := v } }
      .next (smiResetOp (if logRoom s1 = 0 then s1 else logAppend s1 2 false d 0))
    else .next s
  | none => .next s

/-! ### Calibration, parameters, licence (R366, R373 to R376) -/

/-- A camera record of a CAL_INSTALL message: 60 bytes. -/
def cameraAt (bs : List Byte) : Camera :=
  { index := leAt bs 0 1, ident := leAt bs 4 4, rot := (List.range 9).map (fun i => sext 32 (leAt bs (8 + 4 * i) 4)),
    trans := (List.range 3).map (fun i => sext 32 (leAt bs (44 + 4 * i) 4)), rho := leAt bs 56 4 }

/-- The digest of a calibration slot whose content a message carries. -/
def calDigest (m : List Byte) : Nat := beNat (sha256 (slice m 64 (m.length - 192)))

/-- The slot a CAL_INSTALL message describes: set identifier in bytes 32 to 35, cameras in byte 36. -/
def calSlotOf (m : List Byte) : CalSlot :=
  { setId := leAt m 32 4, digest := calDigest m, cameras := (List.range (leAt m 36 1)).map (fun i => cameraAt (slice m (64 + 60 * i) 60)) }

/-- CAL_INSTALL (R374 to R376): the inactive slot is written, then its digest is logged, which activates it. -/
def execCalInstall (s : State) : Out :=
  onMessage s 0x20 (fun s bs => checkedMessage s bs 128 (fun m =>
    let c := calSlotOf m
    let n := leAt m 36 1
    if n = 0 ∨ 16 < n ∨ m.length ≠ 64 + 60 * n + 128 ∨ c.cameras.any (fun x => decide (15 < x.index)) ∨
        (c.cameras.map (fun x => x.index)).eraseDups.length < n then smiResult s m stCOUNT
    else if !msgSigned m s.smi.keyHash then smiResult s m stSIGN
    else smiChange s m 3 c.digest 0 (fun s =>
      if s.smi.active then { s with smi := { s.smi with slotA := some c, active := false } }
      else { s with smi := { s.smi with slotB := some c, active := true } })))

/-- A parameter set (R366): 1 the volume's corners, 2 e, 3 q_max, 4 the minimum dimension, 5 d; none where it is out of range. -/
def setParam (p : SmiParams) (k : Nat) (v : List Byte) : Option SmiParams :=
  match k with
  | 1 => if v.length = 24 then some { p with lo := (List.range 3).map (fun i => sext 32 (leAt v (4 * i) 4)),
                                             hi := (List.range 3).map (fun i => sext 32 (leAt v (12 + 4 * i) 4)) } else none
  | 2 => if v.length = 4 ∧ 1000 ≤ leAt v 0 4 ∧ leAt v 0 4 ≤ 20000 then some { p with e := leAt v 0 4 } else none
  | 3 => if v.length = 4 ∧ leAt v 0 4 ≤ 1000 then some { p with qmax := leAt v 0 4 } else none
  | 4 => if v.length = 4 then some { p with minDim := leAt v 0 4 } else none
  | 5 => if v.length = 4 ∧ leAt v 0 4 ≠ 0 then some { p with d := leAt v 0 4 } else none
  | _ => none

/-- PARAM_SET (R374, R375): the parameter identifier in bytes 32 to 35, its value after the header. -/
def execParamSet (s : State) : Out :=
  onMessage s 0x21 (fun s bs => checkedMessage s bs 128 (fun m =>
    let v := slice m 64 (m.length - 192)
    match setParam s.smi.params (leAt m 32 4) v with
    | none => smiResult s m stCOUNT
    | some p =>
      if !msgSigned m s.smi.keyHash then smiResult s m stSIGN
      else smiChange s m 4 (beNat (sha256 v)) (leAt m 32 4) (fun s => { s with smi := { s.smi with params := p } })))

/-- Whether the bytes a licence record reserves are 0 (R409). -/
def licReserved (v : List Byte) : Bool := (slice v 2 2 ++ slice v 28 36).all (fun b => decide (b = 0))

/-- The status with which a licence value fails before it is counted (R409): length, format, reserved; then key, signature, serial. -/
def licenceStatus (v : List Byte) (hash serial : Nat) : Option Nat :=
  if v.length ≠ 192 ∨ leAt v 0 2 ≠ 1 ∨ !licReserved v ∨ 32 ≤ leAt v 24 4 then some stCOUNT
  else if beNat (sha256 (v.drop 128)) ≠ hash ∨ !ecdsaVerify (v.drop 128) (slice v 64 64) (sha256 (v.take 64)) ∨ leAt v 8 16 ≠ serial then some stSIGN
  else none

/-- The object identifier of the LICENCE message Apgil writes itself (R410). -/
def licMark : Nat := 2 ^ 64 - 1

/-- The status of a LICENCE message's record, with the state after it. -/
def licenceDone (s : State) (bs : List Byte) : State × Nat :=
  let m := msgBody bs
  let fail (st : Nat) : State × Nat := (smiResult s m st, st)
  if !msgCheckOk bs then fail stCHECK
  else if !msgLengthOk bs ∨ leAt bs 0 2 ≠ 1 then fail stCOUNT
  else match licenceStatus (m.drop 64) s.smi.licKeyHash s.smi.serial with
    | some st => fail st
    | none =>
      if leAt m 88 4 % 2 = 0 then fail stCOUNT
      else if logRoom s = 0 then fail stCOUNT
      else
        let st := if s.smi.sealed then stSEALED else stOK
        (smiChange s m 5 (beNat (sha256 (m.drop 64))) 0 (fun s => { s with smi := { s.smi with legal := true } }), st)

/-- LICENCE (R373 to R375, R410): the SMI verifies it against its own OTP; Apgil's own message brings the reply to INSTALL_LICENCE. -/
def execLicence (s : State) : Out :=
  onMessage s 0x30 (fun s bs =>
    let r := licenceDone s bs
    match s.host.licReply with
    | some (_, seq, _, _) => if leAt bs 4 4 = seq ∧ leAt bs 8 8 = licMark then answerLicence r.1 r.2 else r.1
    | none => r.1)

/-! ### Reading the log, statements (R371, R377) -/

/-- LOG_READ (R377): entries a (bytes 32 to 35) to b (bytes 36 to 39) replayed as type 0x04 records. -/
def execLogRead (s : State) : Out :=
  onMessage s 0x40 (fun s bs => checkedMessage s bs 0 (fun m =>
    let a := leAt m 32 4
    let b := leAt m 36 4
    match (logValid s).filter (fun e => decide (a ≤ e.seq) && decide (e.seq ≤ b)) with
    | [] => smiResult s m stCOUNT
    | l => forAll l (fun s e => smiRecord s (recordRole s) 4 stOK 0 m (List.replicate 16 0 ++ entryBytes e ++ e.sig)) s))

/-- KEY_STATEMENT (R371). -/
def execKeyStatement (s : State) : Out :=
  onMessage s 0x41 (fun s bs => checkedMessage s bs 0 (fun m => smiStatement s m))

/-! ### Boot, seal, supply (R31, R360, R371, R374, R376, R433, R457) -/

/-- A change of the seal that the SMI has seen (R374): logged, then in effect. -/
def sealLogged (s : State) : State :=
  if s.pins.sealIn = s.smi.sealed ∨ logRoom s = 0 then s
  else
    let s1 := logAppend s (if s.pins.sealIn then 6 else 7) true 0 0
    { s1 with smi := { s1.smi with sealed := s.pins.sealIn } }

/-- The most boots the counter block counts (R433). -/
def bootLimit : Nat := 523776

/-- Whether the log holds what the counters demand (R433): no gap in the sequence, no counter below the OTP floor. -/
def logSound (s : State) : Bool :=
  let l := logValid s
  decide (l.map (fun e => e.seq) = (List.range l.length)) && decide (s.smi.otpEvents * 128 ≤ (match l.getLast? with | some e => e.event | none => 0))

/-- SMI_BOOT (R371, R373, R374, R376, R433, R457): boots are counted; the log and the image decide between HALTED, RECOVERY and RUNNING;
a RUNNING SMI states its keys. -/
def execSmiBoot (s : State) : Out :=
  if heldInReset s .smi || decide (s.smi.st ≠ .boot) || !s.pins.pwrGood then .next s
  else
    let ev := match (logValid s).getLast? with | some e => e.event | none => 0
    let s1 := { s with smi := { s.smi with boots := min bootLimit (s.smi.boots + 1), event := ev } }
    if !logSound s1 then .next { s1 with smi := { s1.smi with st := .halted } }
    else
      let s2 := { s1 with smi := { s1.smi with otpEvents := max s1.smi.otpEvents (min 512 (ev / 128)) } }
      let good := match newestEntry s2 [1] with | some e => decide (e.digest = s2.smi.imageDigest) | none => false
      if s2.smi.keyHash = none ∨ good = false then
        .next (sealLogged { s2 with smi := { s2.smi with st := .recovery, fwDigest := 0 } })
      else
        let cal := match newestEntry s2 [3] with | some e => decide (s2.smi.slotB.map (fun c => c.digest) = some e.digest) | none => s2.smi.active
        let s3 := { s2 with smi := { s2.smi with st := .running, fwDigest := s2.smi.imageDigest, active := cal,
                                                 legal := (newestEntry s2 [5]).isSome } }
        .next (sealLogged (smiStatement s3 []))

/-- SEAL_CHANGE (R374, R459): the debounced pin; an SMI that works logs the change. -/
def execSealChange (asserted : Bool) (s : State) : Out :=
  let s1 := { s with pins := { s.pins with sealIn := asserted } }
  .next (if smiAwake s1 then sealLogged s1 else s1)

/-- A cut while the SMI has a change in hand may tear the entry it is programming: whether it does is open (R434). -/
def tearEntry (s : State) : State :=
  match s.smi.work with
  | some bs =>
    if leAt bs 2 1 ∈ [0x11, 0x20, 0x21, 0x30] then
      let r := freshNat 64 s
      { r.2 with smi := { r.2.smi with torn := r.2.smi.torn || decide (r.1 % 2 = 1) } }
    else s
  | none => s

/-- VDD_SMI_CHANGE (R26, R31, R364, R457): out of range, the SMI is OFF and held in reset; back in range, it boots. -/
def execVddSmiChange (inRange : Bool) (s : State) : Out :=
  if inRange = s.smi.vdd then .next s
  else if inRange then
    let x := partOf s 46
    .next { setPart s 46 { x with st := .on, cycles := min 0xFFFF (x.cycles + 1) } with smi := { s.smi with vdd := true, st := .boot, clock := 0 } }
  else
    let s1 := smiResetOp (tearEntry s)
    .next { setPart s1 46 { partOf s1 46 with st := .off } with smi := { s1.smi with vdd := false, st := .off } }

end Sys2Proof.Machine
end

