-- ==== Sys2Proof/Machine/FlashStore.lean ====
section
/-!
DEFINITION. Sys2Proof/Machine/FlashStore.lean: INSTALL_LICENCE, transactions of the Archive flash and what a committed record does, the
controller's operations, rings and wear (R361, R409, R410, R417 to R432).
-/
namespace Sys2Proof.Machine

/-! ### What a committed record does (R335, R345, R409, R410, R417, R424, R432) -/

/-- A configuration key in force (R318 to R320, R335, R383); the byte layouts of keys 1 to 4 are log 24. -/
def applyKey (s : State) (k : Nat) (v : List Byte) : State :=
  match k with
  | 0x0001 => { s with host := { s.host with ipv4 := beNat (v.take 4), ipv6 := beNat (v.drop 4) } }
  | 0x0002 => { s with host := { s.host with acpSecure := decide (leAt v 0 1 % 2 = 1) } }
  | 0x0003 => setPort s (leAt v 0 1) { portOf s (leAt v 0 1) with macsec := decide (leAt v 1 1 = 1), cipher := leAt v 2 1, cak := v.drop 4 }
  | 0x0004 =>
    { s with host := { s.host with
        gptpDomain := leAt v 1 1, gptpPriority := leAt v 2 1
        ports := (List.range 4).foldl (fun t p => tset {} t p { tget {} t p with gptp := (leAt v 0 1).testBit p }) s.host.ports } }
  | 0x0007 => { s with host := { s.host with defBudget := leAt v 0 4, defCap := leAt v 4 1, defVariants := decide (leAt v 5 1 = 1) } }
  | _ => s

/-- A topology record written (R345): during bring-up the links it names retrain (R417). -/
def applyTopology (s : State) (v : List Byte) : State :=
  let t := topoOf v
  let s1 := { s with bridge := { s.bridge with written := some t } }
  if s.boot.st = .bringup then
    forAll (List.range 4) (fun s k => if (t.links.getD k (0, false, 0, 0)).1 = 0 then s else beginTraining s k) s1
  else s1

/-- A licence's features in effect (R410): L-BRG powers the Bridge and trains its links, L-DBG unlocks the debug ports. -/
def applyLicence (s : State) (v : List Byte) : State :=
  let f := leAt v 24 4
  let s1 := { s with licences := s.licences ++ [f], dbgOpen := s.dbgOpen || f.testBit 4 }
  if f.testBit 1 then forAll (List.range 4) beginTraining (if partOn s1 42 then s1 else enablePart s1 42) else s1

/-- The erase counts and remaps of a group of 64 blocks as its record holds them (R429). -/
def applyWear (s : State) (g : Nat) (v : List Byte) : State :=
  let at' (i : Nat) : Nat × Nat := (leAt v (6 * i) 4, leAt v (6 * i + 4) 2)
  { s with flash := { s.flash with
      erases := (List.range 64).foldl (fun t i => tset 0 t (64 * g + i) (at' i).1) s.flash.erases
      remap := (List.range 64).foldl (fun t i => tset 0 t (64 * g + i) (if (at' i).2 = 0xFFFF then 0 else (at' i).2)) s.flash.remap } }

/-- A record put in force at its commit. -/
def applyRec (s : State) (r : FlashRec) : State :=
  match r.typ with
  | 0x0003 => applyTopology s r.payload
  | 0x0004 => applyKey s (r.inst % 256) r.payload
  | 0x0005 =>
    let k := leAt r.payload 0 4
    let l := s.host.planKeys
    let keys := if l.any (fun e => decide (e.1 = k)) then l.map (fun e => if e.1 = k then (k, r.payload.drop 4) else e)
      else l ++ [(k, r.payload.drop 4)]
    { s with host := { s.host with planKeys := keys } }
  | 0x0006 => { s with fuses := { s.fuses with otpRollback := max s.fuses.otpRollback (min 128 (leAt r.payload 0 4)) } }
  | 0x0008 => applyWear s r.inst r.payload
  | 0x0020 => applyLicence s r.payload
  | _ => s

/-! ### INSTALL_LICENCE (R409, R410, R417) -/

/-- INSTALL_LICENCE. -/
def execInstallLicence (r : AcpReq) (s : State) : Out :=
  deviceWide s r (fun s =>
    let v := (tlv r 0x8044).getD []
    match licenceStatus v s.fuses.licKeyHash s.fuses.serial with
    | some st => failReply s r st 8 0x8044
    | none =>
      let f := leAt v 24 4
      if features s ||| f = features s then okReply s r []
      else if 64 ≤ s.licences.length then failReply s r stCOUNT 8 64
      else flashQueue s [flashRec 0x0020 s.licences.length v] (some (r.sess, r.seq, r.typ, r.ctx)))

/-- The LICENCE message that Apgil writes into the inlet (R373, R410). -/
def licenceMessage (s : State) (seq : Nat) (v : List Byte) : List Byte :=
  let hdr (crc : Nat) : List Byte := leBytes 2 1 ++ leBytes 1 0x30 ++ leBytes 1 0 ++ leBytes 4 seq ++ leBytes 8 licMark ++ leBytes 8 s.clk.now ++
    leBytes 4 (64 + v.length) ++ leBytes 4 crc ++ List.replicate 32 0
  hdr (crc32c (hdr 0 ++ v)).toNat ++ v

/-- The licence handed to the SMI once: the reply waits for its record. An SMI that is not RUNNING, or has no FREE slot, answers none: the
reply says so at once. -/
def licenceToSmi (s : State) (reply : Nat × Nat × Nat × Nat) (v : List Byte) : State :=
  let s1 := { s with host := { s.host with licReply := some reply } }
  if heldInReset s .smi || decide (s.smi.st ≠ .running) then answerLicence s1 stRESET
  else match findBelow (fun k => !s.smi.committed.testBit k) 16 with
    | none => answerLicence s1 stBUSY
    | some k => inletHand (store s1 (smiBase + k * 0x4000) (licenceMessage s reply.2.1 v)) k 1

/-- The reply of a request whose records are committed (R421). -/
def commitReply (s : State) (t : FlashTx) : State :=
  match t.reply with
  | none => s
  | some q =>
    match t.recs.find? (fun r => r.typ = 0x0020) with
    | some r =>
      if leAt r.payload 24 4 % 2 = 1 then licenceToSmi s q r.payload else answer s q.1 q.2.1 q.2.2.1 q.2.2.2 stOK []
    | none => answer s q.1 q.2.1 q.2.2.1 q.2.2.2 stOK []

/-! ### Transactions (R419 to R421, R425, R428, R430) -/

/-- Whether a record may wait (R424). -/
def deferrable (r : FlashRec) : Bool := decide (r.typ = 0x0007) || decide (r.typ = 0x0010) || decide (r.typ = 0x0011)

/-- Record bytes written in the last 24 h (R430). -/
def writtenToday (s : State) : Nat :=
  ((s.flash.written.filter (fun w => decide (s.clk.up < w.1 + 86400000000000))).map (fun w => w.2)).sum

/-- Whether a transaction waits for the daily limit: only deferrable records that would exceed 8 MiB. -/
def txWaits (s : State) (t : FlashTx) : Bool :=
  t.recs.all deferrable && decide (8388608 < writtenToday s + (t.recs.map recBytes).sum)

/-- Waiting transactions with the first that may run put in front; none when all must wait. -/
def nextTx (s : State) : Option (FlashTx × List FlashTx) :=
  match s.flash.waiting.find? (fun t => !txWaits s t) with
  | some t => some (t, s.flash.waiting.erase t)
  | none => none

/-- Whether an operation belongs to a transaction or a ring: the firmware region's blocks lie below 256. -/
def ringOp (o : FlashOp) : Bool := !o.smi && decide (416 ≤ o.block)

/-- Whether an operation of a transaction is not done. -/
def txBusy (f : Flash) : Bool :=
  (match f.running with | some o => ringOp o | none => false) || (match f.suspended with | some o => ringOp o | none => false) || f.opsMain.any ringOp

/-- Page programs of a transaction: they go before the block rewrites of a firmware image, after the one in work (R428). -/
def pageOps (f : Flash) (pages block : Nat) : Flash :=
  let l : List FlashOp := List.replicate pages { smi := false, erase := false, block := block }
  let q := match f.opsMain with
    | o :: t => if !o.erase && decide (o.block < 256) then o :: (l ++ t) else l ++ o :: t
    | [] => l
  flashNext { f with opsMain := q }

/-- Records given their sequence numbers and time. -/
def numbered (n now : Nat) (l : List FlashRec) : List FlashRec := l.mapIdx (fun i r => { r with seq := n + i, time := now })

/-- The bytes of a record (R419). -/
def recHead (r : FlashRec) : List Byte :=
  leBytes 2 1 ++ leBytes 2 r.typ ++ leBytes 4 r.seq ++ leBytes 2 r.inst ++ leBytes 2 0 ++ leBytes 4 r.payload.length
def recImage (r : FlashRec) : List Byte :=
  recHead r ++ leBytes 4 (if r.done then 0 else 0xFFFFFFFF) ++ leBytes 8 r.time ++
    leBytes 4 (crc32c (recHead r ++ leBytes 8 r.time ++ r.payload)).toNat ++ r.payload ++
    List.replicate (roundUp r.payload.length 32 - r.payload.length) 0xFF

/-- The commit record of a transaction. -/
def commitRec (l : List FlashRec) (now : Nat) : FlashRec :=
  let n := match l with | r :: _ => r.seq | [] => 0
  { typ := 0x00F0, inst := 0, seq := n + l.length, time := now,
    payload := leBytes 4 n ++ leBytes 4 l.length ++ leBytes 4 (crc32c (l.flatMap recImage)).toNat, done := false }

/-- FLASH_TRANSACTION (R421, R425, R428, R430): the first waiting transaction goes one phase on: its journal copies are programmed; they
and the commit record stand and what they say takes effect; the home copies; the done word. -/
def execFlashTransaction (s : State) : Out :=
  if heldInReset s .mgmt || apgilPaused s || txBusy s.flash then .next s
  else
    let f := s.flash
    match f.step, f.waiting with
    | 0, _ =>
      match nextTx s with
      | none => .next s
      | some (t, rest) =>
        let l := numbered f.nextSeq s.clk.now t.recs
        let f1 : Flash :=
          { f with
            waiting := { t with recs := l } :: rest
            nextSeq := f.nextSeq + l.length + 1
            written := f.written.filter (fun w => decide (s.clk.up < w.1 + 86400000000000)) ++ [(s.clk.up, (l.map recBytes).sum)]
            step := 1 }
        .next { s with flash := pageOps f1 (recPages l + 1) 516 }
    | 1, t :: _ =>
      let c := commitRec t.recs s.clk.now
      let s1 := { s with flash := pageOps { f with journal := f.journal ++ t.recs ++ [c], step := 2 } (recPages t.recs) 452 }
      .next (commitReply (t.recs.foldl applyRec s1) t)
    | 2, t :: _ => .next { s with flash := pageOps { f with home := f.home ++ t.recs, step := 3 } 1 516 }
    | _, t :: rest =>
      let n := match t.recs with | r :: _ => r.seq + t.recs.length | [] => 0
      let j := f.journal.map (fun r => if r.typ = 0x00F0 ∧ r.seq = n then { r with done := true } else r)
      .next { s with flash := { f with journal := j, waiting := rest, step := 0 } }
    | _, [] => .next { s with flash := { f with step := 0 } }

/-- FLASH_PROGRAM_DONE (R426, R427): the running operation ends and the next starts, the SMI's first; a suspended erase resumes. -/
def execFlashProgramDone (s : State) : Out :=
  .next { s with flash := flashNext { s.flash with running := none } }

/-! ### Rings and wear (R423, R429) -/

/-- First block and blocks of a ring: 0 calibration, 1 licences, 2 system, 3 journal (R418). -/
def ringBlocks (ring : Nat) : Nat × Nat :=
  if ring = 0 then (416, 32) else if ring = 1 then (448, 4) else if ring = 2 then (452, 64) else (516, 64)

/-- The home ring of a record type (R424). -/
def ringOf (typ : Nat) : Nat := if typ ∈ [0x0010, 0x0011, 0x0012] then 0 else if typ = 0x0020 then 1 else 2

/-- The records of a ring, oldest first. -/
def ringRecs (f : Flash) (ring : Nat) : List FlashRec := if ring = 3 then f.journal else f.home.filter (fun r => ringOf r.typ = ring)

/-- The records of a ring's oldest block: as many as 64 KiB hold. -/
def oldestBlock : Nat → List FlashRec → List FlashRec
  | _, [] => []
  | room, r :: t => if room < recBytes r then [] else r :: oldestBlock (room - recBytes r) t

/-- Erase count of a block (R424, R429): 90,000 while its group has no record. -/
def eraseCount (s : State) (b : Nat) : Nat := if (recInForce s.flash 0x0008 (b / 64)).isSome then tget 0 s.flash.erases b else 90000

/-- The block that stands for a block. -/
def physBlock (s : State) (b : Nat) : Nat := if tget 0 s.flash.remap b = 0 then b else tget 0 s.flash.remap b

/-- Reserve blocks not yet used (R418, R429). -/
def reserveLeft (s : State) : Nat := 444 - s.flash.reserveUsed

/-- The record of a group of blocks with one block's count and one block's remap changed. -/
def wearRec (s : State) (g phys count block target : Nat) : FlashRec :=
  flashRec 0x0008 g ((List.range 64).flatMap (fun i =>
    let b := 64 * g + i
    let t := if b = block ∧ target ≠ 0 then target else tget 0 s.flash.remap b
    leBytes 4 (if b = phys then count else eraseCount s b) ++ leBytes 2 (if t = 0 then 0xFFFF else t)))

/-- The block of a ring that is erased next: rings run through their blocks in turn, one erase each. -/
def ringBlock (s : State) (ring : Nat) : Nat :=
  let r := ringBlocks ring
  (minBy (fun b => eraseCount s (physBlock s b)) ((List.range r.2).map (fun i => r.1 + i))).getD r.1

/-- RING_BLOCK_RECLAIM (R423, R429): first the transaction that rewrites the oldest block's records in force and raises the erase count (a
block at 90,000 erases is remapped in it); when it is done, the erase. A journal block goes only when its commit records are done. -/
def execRingBlockReclaim (ring : Nat) (s : State) : Out :=
  if decide (4 ≤ ring) || heldInReset s .mgmt || apgilPaused s then .next s
  else
    let l := oldestBlock 65536 (ringRecs s.flash ring)
    if l = [] then .next s
    else if ring ∈ s.flash.freeing then
      if s.flash.waiting = [] ∧ !txBusy s.flash ∧ l.all (fun r => decide (r.typ ≠ 0x00F0) || r.done) then
        let b := physBlock s (ringBlock s ring)
        let f := s.flash
        let f1 : Flash :=
          { f with
            journal := if ring = 3 then f.journal.drop l.length else f.journal
            home := if ring = 3 then f.home else f.home.filter (fun r => r ∉ l)
            freeing := f.freeing.filter (fun r => r ≠ ring)
            opsMain := f.opsMain ++ [{ smi := false, erase := true, block := b }] }
        .next { s with flash := flashNext f1 }
      else .next s
    else
      let b := ringBlock s ring
      let p := physBlock s b
      let n := eraseCount s p + 1
      let remap := decide (90000 ≤ n) && decide (0 < reserveLeft s)
      let target := if remap then 580 + s.flash.reserveUsed else 0
      let wear := wearRec s (p / 64) p n b target :: (if remap ∧ b / 64 ≠ p / 64 then [wearRec s (b / 64) p n b target] else [])
      let keep := if ring = 3 then [] else l.filter (fun r => decide (recInForce s.flash r.typ r.inst = some r) && decide (r.payload ≠ []))
      let recs := keep.map (fun r => flashRec r.typ r.inst r.payload) ++ wear
      let s1 := { s with flash := { s.flash with freeing := ring :: s.flash.freeing, reserveUsed := s.flash.reserveUsed + b2n remap } }
      .next (queueRecs recs.length s1 recs none)

end Sys2Proof.Machine
end

