-- ==== Sys2Proof/Machine/Boot.lean ====
section
/-!
DEFINITION. Sys2Proof/Machine/Boot.lean: RESET_N's release, the boot ROM, recovery, bring-up, the readiness check, the boot watchdog
(R306, R346, R394 to R407, R422, R424, R429, R432, R461).
-/
namespace Sys2Proof.Machine

/-! ### Boot ROM (R395 to R399) -/

/-- The boot-attempt count (R399). -/
def bootCount (s : State) : Nat := match recInForce s.flash 0x0001 0 with | some r => leAt r.payload 0 4 | none => 0

/-- A record that the boot ROM writes at once, as a transaction of its own. -/
def romRecord (s : State) (r : FlashRec) : State :=
  let l := numbered s.flash.nextSeq s.clk.now [r]
  let f := s.flash
  { s with flash := { f with
      journal := f.journal ++ l ++ [{ commitRec l s.clk.now with done := true }]
      home := f.home ++ l
      nextSeq := f.nextSeq + 2
      written := f.written ++ [(s.clk.up, (l.map recBytes).sum)] } }

/-- The attempt counted; the image in flash checked; the state that follows (R395, R398, R399). -/
def checkBoot (s : State) : State :=
  if 3 ≤ bootCount s then { s with boot := { s.boot with st := .recovery, recovery := 5 } }
  else
    let s1 := romRecord s (flashRec 0x0001 0 (leBytes 4 (bootCount s + 1)))
    match flashReason s1 with
    | some r => { s1 with boot := { s1.boot with st := .recovery, recovery := r } }
    | none => { s1 with boot := { s1.boot with st := .bringup, image := s1.boot.flashImage } }

/-- A boot (R394 to R399): fuses sensed, the partitions of reset and DDR5 controller 0 on, management core 0 in the boot ROM. A device that
has tripped stays off (R393). -/
def bootRom (s : State) : State :=
  if s.power.tripped then s
  else
    let s1 := raisePart (bootPartitions s) 36
    checkBoot { s1 with boot := { s1.boot with st := .bootRom, releasedAt := s1.clk.up, mgmt := tset {} s1.boot.mgmt 0 { running := true } } }

/-- RESET_N_RELEASE (R25, R306, R395, R396, R398, R399, R408, R456, R461, R463): PWR_GOOD is high by then; device time counts from here;
boundary scan ends; the main side boots once it has its reference. -/
def execResetNRelease (s : State) : Out :=
  if s.pins.resetN then .next s
  else
    let scan := decide (s.pins.jtag = .extest) || decide (s.pins.jtag = .samplePreload) || decide (s.pins.jtag = .otherScan)
    let s1 := { s with pins := { s.pins with resetN := true, pwrGood := true, jtag := if scan then .bypass else s.pins.jtag }, clk := { s.clk with now := 0, frac := 0 } }
    .next (if s1.pins.refClock then bootRom s1 else s1)

/-! ### Recovery (R400, R401) -/

/-- The status of a recovery reason. -/
def recoveryStatus (r : Nat) : Nat := if r = 2 then stSIGN else if r = 3 then stCHECK else if r = 5 then stTIMEOUT else stVERSION

/-- RECOVERY_BROADCAST (R327, R400): the notice to every host, of no session. -/
def execRecoveryBroadcast (s : State) : Out :=
  if decide (s.boot.st = .recovery) && !heldInReset s .network && !heldInReset s .mgmt then
    let m := mkNotice s 0x0041 (recoveryStatus s.boot.recovery) 3 okDEVICE s.boot.recovery 0xFFFF (leBytes 16 s.fuses.serial) []
    .next { s with sent := s.sent ++ [{ m with sess := 0xFFFF }] }
  else .next s

/-- RECOVERY_IMAGE_START (R398, R400, R401): the staged image is started. Until it is written, the flash holds none. -/
def execRecoveryImageStart (image : FwImage) (s : State) : Out :=
  if decide (s.boot.st = .recovery) && decide (s.boot.staged = some image) && decide (imageReason s image = none) && !heldInReset s .mgmt then
    .next { s with
      boot := { s.boot with st := .bringup, image := some image, staged := none, fromRecovery := true, flashImage := none }
      host := { s.host with sessions := [], hellos := [] } }
  else .next s

/-! ### Bring-up (R402 to R407) -/

/-- The transaction whose commit record stands, finished (R422): what it says takes effect, its home copies and done word are written. -/
def replayJournal (s : State) : State :=
  match s.flash.waiting with
  | t :: rest =>
    if txCommitted s.flash then
      let n := match t.recs with | r :: _ => r.seq + t.recs.length | [] => 0
      let s1 := if s.flash.step = 1 then
          t.recs.foldl applyRec { s with flash := { s.flash with journal := s.flash.journal ++ t.recs ++ [commitRec t.recs s.clk.now] } }
        else s
      let f := s1.flash
      { s1 with flash := { f with
          journal := f.journal.map (fun r => if r.typ = 0x00F0 ∧ r.seq = n then { r with done := true } else r)
          home := if f.step = 3 then f.home else f.home ++ t.recs
          waiting := rest
          step := 0 } }
    else s
  | [] => s

/-- The retirement map as its record holds it (R405, R424; log 14). -/
def readRetireMap (s : State) : State :=
  let at' (b : List Byte) (i : Nat) : Bool × Nat := (decide (leAt b i 1 % 2 = 1), leAt b i 1 / 2)
  let put (b : List Byte) (o n : Nat) : Tbl (Bool × Nat) := (List.range n).foldl (fun t i => tset (false, 0) t i (at' b (o + i))) []
  match recInForce s.flash 0x0002 0 with
  | some r => { s with retire := { s.retire with
      tiles := put r.payload 0 72, cores := put r.payload 72 8
      cause := (List.range 80).foldl (fun t i => tset 0 t i (leAt r.payload (80 + i) 1)) [] } }
  | none => { s with retire := { s.retire with tiles := [], cores := [], cause := [] } }

/-- The items for which a boot expects a record (log 37). -/
def expectedRecs : List (Nat × Nat) := [(0x0001, 0), (0x0002, 0), (0x0003, 0), (0x0006, 0), (0x0010, 0), (0x0010, 1), (0x0010, 2), (0x0010, 3)]

/-- The notices that a boot queues (R327, R402, R424, R429, R436); `out` numbers the sensors set aside (log 72). -/
def bootNotices (s : State) (out : List Nat) : List Sent :=
  ((expectedRecs.filter (fun e => !recThere s e.1 e.2)).map (fun e =>
    mkNotice s 0 stCHECK 12 okDEVICE e.1 0xFFFF (leBytes 2 e.2) [])) ++
  ((out.map (fun k => mkNotice s 0 stCHECK 12 okDEVICE 0x0012 0xFFFF (leBytes 2 k) []))) ++
  (if reserveLeft s = 0 then [mkNotice s 0 stOK 13 okDEVICE 0 0xFFFF (leBytes 4 0) []] else [])

/-- A tile tested (R404, R405): from its third retirement on, or failed at manufacture, it is not. -/
def testTile (t : SelfTest) (s : State) (n : Nat) : State :=
  let r := tget (false, 0) s.retire.tiles n
  if !tilePresent s n || decide (n ∈ s.fuses.failedTiles) || decide (3 ≤ r.2) then s
  else if n ∈ t.tiles then
    raiseOpen (markTile s n 1) 0x308 stRETIRED n none
  else { s with retire := { s.retire with tiles := tset (false, 0) s.retire.tiles n (false, r.2) } }

/-- A core tested. -/
def testCore (t : SelfTest) (s : State) (n : Nat) : State :=
  let r := tget (false, 0) s.retire.cores n
  if gradeCores s ≤ n ∨ 3 ≤ r.2 then s
  else if n ∈ t.cores then
    raiseOpen (markCore s n 1) 0x308 stRETIRED (72 + n) none
  else { s with retire := { s.retire with cores := tset (false, 0) s.retire.cores n (false, r.2) } }

/-- The other islands that fail and are retired (R404). -/
def failedIslands (s : State) (t : SelfTest) : List Domain :=
  ((t.ports.filter (fun p => decide (p < gradePorts s))).map Domain.port) ++ ((t.plates.filter (fun p => decide (p < 4))).map Domain.plate) ++
  ((t.colours.filter (fun p => decide (p < 2))).map Domain.colour) ++ (if t.bru then [Domain.bru] else []) ++
  ((t.stipples.filter (fun p => decide (p < 2))).map Domain.stipple)

/-- Self-test and retirement (R404 to R406). -/
def selfTest (s : State) (t : SelfTest) : State :=
  let s1 := forAll (List.range 8) (testCore t) (forAll (List.range 72) (testTile t) s)
  let gone := failedIslands s1 t
  let nets := t.netPorts.filter (fun p => decide (p < gradeNets s1))
  let s2 := forAll gone (fun s d => raiseOpen s 0x308 stRETIRED (domainIndex d) none) s1
  let s3 := forAll nets (fun s _ => raiseOpen s 0x308 stRETIRED 1126 none) s2
  let s4 := forAll ((List.range 2).filter (fun n => decide (n ∈ t.mgmt))) (fun s n => raiseOpen s 0x308 stRETIRED (1104 + n) none) s3
  let cores := (List.range 2).foldl (fun c n => tset {} c n { running := decide (n ∉ t.mgmt), retired := decide (n ∈ t.mgmt) }) []
  { s4 with
    retire := { s4.retire with
      others := gone
      netPorts := nets
      untested := []
      inService := ((List.range 72).filter (fun n => tilePresent s4 n && !tileRetired s4 n)).take (gradeTiles s4) }
    boot := { s4.boot with appOffline := t.appCores.filter (fun n => decide (n < 8)), mgmt := cores, serviceFailed := t.service } }

/-- DDR5 trained (R402, R403, R435): its controllers on; the channels whose stored trims do not hold train fully, and their new trims are
written in one transaction. -/
def trainDdr (s : State) : State :=
  let s1 := forAll [36, 37, 38, 39] (fun s p => if partOn s p then s else raisePart s p) s
  let v := (List.range 4).foldl (fun (a : List FlashRec × State) k =>
    let h := trimsHold a.2 0x0010 k
    if h.1 then (a.1, h.2)
    else
      let r := freshNat 65 h.2
      (a.1 ++ [flashRec 0x0010 k (leBytes 2048 r.1)], r.2)) ([], s1)
  if v.1.isEmpty then v.2 else flashQueue v.2 v.1 none

/-- The Bridge powered and its links training, with L-BRG (R342, R402). -/
def trainBridge (s : State) : State :=
  if licensed s 1 && decide (gradeLinks s ≠ 0) then (if partOn s 42 then forAll (List.range 4) beginTraining s else raisePart s 42) else s

/-- BRINGUP_START (R208, R274, R284, R402 to R406, R410, R422, R424, R429, R432, R435, R436): the journal replayed, records read, sensors
beyond their limits set aside with a notice each, self-test, memories and links trained, failing engines retired and the map written. -/
def execBringupStart (test : SelfTest) (s : State) : Out :=
  if decide (s.boot.st = .bringup) && !s.boot.testsDone && !heldInReset s .mgmt then
    let s1 := readRetireMap (replayJournal (iommuSetup s))
    let s2 := { s1 with
      boot := { s1.boot with queuedNotices := s1.boot.queuedNotices ++ bootNotices s1 (test.sensorsOut ++ test.railsOut.map (fun k => 24 + k)) }
      fuses := { s1.fuses with otpRollback := max s1.fuses.otpRollback (min 128 (antiRollback s1)) }
      dbgOpen := s1.dbgOpen || licensed s1 4
      power := { s1.power with tempOut := test.sensorsOut, railOut := test.railsOut } }
    let s3 := writeRetireMap (selfTest (trainBridge (trainDdr s2)) test)
    .next { s3 with boot := { s3.boot with testsDone := true } }
  else .next s

/-! ### Readiness (R346, R395, R399, R401, R402) -/

/-- The operations that rewrite the firmware region with an image (R416): 64 KiB blocks, erased and programmed in turn. -/
def imageOps (i : FwImage) : List FlashOp :=
  (List.range (ceilDiv i.length 65536)).flatMap (fun b =>
    [{ smi := false, erase := true, block := b }, { smi := false, erase := false, block := b }])

/-- The rewrite of the firmware region with the running image begins. -/
def beginRewrite (s : State) : State :=
  match s.boot.image with
  | some i => { s with boot := { s.boot with phase := .rewrite, handOver := none }, flash := flashSubmit s.flash (imageOps i) }
  | none => s

/-- READINESS_CHECK (R346, R395, R399, R401, R404, R417). The failing check's number is 1 to 4 for a link, 5 for a block without which
there is no service (log 38). -/
def execReadinessCheck (s : State) : Out :=
  if decide (s.boot.st = .bringup) && s.boot.testsDone && !heldInReset s .mgmt && !(List.range 4).any (fun k => decide ((linkOf s k).st = .training)) then
    let s1 := if bootCount s = 0 then s else flashQueue s [flashRec 0x0001 0 (leBytes 4 0)] none
    let s2 := forAll (List.range 4) judgeLink { s1 with boot := { s1.boot with checked := true } }
    let bad := (List.range 4).find? (fun k => decide ((linkEntry s2 k).1 ≠ 0) && !(linkEntry s2 k).2.1 && linkMissing s2 k)
    let stay (chk st : Nat) : State := deviceNotice { s2 with boot := { s2.boot with failedCheck := chk } } st chk
    if s2.boot.serviceFailed then .next (stay 5 stRETIRED)
    else match bad with
      | some k => .next (stay (k + 1) stTOPOLOGY)
      | none =>
        let s3 := deviceNotice { s2 with boot := { s2.boot with st := .ready, failedCheck := 0 } } stOK 0
        .next (if s3.boot.fromRecovery then beginRewrite s3 else s3)
  else .next s

/-- BOOT_WATCHDOG (R399): no readiness check 30 s after the boot began: the device is reset and boots again. -/
def execBootWatchdog (s : State) : Out :=
  if decide (s.boot.st = .bootRom ∨ s.boot.st = .bringup) && !s.boot.checked && decide (s.boot.releasedAt + 30000000000 ≤ s.clk.up) &&
      !heldInReset s .mgmt then
    .next (bootRom (resetMain s true .bootWatchdog))
  else .next s

end Sys2Proof.Machine
end

