-- ==== Sys2Proof/Machine/Balls.lean ====
section
/-!
DEFINITION. Sys2Proof/Machine/Balls.lean: the package's ball map (R450 to R453): place and signal of every ball. The pins that take
commands are fields of State; this file says at which ball each stands.
-/
namespace Sys2Proof.Machine

/-- The 56 row letters, row index 1 first (R450). -/
def ballRows : List String :=
  ["A", "B", "C", "D", "E", "F", "G", "H", "J", "K", "L", "M", "N", "P", "T", "U", "V", "W", "Y"] ++
  ["AA", "AB", "AC", "AD", "AE", "AF", "AG", "AH", "AJ", "AK", "AL", "AM", "AN", "AP", "AT", "AU", "AV", "AW", "AY"] ++
  ["BA", "BB", "BC", "BD", "BE", "BF", "BG", "BH", "BJ", "BK", "BL", "BM", "BN", "BP", "BT", "BU", "BV", "BW"]

/-- The row index of a letter; 0 for a letter that names no row. -/
def ballRow (l : String) : Nat := (ballRows.findIdx? (fun x => x = l)).elim 0 (fun i => i + 1)

/-- The place of a ball from the package centre, in micrometres (R450). -/
def ballPlace (r c : Nat) : Int × Int := (((2 * c : Int) - 57) * 475, (57 - (2 * r : Int)) * 475)

/-- A signal: the name of its group and its indices in it. -/
structure BallSignal where
  name : String
  index : List Nat := []
  deriving DecidableEq, Repr

def ballGnd : BallSignal := { name := "GND" }

/-- North edge: rows A to D (R452). -/
def northBall (r c : Nat) : BallSignal :=
  if r = 1 then
    if c ≤ 16 then { name := "TRIG", index := [c - 1] }
    else if c ≤ 32 then { name := if c % 2 = 1 then "I3C_SCL" else "I3C_SDA", index := [(c - 17) / 2] }
    else ballGnd
  else if r = 2 then
    match c with
    | 1 => { name := "JTAG_TCK" } | 2 => { name := "JTAG_TMS" } | 3 => { name := "JTAG_TDI" } | 4 => { name := "JTAG_TDO" }
    | 5 => { name := "JTAG_TRST_N" } | 8 => { name := "RESET_N" } | 9 => { name := "PWR_GOOD" } | 12 => { name := "AVS_CLK" }
    | 13 => { name := "AVS_MDATA" } | 14 => { name := "AVS_SDATA" } | 20 => { name := "XTAL_IN" } | 22 => { name := "XTAL_OUT" }
    | 26 => { name := "REFCLK_100_P" } | 27 => { name := "REFCLK_100_N" } | 30 => { name := "REFCLK_BRG_P" }
    | 31 => { name := "REFCLK_BRG_N" } | 34 => { name := "SMI_RESET_N" } | 35 => { name := "SEAL_IN_N" } | 38 => { name := "VSENSE_CORE_P" }
    | 39 => { name := "VSENSE_CORE_N" } | _ => ballGnd
  else if r = 3 ∧ 40 ≤ c ∧ c < 56 ∧ (c - 40) % 4 < 2 then
    { name := if (c - 40) % 4 = 0 then "T1_TRX_P" else "T1_TRX_N", index := [(c - 40) / 4] }
  else ballGnd

/-- West edge, columns 1 to 4: the camera ports (R451). -/
def westBall (r c : Nat) : BallSignal :=
  let p := (r - 5) / 3
  if 16 ≤ p then ballGnd
  else
    let pol := if c % 2 = 1 then "P" else "N"
    match (r - 5) % 3 with
    | 0 => { name := "CSI_D_" ++ pol, index := [p, (c - 1) / 2] }
    | 1 => if c ≤ 2 then { name := "CSI_CLK_" ++ pol, index := [p] } else ballGnd
    | _ => { name := "CSI_D_" ++ pol, index := [p, 2 + (c - 1) / 2] }

/-- East edge, columns 53 to 56: the Bridge links (R451). -/
def eastBall (r c : Nat) : BallSignal :=
  let n := (r - 5) / 12
  let i := (r - 5) % 12
  if 4 ≤ n ∨ 8 ≤ i then ballGnd
  else
    let names := ["BRG_TX_P", "BRG_TX_N", "BRG_RX_P", "BRG_RX_N"]
    { name := names.getD (c - 53) "GND", index := [n, i] }

/-- DDR5, rows BG (45) to BW (56): a byte lane's column from row BW upwards, the command and address columns from BG down (R451). -/
def ddrBall (r c : Nat) : BallSignal :=
  let n := (c - 5) / 12
  let k := (c - 5) % 12
  if k < 9 then
    let up := 56 - r
    let bit (b : Nat) : BallSignal := if k = 8 then { name := "DDR_CB", index := [n, b] } else { name := "DDR_DQ", index := [n, 8 * k + b] }
    if up < 4 then bit up
    else if up = 4 then { name := "DDR_DQS_P", index := [n, k] }
    else if up = 5 then { name := "DDR_DQS_N", index := [n, k] }
    else if up < 10 then bit (up - 2)
    else ballGnd
  else if k = 9 then (if r - 45 < 12 then { name := "DDR_CA", index := [n, r - 45] } else ballGnd)
  else if k = 10 then
    match r - 45 with
    | 0 => { name := "DDR_CA", index := [n, 12] } | 1 => { name := "DDR_CA", index := [n, 13] }
    | 2 => { name := "DDR_CS_N", index := [n, 0] } | 3 => { name := "DDR_CS_N", index := [n, 1] }
    | 4 => { name := "DDR_CK_P", index := [n, 0] } | 5 => { name := "DDR_CK_N", index := [n, 0] }
    | 6 => { name := "DDR_CK_P", index := [n, 1] } | 7 => { name := "DDR_CK_N", index := [n, 1] }
    | 8 => { name := "DDR_RESET_N", index := [n] } | 9 => { name := "DDR_ALERT_N", index := [n] } | _ => ballGnd
  else ballGnd

/-- Interior, rows E (5) to BF (44), columns 5 to 52: supplies on odd places (R453). -/
def interiorBall (r c : Nat) : BallSignal :=
  if (r + c) % 2 = 0 then ballGnd
  else if c ≤ 8 ∨ 49 ≤ c then { name := "VDD_PHY" }
  else if r ≤ 8 then
    (if c ≤ 20 then { name := "VDD_18" } else if c ≤ 28 then { name := "VDD_AON" } else if c ≤ 36 then { name := "VDD_SMI" }
     else { name := "VDD_PHY" })
  else if r ≤ 12 then { name := "VDD_FAB" }
  else if r ≤ 38 then { name := "VDD_CORE" }
  else if r ≤ 42 then { name := "VDD_SRAM" }
  else { name := "VDDQ_DDR" }

/-- The signal of the ball at a row index and column, each 1 to 56 (R451). -/
def ballAt (r c : Nat) : BallSignal :=
  if r ≤ 4 then northBall r c
  else if c ≤ 4 then (if r ≤ 52 then westBall r c else ballGnd)
  else if 53 ≤ c then (if r ≤ 52 then eastBall r c else ballGnd)
  else if 45 ≤ r then ddrBall r c
  else interiorBall r c

end Sys2Proof.Machine
end

