-- ==== Sys2Proof/Machine/Electrical.lean ====
section
/-!
DEFINITION. Sys2Proof/Machine/Electrical.lean: supplies, the reference clock, AVSBus, JTAG (R6, R25, R316, R455, R457, R458, R461, R463).
-/
namespace Sys2Proof.Machine

/-- POWER_CUT (R25, R421, R434, R457, R458): acts as RESET_N asserted; the SMI, whose flash port needs VDD_AON and VDD_18, stops. -/
def execPowerCut (s : State) : Out :=
  let s1 := resetMain (smiResetOp (tearEntry s)) false .powerCut
  .next { s1 with pins := { s1.pins with pwrGood := false, resetN := false } }

/-- REFERENCE_CLOCK_LOSS (R31, R316, R461): every partition but always-on and SMI is reset and waits; device time is held over. -/
def execReferenceClockLoss (s : State) : Out :=
  if s.pins.refClock then
    let s1 := if s.pins.resetN then resetMain s true .reference else s
    .next { s1 with pins := { s1.pins with refClock := false }, clk := { s1.clk with sync := .holdover } }
  else .next s

/-- REFERENCE_CLOCK_RESTORED (R461): a full boot follows. -/
def execReferenceClockRestored (s : State) : Out :=
  if s.pins.refClock then .next s
  else
    let s1 := { s with pins := { s.pins with refClock := true } }
    .next (if s.pins.resetN then bootRom s1 else s1)

/-- AVS_VOLTAGE_SET (R454, R455): a target of 500 to 750 mV in steps of 5 mV; others are not requested. -/
def execAvsVoltageSet (millivolts : Nat) (s : State) : Out :=
  if decide (millivolts % 5 = 0) && decide (500 ≤ millivolts) && decide (millivolts ≤ 750) && s.pins.resetN then
    .next { s with pins := { s.pins with avs := millivolts } }
  else .next s

/-- JTAG_INSTRUCTION (R6, R463): boundary scan while RESET_N is asserted, debug with L-DBG, IDCODE always; otherwise BYPASS. -/
def execJtagInstruction (code : JtagInstr) (s : State) : Out :=
  let taken : Bool := match code with
    | .bypass => true
    | .idcode => true
    | .debug => s.dbgOpen
    | .extest => !s.pins.resetN
    | .samplePreload => !s.pins.resetN
    | .otherScan => !s.pins.resetN
  .next { s with pins := { s.pins with jtag := if taken then code else .bypass } }

end Sys2Proof.Machine
end

