-- ==== Sys2Proof/Machine/FaultCol.lean ====
section
/-!
DEFINITION. Sys2Proof/Machine/FaultCol.lean: events as they reach the fault collector and what Apgil tells the hosts of them
(R437 to R443).
-/
namespace Sys2Proof.Machine

/-- FAULT_EVENT (R437 to R442): an event reaches the collector. -/
def execFaultEvent (ev : FaultEv) (s : State) : Out := .next (raise s ev)

/-- A record read back from the ring: its words. -/
def recWord (ws : List Word) (i : Nat) : Nat := (ws.getD i 0).toNat

/-- Code, class and status of a record. -/
def recCode (ws : List Word) : Nat := recWord ws 0 % 2 ^ 16
def recClass (ws : List Word) : Nat := recWord ws 0 / 2 ^ 16 % 256
def recStatus (ws : List Word) : Nat := recWord ws 0 / 2 ^ 24
def recTime (ws : List Word) : Nat := recWord ws 2 + recWord ws 3 * 2 ^ 32
def recSrc (ws : List Word) : Nat := recWord ws 4 % 2 ^ 16
def recCtx (ws : List Word) : Nat := recWord ws 4 / 2 ^ 16 % 256

/-- Whether a record is never gated (R440, R443). -/
def ungated (ws : List Word) : Bool := decide (recCode ws = 0x401) || (decide (recCode ws = 0x204) && decide (recWord ws 6 / 2 ^ 16 % 2 = 0))

/-- The FAULT_EVENT notice of a record (R327, R443), with the last four bytes of its detail given. -/
def recNotice (ws : List Word) (ctx last : Nat) : Sent :=
  { sess := 0, kind := 2, status := recStatus ws, typ := 0, ctx := ctx, seq := 0,
    tlvs := [(0x0051, noticeValue 1 okFAULT (recCode ws) (recTime ws)
      (leBytes 4 (recWord ws 4) ++ leBytes 4 (recWord ws 5) ++ leBytes 4 (recWord ws 6) ++ leBytes 4 last))] }

/-- A notice for a session that may receive a record: sent while it is open, else queued with the record's context (R328). -/
def recSend (s : State) (n ctx : Nat) (m : Sent) : State :=
  match sessionOf s n with
  | some x => if x.open' then noticeTo s n m else if ctx < 64 then noticeCtx s ctx m else s
  | none => s

/-- A record that a session may receive: through its gate of the record's code and source (R443). -/
def recGate (s : State) (ws : List Word) (n ctx : Nat) : State :=
  match sessionOf s n with
  | none => s
  | some x =>
    let own := recWord ws 7
    let head := if ctx < 64 then ctx else 0xFFFF
    if ungated ws then recSend s n ctx (recNotice ws head own)
    else
      let mine (g : Gate) : Bool := decide (g.code = recCode ws) && decide (g.src = recSrc ws)
      match x.gates.find? mine with
      | some g =>
        if s.clk.up < g.sentAt + 1000000000 then
          setSession s n (some { x with gates := x.gates.map (fun h => if mine h then { h with count := h.count + 1 + own } else h) })
        else
          let s1 := setSession s n (some { x with gates := x.gates.map (fun h =>
            if mine h then { h with sentAt := s.clk.up, count := 0 } else h) })
          recSend s1 n ctx (recNotice ws head ((own + g.count) % 2 ^ 32))
      | none =>
        let s1 := setSession s n (some { x with gates := x.gates ++ [{ code := recCode ws, src := recSrc ws, sentAt := s.clk.up, count := 0 }] })
        recSend s1 n ctx (recNotice ws head own)

/-- FAULT_RECORD_HANDLING (R413, R443): Apgil takes the oldest record it has not read; a record of class DEGRADED or above is
told to the sessions of its context, or to every session. -/
def execFaultRecordHandling (s : State) : Out :=
  if heldInReset s .mgmt || apgilPaused s || decide (s.fc.rd = s.fc.wr) then .next s
  else
    let ws := tget [] s.fc.ring (s.fc.rd % 4096)
    let s1 := setWord { s with fc := { s.fc with rd := (s.fc.rd + 1) % 2 ^ 32 } } (faultBase + 8) (BitVec.ofNat 32 (s.fc.rd + 1))
    if recClass ws = 0 then .next s1
    else if recCtx ws < 64 ∧ recClass ws ≠ 3 then
      match contextOf s1 (recCtx ws) with
      | some c => .next (recGate s1 ws c.sess (recCtx ws))
      | none => .next s1
    else .next (forAll (sessionList s1) (fun s n => recGate s ws n 0xFF) s1)

end Sys2Proof.Machine
end

