-- ==== Sys2Proof/Machine/Memsys.lean ====
section
/-!
DEFINITION. Sys2Proof/Machine/Memsys.lean: DDR5 channels, the modes and banks of Shared Memory, invalidations of the IOMMU (R271 to
R282, R286, R445).
-/
namespace Sys2Proof.Machine

/-- The address of line l of DDR5 channel k (R272): 256 B granules interleaved over four channels. -/
def lineAddr (k l : Nat) : Nat := l / 4 * 1024 + k * 256 + l % 4 * 64

/-- PATROL_SCRUB_READ (R273 to R276): the next line of a channel read; the patrol pauses in self-refresh. -/
def execPatrolScrubRead (chan : Nat) (ecc : EccResult) (s : State) : Out :=
  let d := ddrOf s chan
  if d.selfRefresh || d.failed || heldInReset s (.ddr chan) then .next s
  else
    let a := lineAddr chan d.patrol
    let s1 := setDdr s chan { d with patrol := (d.patrol + 1) % (s.ddrBytes / 256) }
    if a / 64 ∈ s.poison then .next (ddrUncorrectable s1 none a)
    else match ecc with
      | .clean => .next s1
      | .corrected => .next (ddrCorrected s1 a)
      | .uncorrectable => .next (ddrUncorrectable s1 none a)

/-- SELF_REFRESH_ENTRY (R277). -/
def execSelfRefreshEntry (chan : Nat) (s : State) : Out := .next (setDdr s chan { ddrOf s chan with selfRefresh := true })

/-- SELF_REFRESH_EXIT (R276, R277): the patrol goes on from the same line. -/
def execSelfRefreshExit (chan : Nat) (s : State) : Out := .next (setDdr s chan { ddrOf s chan with selfRefresh := false })

/-- DDR_CHANNEL_FAILURE (R445, R447): every context is cancelled with PAGE_FAULT and the device returns to BRINGUP. -/
def execDdrChannelFailure (chan : Nat) (s : State) : Out :=
  if (ddrOf s chan).failed then .next s
  else
    let s1 := raiseOpen (setDdr s chan { ddrOf s chan with failed := true }) 0x604 0 (1128 + chan) none
    let s2 := forAll (contextList s1) (fun s c => cancelContext s c stPAGE 0x604) s1
    .next (deviceNotice { s2 with boot := { s2.boot with st := .bringup, checked := true, serviceFailed := true } } stPAGE 0)

/-- SHM_MODE_CHANGE_DONE (R281): a slice takes its new mode. To SCRATCH, its lines are written back and its banks are DIRTY
without owner; to a cache mode, every bank must be CLEAN, and the slice starts empty with all banks on. -/
def execShmModeChangeDone (slice : Nat) (s : State) : Out :=
  let x := shmOf s slice
  match x.target with
  | none => .next s
  | some m =>
    let y : ShmSlice := { mode := m, target := none }
    let gs := sliceGranules slice
    if x.mode = .scratch then
      if m = .scratch then .next (setShm s slice y)
      else if gs.all (fun g => (granOf s g).st = .clean) then .next (granulesOff (setShm s slice y) gs)
      else .next s
    else if m = .scratch then .next (granulesOn (setShm (cacheClean s slice) slice y) gs)
    else .next (setShm s slice { y with lines := x.lines })

/-- SHM_BANK_POWER_UP (R282): the contents are undefined (open, log 1); the bank is DIRTY without an owner. -/
def execShmBankPowerUp (bank : Nat) (s : State) : Out :=
  if bank ∈ s.shmOff then
    let r := freshNat 60 s
    let s1 := store r.2 (shmBase + bank * 0x40000) (leBytes 0x40000 r.1)
    .next (granulesOn { s1 with shmOff := s1.shmOff.filter (fun b => b ≠ bank) } [8192 + bank])
  else .next s

/-- SHM_BANK_POWER_DOWN (R282): Apgil switches off a SCRATCH bank that is CLEAN and granted to no context. -/
def execShmBankPowerDown (src : Src) (bank : Nat) (s : State) : Out :=
  if isApgil src && decide (bank < 256) && decide (bank ∉ s.shmOff) && decide ((shmOf s (bank / 16)).mode = .scratch) &&
      decide ((granOf s (8192 + bank)).st = .clean) && decide ((granOf s (8192 + bank)).grantWait = none) then
    .next (granulesOff { s with shmOff := insertBy id bank s.shmOff } [8192 + bank])
  else .next s

/-- Whether an I/O page lies in the scope of an invalidation (R286). -/
def inScope (v : Inval) (p : Nat) : Bool := v.all || (decide (v.page ≤ p) && decide (p < v.page + v.pages))

/-- Whether a fetch has bursts translated through a page of an invalidation's scope (R286). -/
def fetchInScope (v : Inval) (f : Fetch) : Bool :=
  decide (0 < f.tags) && (List.range (ceilDiv f.issued 64)).any (fun i => inScope v (fetchIo f (64 * i) / 4096))

/-- IOMMU_INVALIDATE (R286): an invalidation begins; the bursts and fetches translated so far with an entry of its scope belong to the
old entries. -/
def execIommuInvalidate (src : Src) (value : Word) (s : State) : Out :=
  match meets s src (iommuBase + 0x10) with
  | .here =>
    if isApgil src then
      if s.inval.isSome then .next s
      else
        let x := fld value 7 0
        let v : Inval := { ctx := x, all := bitOf value 8, page := wfld s (iommuBase + 0x14) 27 0, pages := fld value 31 16 }
        .next { s with
          inval := some v
          chans := s.chans.map (fun e =>
            if wfld s (dmReg e.1 0x10) 15 8 = x ∧ wbit s (dmReg e.1 0x10) 16 = false then
              (e.1, { e.2 with bursts := e.2.bursts.map (fun b => { b with stale := b.pages.any (inScope v) }) })
            else e)
          tiles := s.tiles.map (fun e =>
            if wfld s (gtReg e.1 0x10) 15 8 = x then
              (e.1, { e.2 with fetch := e.2.fetch.map (fun f => { f with stale := fetchInScope v f }) })
            else e) }
    else .next (denied s src (iommuBase + 0x10))
  | m => .next (refuse s src (iommuBase + 0x10) m)

/-- IOMMU_INVALIDATE_DONE (R286): every burst translated with a dropped entry has finished. -/
def execIommuInvalidateDone (s : State) : Out :=
  if s.inval.isSome && s.chans.all (fun e => e.2.bursts.all (fun b => !b.stale)) &&
      s.tiles.all (fun e => e.2.fetch.all (fun f => !f.stale)) then
    .next { s with inval := none }
  else .next s

end Sys2Proof.Machine
end

