-- ==== Sys2Proof/Machine/Update.lean ====
section
/-!
DEFINITION. Sys2Proof/Machine/Update.lean: FW_UPDATE, the live firmware update with its roll-back, the management cores' watchdogs
(R30, R336, R337, R397, R398, R400, R411 to R417, R432, R444).
-/
namespace Sys2Proof.Machine

/-! ### The image (R397, R398, R411) -/

/-- The bytes that a firmware header reserves. -/
def fwReserved : List Nat := [5, 11, 21] ++ (List.range 6).map (fun i => 26 + i) ++ (List.range 64).map (fun i => 128 + i)

/-- The header of an image and what its checks find (R397, R398). -/
def fwImageOf (s : State) (b : List Byte) : FwImage :=
  { headerOk := decide (leAt b 0 4 = 0x41504731) && decide (leAt b 4 1 = 1) && decide (leAt b 6 2 = 0x100) &&
      fwReserved.all (fun i => decide (leAt b i 1 = 0))
    keyOk := decide (beNat (sha256 (slice b 64 64)) = s.fuses.fwKeyHash)
    sigOk := ecdsaVerify (slice b 64 64) (slice b 192 64) (sha256 (b.take 192))
    digestOk := decide (sha256 (b.drop 256) = slice b 32 32)
    minStepping := leAt b 20 1, release := leAt b 8 3, security := leAt b 12 4, handMin := leAt b 22 2, handOut := leAt b 24 2
    length := leAt b 16 4, digest := beNat (slice b 32 32) }

/-- The status of a failing check of R398 (R411). -/
def updateStatus (reason : Nat) : Nat := if reason = 2 then stSIGN else if reason = 3 then stCHECK else stVERSION

/-- Whether an update is open (R337, R400, R417): staged, activating, in probation or in rewrite, or another session's transfer. -/
def updateOpen (s : State) (sess : Nat) : Bool :=
  decide (s.boot.phase ≠ .none) ||
    (sessionList s).any (fun n => decide (n ≠ sess) && (match sessionOf s n with | some x => x.transfers.any (fun t => t.typ = 0x0041) | none => false))

/-- A complete image judged (R400, R411). -/
def takeImage (s : State) (r : AcpReq) (i : FwImage) (at' : Nat) : State :=
  match imageReason s i with
  | some reason => failReply s r (updateStatus reason) 8 reason
  | none =>
    if s.boot.st = .recovery then okReply { s with boot := { s.boot with staged := some i } } r []
    else if (match s.boot.image with | some old => decide (old.handOut < i.handMin) | none => false) then failReply s r stVERSION 8 i.handMin
    else okReply { s with boot := { s.boot with staged := some i, phase := .staged, activateAt := at' } } r []

/-- FW_UPDATE (R336, R337, R400, R411, R417): chunks staged; the complete image is checked. The activation time is that of the newest
FW_OPTS of the transfer. -/
def execFwUpdate (r : AcpReq) (s : State) : Out :=
  executing s r (fun s =>
    match sessionOf s r.sess with
    | none => s
    | some x =>
      if badLen r 0x8045 8 then failReply s r stCOUNT 5 0x8045
      else if !chunksGood r then failReply s r stCOUNT 5 0x8020
      else if updateOpen s r.sess then failReply s r stBUSY 8 0x0041
      else if (transferOf x r.typ r.ctx).isNone ∧ 4 ≤ x.transfers.length then failReply s r stCOUNT 8 4
      else
        let old := (transferOf x r.typ r.ctx).getD { ident := 0, typ := r.typ, ctx := r.ctx, length := none, chunks := [], last := 0 }
        let t0 := addChunks old (tlvAll r 0x8020) 16 4 s.clk.up
        let t := { t0 with ident := (match tlv r 0x8045 with | some v => leAt v 0 8 | none => old.ident) }
        if transferDone t then
          let closed := setSession s r.sess (some (dropTransfer x r.typ r.ctx))
          takeImage closed r (fwImageOf closed ((assembled t.chunks).take (t.length.getD 0))) t.ident
        else okReply (setSession s r.sess (some (putTransfer x t))) r [])

/-! ### Activation (R412, R413) -/

/-- Armed launch slots and enabled queues. -/
def armedSlots (s : State) : List Nat := (List.range 256).filter (fun i => (slotOf s i).armed)
def enabledQueues (s : State) : List Nat := (List.range 512).filter (fun q => wbit s (queueReg q 8) 31)

/-- FW_ACTIVATION (R337, R411, R412, R417): at the stated time no requests are taken any more and the hand-over block is written. -/
def execFwActivation (s : State) : Out :=
  if decide (s.boot.phase = .staged) && decide (s.boot.activateAt ≤ s.clk.now) && !heldInReset s .mgmt && !apgilPaused s then
    let block : HandOver := { host := s.host, streams := s.streams, groups := s.groups, armed := armedSlots s, enabled := enabledQueues s }
    .next { s with boot := { s.boot with phase := .handover, handOver := some block } }
  else .next s

/-- Every management core at work again: requests that waited for a restart are answered. -/
def coresBack (s : State) : State :=
  let m := (List.range 2).foldl (fun t n => tset {} t n { tget {} t n with restarting := false }) s.boot.mgmt
  resetAnswers { s with boot := { s.boot with mgmt := m } } .mgmt

/-- FW_HANDOVER_DONE (R412, R413, R414): the new image takes up the block; probation of 10 s begins. -/
def execFwHandoverDone (s : State) : Out :=
  if decide (s.boot.phase = .handover) && !heldInReset s .mgmt then
    .next (coresBack { s with
      boot := { s.boot with old := s.boot.image, image := s.boot.staged, staged := none, phase := .probation, probationEnd := s.clk.up + 10000000000 } })
  else .next s

/-! ### Roll-back (R414, R415) -/

/-- A FW_UPDATE notice (R327): 2 rolled back, 3 written. -/
def updateNotice (s : State) (status index : Nat) (i : Option FwImage) (count : Nat) : State :=
  let rel := match i with | some x => leBytes 3 x.release ++ leBytes 1 0 ++ leBytes 4 x.security | none => List.replicate 8 0
  noticeAll s (mkNotice s 0x0041 status 4 okDEVICE index 0xFFFF (rel ++ leBytes 4 count) [])

/-- Whether the block knows a context, stream, job or package as it stands now. A stream that the block has not started knows no Stroke. -/
def blockCtx (b : HandOver) (s : State) (c : Nat) : Bool :=
  match tget none b.host.contexts c, contextOf s c with
  | some x, some y => decide (x.sess = y.sess)
  | _, _ => false
def blockStream (b : HandOver) (s : State) (n : Nat) : Bool :=
  match tget none b.streams n, streamOf s n with
  | some x, some y => decide (x.ctx = y.ctx) && decide (dw x 0x8 = dw y 0x8) && (decide (x.phase ≠ .created) || decide (y.phase = .created))
  | _, _ => false
def blockJob (b : HandOver) (s : State) (j : Nat) : Bool :=
  match tget none b.host.jobs j, jobOf s j with
  | some x, some y => decide (x.ctx = y.ctx) && (decide (x.st ≠ .held) || decide (y.st = .held))
  | _, _ => false
def blockPackage (b : HandOver) (p : Package) : Bool := b.host.packages.any (fun q => decide (q.ident = p.ident) && decide (q.ctx = p.ctx))

/-- How many objects the block does not know (R327, R415). -/
def strayCount (b : HandOver) (s : State) : Nat :=
  ((sessionList s).filter (fun n => (tget none b.host.sessions n).isNone)).length +
  ((contextList s).filter (fun c => !blockCtx b s c)).length + ((streamList s).filter (fun n => !blockStream b s n)).length +
  ((jobList s).filter (fun j => !blockJob b s j)).length + (s.host.packages.filter (fun p => !blockPackage b p)).length +
  ((armedSlots s).filter (fun i => i ∉ b.armed)).length + ((enabledQueues s).filter (fun q => q ∉ b.enabled)).length +
  ((List.range 1024).filter (fun g => decide ((groupOf s g).owner.isSome) && (tget {} b.groups g).owner.isNone)).length

/-- What the new image created is cancelled (R415). -/
def dropStrays (b : HandOver) (s : State) : State :=
  let s1 := forAll (streamList s) (fun s n => match streamOf s n with
    | some x =>
      if blockStream b s n then s
      else
        let c := cancelStream s n stCANCELLED 0
        if (match tget none b.streams n with | some y => decide (y.ctx = x.ctx) | none => false) then c else freeStream c n
    | none => s) s
  let s2 := forAll (jobList s1) (fun s j => if blockJob b s j then s else cancelJob s j stCANCELLED) s1
  let s3 := forAll ((enabledQueues s2).filter (fun q => q ∉ b.enabled)) (fun s q => queueStop s q stCANCELLED) s2
  let s4 := forAll ((armedSlots s3).filter (fun i => i ∉ b.armed)) (fun s i => setSlot s i { slotOf s i with armed := false }) s3
  let s5 := forAll (contextList s4) (fun s c => if blockCtx b s c then s else closeContextOp s c) s4
  let gone := s5.host.packages.filter (fun p => !blockPackage b p)
  forAll gone dropShares { s5 with host := { s5.host with packages := s5.host.packages.filter (blockPackage b) } }

/-- The objects of the block that still stand take its values; those ended since stay ended (R415). Configuration, keys, the hardware's
channels, Strokes and jobs at work stay as they are. -/
def takeBlock (b : HandOver) (s : State) : State :=
  let ctxs := s.host.contexts.map (fun e => (e.1, if e.2.isSome then tget none b.host.contexts e.1 else none))
  let packs := b.host.packages.filter (fun p => s.host.packages.any (fun q => decide (q.ident = p.ident) && decide (q.ctx = p.ctx)))
  let live (c : Nat) : Bool := (tget none ctxs c).isSome
  { s with
    host := { s.host with contexts := ctxs, packages := packs }
    groups := b.groups.filter (fun e => match e.2.owner with | some c => live c | none => true) }

/-- Requests of the block that wait for what has ended since, answered. -/
def lateAnswers (s : State) : State :=
  let s1 := forAll ((s.host.resetReplies.map (fun r => r.1)).filter (fun d => d ∉ s.resetting ∧ d ≠ .mgmt)) resetAnswers s
  forAll ((s1.host.cycleReplies.map (fun r => r.1)).filter (fun p => partOn s1 p)) cycleAnswers s1

/-- The old image restarts and reconciles its block (R414, R415). -/
def rollBack (s : State) : State :=
  match s.boot.handOver with
  | none => s
  | some b =>
    let new := if s.boot.phase = .handover then s.boot.staged else s.boot.image
    let run := if s.boot.phase = .handover then s.boot.image else s.boot.old
    let n := strayCount b s
    let s1 := { s with host := { s.host with
      sessions := b.host.sessions, hellos := b.host.hellos, resetReplies := b.host.resetReplies, cycleReplies := b.host.cycleReplies } }
    let s2 := lateAnswers (takeBlock b (dropStrays b s1))
    let s3 := { s2 with boot := { s2.boot with image := run, staged := none, old := none, phase := .none, handOver := none, probationEnd := 0 } }
    updateNotice (restartCore (restartCore s3 0) 1) stCANCELLED 2 new n

/-- FW_ROLLBACK (R414, R415): the hand-over fails, or the new image does in its probation. -/
def execFwRollback (s : State) : Out :=
  if decide (s.boot.phase = .handover ∨ s.boot.phase = .probation) && !heldInReset s .mgmt then .next (rollBack s) else .next s

/-! ### The rewrite (R416) -/

/-- PROBATION_END (R416, R428). -/
def execProbationEnd (s : State) : Out :=
  if decide (s.boot.phase = .probation) && decide (s.boot.probationEnd ≤ s.clk.up) && !heldInReset s .mgmt then
    .next (beginRewrite { s with boot := { s.boot with old := none } })
  else .next s

/-- Whether a block of the firmware region waits to be written. -/
def rewriteBusy (f : Flash) : Bool :=
  (f.running.toList ++ f.suspended.toList ++ f.opsMain).any (fun o => !o.smi && decide (o.block < 256))

/-- FW_REWRITE_DONE (R327, R416, R432): the last block is checked; a higher security version raises the anti-rollback counter. -/
def execFwRewriteDone (s : State) : Out :=
  if decide (s.boot.phase = .rewrite) && !rewriteBusy s.flash && !heldInReset s .mgmt && !apgilPaused s then
    let s1 := { s with boot := { s.boot with phase := .none, flashImage := s.boot.image, fromRecovery := false } }
    let v := match s.boot.image with | some i => i.security | none => 0
    let s2 := if antiRollback s1 < v then flashQueue s1 [flashRec 0x0006 0 (leBytes 4 v)] none else s1
    .next (updateNotice s2 stOK 3 s.boot.image 0)
  else .next s

/-! ### Watchdogs of the management cores (R30, R399, R444) -/

/-- MANAGEMENT_WATCHDOG_FIRE (R414, R444): the core restarts alone; both within 1 s: a full boot; in probation: the old image. -/
def execManagementWatchdogFire (core : Nat) (s : State) : Out :=
  let x : MgmtCore := tget {} s.boot.mgmt core
  let y : MgmtCore := tget {} s.boot.mgmt (1 - core)
  if decide (core < 2) && x.running && !x.restarting && !heldInReset s .mgmt && decide (s.boot.st = .bringup ∨ s.boot.st = .ready) &&
      decide (s.boot.phase ≠ .handover) then
    let s1 := raiseOpen { s with boot := { s.boot with mgmt := tset {} s.boot.mgmt core { x with firedAt := some s.clk.up } } } 0x605 0 (1104 + core) none
    if (match y.firedAt with | some t => decide (s.clk.up ≤ t + 1000000000) | none => false) then .next (bootRom (resetMain s1 true .watchdogs))
    else if s.boot.phase = .probation then .next (rollBack s1)
    else .next (restartCore s1 core)
  else .next s

/-- MANAGEMENT_CORE_RESTART_DONE (R30, R334, R444): the core takes commands again. -/
def execManagementCoreRestartDone (core : Nat) (s : State) : Out :=
  let x : MgmtCore := tget {} s.boot.mgmt core
  if x.restarting && decide (s.boot.phase ≠ .handover) && !heldInReset s .mgmt then
    let s1 := { s with boot := { s.boot with mgmt := tset {} s.boot.mgmt core { x with restarting := false } } }
    .next (if (tget ({} : MgmtCore) s1.boot.mgmt (1 - core)).restarting then s1 else resetAnswers s1 .mgmt)
  else .next s

end Sys2Proof.Machine
end

