-- ==== Sys2Proof/Machine/Dispatch.lean ====
section
/-!
DEFINITION. Sys2Proof/Machine/Dispatch.lean: one arm for each command; each arm calls the command's own meaning.
-/
namespace Sys2Proof.Machine

/-- The effect of a command on everything but the queue. -/
def exec (i : Instr) (s : State) : Host.Outcome State Fault Refusal :=
  match i with
  -- register and window accesses (00, 01)
  | .registerWrite src addr value => Sys2Proof.Machine.execRegisterWrite src addr value s
  | .counterClearWrite src addr value => Sys2Proof.Machine.execCounterClearWrite src addr value s
  | .misalignedRegisterAccess src addr size write => Sys2Proof.Machine.execMisalignedRegisterAccess src addr size write s
  | .absentWindowAccess src addr write => Sys2Proof.Machine.execAbsentWindowAccess src addr write s
  | .unmappedWindowAccess src addr write => Sys2Proof.Machine.execUnmappedWindowAccess src addr write s
  | .pairLowWordRead src addr => Sys2Proof.Machine.execPairLowWordRead src addr s
  | .pairHighWordRead src addr => Sys2Proof.Machine.execPairHighWordRead src addr s
  | .resetEndpointRequest src addr write => Sys2Proof.Machine.execResetEndpointRequest src addr write s
  -- islands and resets (01, 08, 16, 18)
  | .slow d => Sys2Proof.Machine.execSlow d s
  | .slowClear d => Sys2Proof.Machine.execSlowClear d s
  | .segmentMoveSwitch tile => Sys2Proof.Machine.execSegmentMoveSwitch tile s
  | .domainReset d => Sys2Proof.Machine.execDomainReset d s
  | .domainResetDone d => Sys2Proof.Machine.execDomainResetDone d s
  | .resetNAssert => Sys2Proof.Machine.execResetNAssert s
  | .resetNRelease => Sys2Proof.Machine.execResetNRelease s
  | .smiResetNEvent asserted => Sys2Proof.Machine.execSmiResetNEvent asserted s
  | .smiWatchdogFire => Sys2Proof.Machine.execSmiWatchdogFire s
  -- camera intake (02)
  | .csiFrameStart port vc frameNo ecc => Sys2Proof.Machine.execCsiFrameStart port vc frameNo ecc s
  | .csiLineStart port vc line ecc => Sys2Proof.Machine.execCsiLineStart port vc line ecc s
  | .csiLongPacket p => Sys2Proof.Machine.execCsiLongPacket p s
  | .csiFrameEnd port vc ecc => Sys2Proof.Machine.execCsiFrameEnd port vc ecc s
  | .frameTimeout port bank => Sys2Proof.Machine.execFrameTimeout port bank s
  | .triggerFrameMissing port bank => Sys2Proof.Machine.execTriggerFrameMissing port bank s
  | .externalTrigger pin => Sys2Proof.Machine.execExternalTrigger pin s
  | .trigPulseEnd pin => Sys2Proof.Machine.execTrigPulseEnd pin s
  | .sensorSettingsWrite bus => Sys2Proof.Machine.execSensorSettingsWrite bus s
  | .sensorWriteNack bus => Sys2Proof.Machine.execSensorWriteNack bus s
  -- Plate, statistics, colour (03)
  | .plateStripeTake pipe => Sys2Proof.Machine.execPlateStripeTake pipe s
  | .plateStripeDone pipe => Sys2Proof.Machine.execPlateStripeDone pipe s
  | .statRecordWrite stream => Sys2Proof.Machine.execStatRecordWrite stream s
  | .plCommit src stream value => Sys2Proof.Machine.execPlCommit src stream value s
  | .clCommit src stream value => Sys2Proof.Machine.execClCommit src stream value s
  | .colourStripeTake stage => Sys2Proof.Machine.execColourStripeTake stage s
  | .colourFrameEnd stage => Sys2Proof.Machine.execColourFrameEnd stage s
  -- Strokes (04)
  | .strokeLaunch stream => Sys2Proof.Machine.execStrokeLaunch stream s
  | .frameAdmit stream => Sys2Proof.Machine.execFrameAdmit stream s
  | .stripeDispatch stream => Sys2Proof.Machine.execStripeDispatch stream s
  | .resultRecordWrite stream => Sys2Proof.Machine.execResultRecordWrite stream s
  | .strokeBarrierComplete stream => Sys2Proof.Machine.execStrokeBarrierComplete stream s
  -- Graver tiles (05, 08)
  | .layer tile ecc => Sys2Proof.Machine.execLayer tile ecc s
  | .loop tile => Sys2Proof.Machine.execLoop tile s
  | .endloop tile => Sys2Proof.Machine.execEndloop tile s
  | .wait tile => Sys2Proof.Machine.execWait tile s
  | .signal tile => Sys2Proof.Machine.execSignal tile s
  | .rotate tile => Sys2Proof.Machine.execRotate tile s
  | .rotateArrived tile => Sys2Proof.Machine.execRotateArrived tile s
  | .halt tile => Sys2Proof.Machine.execHalt tile s
  | .haltComplete tile => Sys2Proof.Machine.execHaltComplete tile s
  | .fetchDone tile ecc => Sys2Proof.Machine.execFetchDone tile ecc s
  | .outputWriteNack tile addr => Sys2Proof.Machine.execOutputWriteNack tile addr s
  | .fetchReadNack tile => Sys2Proof.Machine.execFetchReadNack tile s
  | .fetchTranslationFault tile resolved => Sys2Proof.Machine.execFetchTranslationFault tile resolved s
  | .tileStart src tile => Sys2Proof.Machine.execTileStart src tile s
  | .tileCancel src tile => Sys2Proof.Machine.execTileCancel src tile s
  | .tileStopDone tile => Sys2Proof.Machine.execTileStopDone tile s
  | .tileCounterClear src tile => Sys2Proof.Machine.execTileCounterClear src tile s
  | .tileWatchdog tile => Sys2Proof.Machine.execTileWatchdog tile s
  | .stringRestart stream string => Sys2Proof.Machine.execStringRestart stream string s
  -- Box and Rank Unit (07)
  | .bruSubmit src value => Sys2Proof.Machine.execBruSubmit src value s
  | .bruCancel src value => Sys2Proof.Machine.execBruCancel src value s
  | .bruIterationStart => Sys2Proof.Machine.execBruIterationStart s
  | .bruIterationDone => Sys2Proof.Machine.execBruIterationDone s
  | .bruSlotRead src slot => Sys2Proof.Machine.execBruSlotRead src slot s
  -- Etch cores (09, 10)
  | .bundleIssue core ecc => Sys2Proof.Machine.execBundleIssue core ecc s
  | .etchStart src core => Sys2Proof.Machine.execEtchStart src core s
  | .etchCancel src core => Sys2Proof.Machine.execEtchCancel src core s
  | .etchStopDone core => Sys2Proof.Machine.execEtchStopDone core s
  | .etchCounterClear src core => Sys2Proof.Machine.execEtchCounterClear src core s
  -- DMA (11)
  | .dmaStart src chan => Sys2Proof.Machine.execDmaStart src chan s
  | .dmaCancel src chan => Sys2Proof.Machine.execDmaCancel src chan s
  | .dmaResume src chan => Sys2Proof.Machine.execDmaResume src chan s
  | .dmaAbort src chan => Sys2Proof.Machine.execDmaAbort src chan s
  | .dmaClear src chan => Sys2Proof.Machine.execDmaClear src chan s
  | .move chan => Sys2Proof.Machine.execMove chan s
  | .burstIssue cluster => Sys2Proof.Machine.execBurstIssue cluster s
  | .burstReadReturn chan ecc ans => Sys2Proof.Machine.execBurstReadReturn chan ecc ans s
  | .burstWriteAnswer chan ans => Sys2Proof.Machine.execBurstWriteAnswer chan ans s
  | .moveComplete chan => Sys2Proof.Machine.execMoveComplete chan s
  | .dmaLoop chan => Sys2Proof.Machine.execDmaLoop chan s
  | .dmaWait chan => Sys2Proof.Machine.execDmaWait chan s
  | .dmaSignal chan => Sys2Proof.Machine.execDmaSignal chan s
  | .dmaProgramEnd chan => Sys2Proof.Machine.execDmaProgramEnd chan s
  | .dmaTranslationFault chan => Sys2Proof.Machine.execDmaTranslationFault chan s
  | .dmaStopDone chan => Sys2Proof.Machine.execDmaStopDone chan s
  -- memory system (12, 20)
  | .patrolScrubRead chan ecc => Sys2Proof.Machine.execPatrolScrubRead chan ecc s
  | .selfRefreshEntry chan => Sys2Proof.Machine.execSelfRefreshEntry chan s
  | .selfRefreshExit chan => Sys2Proof.Machine.execSelfRefreshExit chan s
  | .ddrChannelFailure chan => Sys2Proof.Machine.execDdrChannelFailure chan s
  | .shmModeChangeDone slice => Sys2Proof.Machine.execShmModeChangeDone slice s
  | .shmBankPowerUp bank => Sys2Proof.Machine.execShmBankPowerUp bank s
  | .iommuInvalidate src value => Sys2Proof.Machine.execIommuInvalidate src value s
  | .iommuInvalidateDone => Sys2Proof.Machine.execIommuInvalidateDone s
  | .granuleGrant granule ctx keep => Sys2Proof.Machine.execGranuleGrant granule ctx keep s
  | .granuleRelease granule how => Sys2Proof.Machine.execGranuleRelease granule how s
  | .granuleHoldExpiry granule => Sys2Proof.Machine.execGranuleHoldExpiry granule s
  | .dirtyGranuleAccess src addr write => Sys2Proof.Machine.execDirtyGranuleAccess src addr write s
  | .scrubStart granule => Sys2Proof.Machine.execScrubStart granule s
  | .scrubDone granule => Sys2Proof.Machine.execScrubDone granule s
  -- flags, queues, launches, device time (13)
  | .flagUpdate src flag add value => Sys2Proof.Machine.execFlagUpdate src flag add value s
  | .flagWrite src flag value => Sys2Proof.Machine.execFlagWrite src flag value s
  | .flagRead src flag => Sys2Proof.Machine.execFlagRead src flag s
  | .waitExpiry waiter => Sys2Proof.Machine.execWaitExpiry waiter s
  | .deadlockCheck waiter => Sys2Proof.Machine.execDeadlockCheck waiter s
  | .queueEnable src queue value => Sys2Proof.Machine.execQueueEnable src queue value s
  | .queueEntryStart queue => Sys2Proof.Machine.execQueueEntryStart queue s
  | .launchSlotArm src slot value => Sys2Proof.Machine.execLaunchSlotArm src slot value s
  | .launchSlotDisarm src slot value => Sys2Proof.Machine.execLaunchSlotDisarm src slot value s
  | .launchSlotFire slot => Sys2Proof.Machine.execLaunchSlotFire slot s
  | .contextCancelWrite src value => Sys2Proof.Machine.execContextCancelWrite src value s
  | .contextCancelApply ctx => Sys2Proof.Machine.execContextCancelApply ctx s
  | .timeSourceSelect src value => Sys2Proof.Machine.execTimeSourceSelect src value s
  | .gptpSyncMessage port offset => Sys2Proof.Machine.execGptpSyncMessage port offset s
  | .bridgeTimeMessage link delay offset => Sys2Proof.Machine.execBridgeTimeMessage link delay offset s
  | .timeSourceLost => Sys2Proof.Machine.execTimeSourceLost s
  | .deviceTimeStep => Sys2Proof.Machine.execDeviceTimeStep s
  -- network and ACP (14)
  | .networkFrameReceive f => Sys2Proof.Machine.execNetworkFrameReceive f s
  | .acpMessageReceive m => Sys2Proof.Machine.execAcpMessageReceive m s
  | .hello r => Sys2Proof.Machine.execHello r s
  | .query r => Sys2Proof.Machine.execQuery r s
  | .setConfig r => Sys2Proof.Machine.execSetConfig r s
  | .topology r => Sys2Proof.Machine.execTopology r s
  | .attest r => Sys2Proof.Machine.execAttest r s
  | .openContext r => Sys2Proof.Machine.execOpenContext r s
  | .closeContext r => Sys2Proof.Machine.execCloseContext r s
  | .setEnergyBudget r => Sys2Proof.Machine.execSetEnergyBudget r s
  | .loadPackage r => Sys2Proof.Machine.execLoadPackage r s
  | .unloadPackage r => Sys2Proof.Machine.execUnloadPackage r s
  | .createStream r => Sys2Proof.Machine.execCreateStream r s
  | .startStream r => Sys2Proof.Machine.execStartStream r s
  | .stop r => Sys2Proof.Machine.execStop r s
  | .cancel r => Sys2Proof.Machine.execCancel r s
  | .setSettings r => Sys2Proof.Machine.execSetSettings r s
  | .launchJob r => Sys2Proof.Machine.execLaunchJob r s
  | .destroyStream r => Sys2Proof.Machine.execDestroyStream r s
  | .snapshot r => Sys2Proof.Machine.execSnapshot r s
  | .installLicence r => Sys2Proof.Machine.execInstallLicence r s
  | .fwUpdate r => Sys2Proof.Machine.execFwUpdate r s
  | .resetPartition r => Sys2Proof.Machine.execResetPartition r s
  | .acpRouteForward r => Sys2Proof.Machine.execAcpRouteForward r s
  | .sessionTimeout sess => Sys2Proof.Machine.execSessionTimeout sess s
  | .transferAbandon sess transfer => Sys2Proof.Machine.execTransferAbandon sess transfer s
  | .mailboxClaim src chan => Sys2Proof.Machine.execMailboxClaim src chan s
  | .mailboxRing src chan => Sys2Proof.Machine.execMailboxRing src chan s
  | .mailboxAck src chan => Sys2Proof.Machine.execMailboxAck src chan s
  | .mailboxTake chan => Sys2Proof.Machine.execMailboxTake chan s
  | .noticePlace chan => Sys2Proof.Machine.execNoticePlace chan s
  -- Bridge (15)
  | .linkTraining link r => Sys2Proof.Machine.execLinkTraining link r s
  | .linkRetrain link r => Sys2Proof.Machine.execLinkRetrain link r s
  | .linkRetrainRequest src link value => Sys2Proof.Machine.execLinkRetrainRequest src link value s
  | .routeUpdate link device list => Sys2Proof.Machine.execRouteUpdate link device list s
  | .routeLossTimeout device => Sys2Proof.Machine.execRouteLossTimeout device s
  | .remoteAccess a => Sys2Proof.Machine.execRemoteAccess a s
  | .flagWindowWrite a => Sys2Proof.Machine.execFlagWindowWrite a s
  | .importTimeout exportId => Sys2Proof.Machine.execImportTimeout exportId s
  | .windowClose exportId => Sys2Proof.Machine.execWindowClose exportId s
  | .windowCloseDone exportId => Sys2Proof.Machine.execWindowCloseDone exportId s
  -- SMI (16)
  | .inletWrite src offset value => Sys2Proof.Machine.execInletWrite src offset value s
  | .inletCommit src value => Sys2Proof.Machine.execInletCommit src value s
  | .smiMessageTake => Sys2Proof.Machine.execSmiMessageTake s
  | .measure => Sys2Proof.Machine.execMeasure s
  | .fwChunk => Sys2Proof.Machine.execFwChunk s
  | .fwCommit => Sys2Proof.Machine.execFwCommit s
  | .smiFwDone => Sys2Proof.Machine.execSmiFwDone s
  | .calInstall => Sys2Proof.Machine.execCalInstall s
  | .paramSet => Sys2Proof.Machine.execParamSet s
  | .licence => Sys2Proof.Machine.execLicence s
  | .logRead => Sys2Proof.Machine.execLogRead s
  | .keyStatement => Sys2Proof.Machine.execKeyStatement s
  | .smiBoot => Sys2Proof.Machine.execSmiBoot s
  | .sealChange asserted => Sys2Proof.Machine.execSealChange asserted s
  | .vddSmiChange inRange => Sys2Proof.Machine.execVddSmiChange inRange s
  -- energy and power (17)
  | .energySample power => Sys2Proof.Machine.execEnergySample power s
  | .energyWindow => Sys2Proof.Machine.execEnergyWindow s
  | .launchHoldTimeout job => Sys2Proof.Machine.execLaunchHoldTimeout job s
  | .partitionEnable src part => Sys2Proof.Machine.execPartitionEnable src part s
  | .partitionDisable src part => Sys2Proof.Machine.execPartitionDisable src part s
  | .partitionPowerUpDone part => Sys2Proof.Machine.execPartitionPowerUpDone part s
  | .partitionPowerDownDone part => Sys2Proof.Machine.execPartitionPowerDownDone part s
  | .partitionIdleTimeout part => Sys2Proof.Machine.execPartitionIdleTimeout part s
  | .deviceIdleEntry => Sys2Proof.Machine.execDeviceIdleEntry s
  | .parkEntry => Sys2Proof.Machine.execParkEntry s
  | .parkWake f => Sys2Proof.Machine.execParkWake f s
  | .temperatureSample temps => Sys2Proof.Machine.execTemperatureSample temps s
  | .thermalCapRelease => Sys2Proof.Machine.execThermalCapRelease s
  -- bring-up and update (18)
  | .recoveryBroadcast => Sys2Proof.Machine.execRecoveryBroadcast s
  | .recoveryImageStart image => Sys2Proof.Machine.execRecoveryImageStart image s
  | .bringupStart test => Sys2Proof.Machine.execBringupStart test s
  | .readinessCheck => Sys2Proof.Machine.execReadinessCheck s
  | .bootWatchdog => Sys2Proof.Machine.execBootWatchdog s
  | .fwActivation => Sys2Proof.Machine.execFwActivation s
  | .fwHandoverDone => Sys2Proof.Machine.execFwHandoverDone s
  | .fwRollback => Sys2Proof.Machine.execFwRollback s
  | .probationEnd => Sys2Proof.Machine.execProbationEnd s
  | .fwRewriteDone => Sys2Proof.Machine.execFwRewriteDone s
  | .managementWatchdogFire core => Sys2Proof.Machine.execManagementWatchdogFire core s
  | .managementCoreRestartDone core => Sys2Proof.Machine.execManagementCoreRestartDone core s
  -- Archive flash (19)
  | .flashTransaction => Sys2Proof.Machine.execFlashTransaction s
  | .flashProgramDone => Sys2Proof.Machine.execFlashProgramDone s
  | .ringBlockReclaim ring => Sys2Proof.Machine.execRingBlockReclaim ring s
  -- electrical (21)
  | .powerCut => Sys2Proof.Machine.execPowerCut s
  | .referenceClockLoss => Sys2Proof.Machine.execReferenceClockLoss s
  | .referenceClockRestored => Sys2Proof.Machine.execReferenceClockRestored s
  | .avsVoltageSet millivolts => Sys2Proof.Machine.execAvsVoltageSet millivolts s
  | .jtagInstruction code => Sys2Proof.Machine.execJtagInstruction code s
  -- fault collector (20) and the rows added at the table's end
  | .faultEvent ev => Sys2Proof.Machine.execFaultEvent ev s
  | .faultRecordHandling => Sys2Proof.Machine.execFaultRecordHandling s
  | .colourStripeDone stage => Sys2Proof.Machine.execColourStripeDone stage s
  | .phyLockChange port locked => Sys2Proof.Machine.execPhyLockChange port locked s
  | .deskewSequence port converged => Sys2Proof.Machine.execDeskewSequence port converged s
  | .networkLinkChange port up => Sys2Proof.Machine.execNetworkLinkChange port up s
  | .shmBankPowerDown src bank => Sys2Proof.Machine.execShmBankPowerDown src bank s
  | .importRequest sender exportId waitMs => Sys2Proof.Machine.execImportRequest sender exportId waitMs s
  | .importGranted exportId owner bytes flagGroup read write => Sys2Proof.Machine.execImportGranted exportId owner bytes flagGroup read write s

end Sys2Proof.Machine
end

