-- ==== Sys2Proof/Safety.lean ====
section
/-!
DEFINITION. Sys2Proof/Safety.lean: what counts as a safe run: no step stops with a fault or a refusal.
-/
namespace Sys2Proof

/-- A step that answers a next state. -/
def StepsOn (s : Machine.State) : Prop := ∃ t, Machine.step s = .next t

/-- A run of n steps, none of which stops. -/
def SafeFor : Nat → Machine.State → Prop
  | 0, _ => True
  | n + 1, s => ∃ t, Machine.step s = .next t ∧ SafeFor n t

/-- The fault collector after an event with these fields has reached it in state `s` (R439 to R442); `ctx` none is no context. -/
def collected (s : Machine.State) (code status src : Nat) (ctx : Option Nat) (detail : Nat) : Machine.Collector :=
  Machine.collect s.fc s.clk.now s.clk.up
    { code := code, status := status, src := src, ctx := ctx.getD Machine.noCtx, detail := detail, extra := 0 }

/-- An update of flag `f` by `src` takes effect in the step that makes it: the flag store is on, fewer than 8 updates were applied in
this tick and none is held, and the context of the source's binding owns or shares the flag's group (R297, R298). -/
def flagNow (s : Machine.State) (src : Machine.Src) (f : Nat) : Prop :=
  Machine.heldInReset s .network = false ∧ s.clk.updates < 8 ∧ s.updates = [] ∧ f < 65536 ∧
    Machine.flagAllowed s (if Machine.isApgil src then none else some ((Machine.srcCtx s src).getD 64)) f = true

/-- A request waits to be executed on this device (R329, R357). -/
def asks (s : Machine.State) (r : Machine.AcpReq) : Prop := Machine.isNext s r = true ∧ Machine.routedAway s r = false

/-- A request has been answered with a status (R329): the reply is among those its session keeps, and it waits no longer. -/
def repliedWith (t : Machine.State) (r : Machine.AcpReq) (status : Nat) : Prop :=
  ∃ y m, Machine.sessionOf t r.sess = some y ∧ (r.seq, m) ∈ y.replies ∧ r ∉ y.executing ∧
    m.kind = 1 ∧ m.status = status ∧ m.typ = r.typ ∧ m.seq = r.seq ∧ m.sess = r.sess

/-- The SMI has written one outlet record of a type and status since `s`: in the ring's next slot, and nowhere else (R365, R372). -/
def recorded (s t : Machine.State) (typ status : Nat) : Prop :=
  let a := Machine.smiBase + 0x100000 + s.smi.outWr % 1024 * 256
  t.smi.outWr = (s.smi.outWr + 1) % 2 ^ 32 ∧ Machine.byteAt t (a + 2) = BitVec.ofNat 8 typ ∧
    Machine.byteAt t (a + 3) = BitVec.ofNat 8 status ∧ ∀ p, p < a ∨ a + 256 ≤ p → Machine.byteAt t p = Machine.byteAt s p

/-- The Proof log has grown by one entry of a kind, which carries the event counter as it is now (R375, R377). -/
def logged (s t : Machine.State) (kind : Nat) : Prop :=
  ∃ e : Machine.LogEntry, t.smi.log = Machine.logVoided s ++ [e] ∧ e.kind = kind ∧ e.event = t.smi.event ∧ e.torn = false

/-- Memory, registers and flags in canonical form: keys rise strictly and no entry equals what an unlisted key reads as. -/
def canonical (s : Machine.State) : Prop :=
  Machine.Memory.wf s.mem = true ∧ Machine.twf Machine.keyReset s.regs = true ∧ Machine.twf (fun _ => (0 : Word)) s.flags = true

end Sys2Proof
end

