-- ==== Sys2Proof/Certificates/Slice0/Obligations.lean ====
section
/-!
DEFINITION. Sys2Proof/Certificates/Slice0/Obligations.lean: the statements for the provers.

Every statement about a command concludes that `exec` answers a next state, and says what that state holds. A frame is written
`t = { s with f := t.f }`: every component of the state but `f` is as before; further clauses say what of `f` is unchanged.
-/
open Sys2Proof Sys2Proof.Machine

/-- A step takes the command at the front of the queue. -/
def Obligations.StepRunsFrontCommand : Prop :=
  ∀ (s : State) (c : Instr) (rest : List Instr), s.pending = c :: rest → step s = exec c { s with pending := rest }

/-- REGISTER_WRITE and COUNTER_CLEAR_WRITE (R13): a register word that is there and that the source may write. -/
def Obligations.RegisterWriteByAccessType : Prop :=
  (∀ (s : State) (src : Src) (addr : Nat) (value : Word) (r : RegSpec),
    meets s src addr = .here → addr % 4 = 0 → regSpec (locate addr) = some r → r.table = false →
    writeRight s src (locate addr) = .yes → badValue (locate addr) value = false →
    ∃ t, exec (.registerWrite src addr value) s = .next t ∧
      (∀ i, i < 32 → (word t (regKey s addr)).getLsbD i =
        if r.w1c.testBit i && value.getLsbD i then false
        else if r.rw.testBit i && !(ownRowBits (locate addr)).testBit i && !(apgilBits src (locate addr)).testBit i then
          value.getLsbD i
        else (word s (regKey s addr)).getLsbD i) ∧
      (∀ k, k ≠ regKey s addr → (∀ p, locate addr = .block (.intake p) 0 → k ≠ intakeBase p) → word t k = word s k) ∧
      (∀ p, locate addr = .block (.intake p) 0 → (word t (intakeBase p)).getLsbD 0 = value.getLsbD 0) ∧
      t = { s with regs := t.regs, fc := t.fc, bridge := t.bridge } ∧
      (locate addr ≠ .block .faults 8 → t.fc = s.fc) ∧
      (locate addr = .block .faults 8 → t.fc = { s.fc with rd := value.toNat }) ∧
      ((∀ off, locate addr ≠ .block .bridge off) → t.bridge = s.bridge)) ∧
  (∀ (s : State) (src : Src) (addr : Nat) (value : Word) (r : RegSpec),
    meets s src addr = .here → regSpec (locate addr) = some r → r.counter = true →
    (((∀ off, locate addr ≠ .block .bru off) ∧ writeRight s src (locate addr) = .yes) ∨
      ((∃ off, locate addr = .block .bru off) ∧ isApgil src = true)) →
    ∃ t, exec (.counterClearWrite src addr value) s = .next t ∧
      (value = 0 → word t addr = 0 ∧ (∀ k, k ≠ addr → word t k = word s k) ∧ t = { s with regs := t.regs }) ∧
      (value ≠ 0 → t = s))

/-- REGISTER_WRITE of a memory word and of a table word (R12, R88). -/
def Obligations.MemoryWordWrite : Prop :=
  (∀ (s : State) (src : Src) (addr : Nat) (value : Word),
    meets s src addr = .here → (∀ b off, locate addr ≠ .block b off) → inRegWindow (locate addr) = false →
    regSpec (locate addr) = none → inAperture addr = false → imemLocked s addr = false →
    ∃ t, exec (.registerWrite src addr value) s = .next t ∧
      (∀ i, i < 4 → byteAt t (addr + i) = BitVec.ofNat 8 (value.toNat / 256 ^ i)) ∧
      (∀ a, a < addr ∨ addr + 4 ≤ a → byteAt t a = byteAt s a) ∧
      (∀ sl, (shmOf t sl).mode = (shmOf s sl).mode ∧ (shmOf t sl).target = (shmOf s sl).target ∧
        (shmOf t sl).lines.map (fun c => c.line) = (shmOf s sl).lines.map (fun c => c.line)) ∧
      (locate addr ≠ .ddr → t.shm = s.shm) ∧
      (∀ n, tileOf t n = { tileOf s n with touched := (tileOf t n).touched } ∧
        coreOf t n = { coreOf s n with touched := (coreOf t n).touched }) ∧
      t = { s with mem := t.mem, shm := t.shm, tiles := t.tiles, cores := t.cores }) ∧
  (∀ (s : State) (src : Src) (addr : Nat) (value : Word) (r : RegSpec),
    meets s src addr = .here → addr % 4 = 0 → regSpec (locate addr) = some r → r.table = true →
    writeRight s src (locate addr) = .yes → badValue (locate addr) value = false →
    ∃ t, exec (.registerWrite src addr value) s = .next t ∧
      (∀ i, i < 4 → byteAt t (addr + i) = BitVec.ofNat 8 ((value &&& BitVec.ofNat 32 r.rw).toNat / 256 ^ i)) ∧
      (∀ a, a < addr ∨ addr + 4 ≤ a → byteAt t a = byteAt s a) ∧
      t = { s with mem := t.mem })

/-- MISALIGNED_REGISTER_ACCESS (R12), ABSENT_WINDOW_ACCESS (R4, R36), UNMAPPED_WINDOW_ACCESS (R35, R282), RESET_ENDPOINT_REQUEST (R26). -/
def Obligations.RefusedAccesses : Prop :=
  (∀ (s : State) (src : Src) (addr size : Nat) (write : Bool),
    meets s src addr = .here → inRegWindow (locate addr) = true → (addr % 4 ≠ 0 ∨ size ≠ 4) →
    exec (.misalignedRegisterAccess src addr size write) s = .next { s with
      fc := collected s 0x103 0 (srcIndex src) (srcCtx s src) addr
      bus := some { src := src, status := stOK, data := 0 } }) ∧
  (∀ (s : State) (src : Src) (addr : Nat) (write : Bool), meets s src addr = .absent →
    exec (.absentWindowAccess src addr write) s = .next { s with
      fc := collected s 0x101 0 (srcIndex src) (srcCtx s src) addr
      bus := some { src := src, status := stOK, data := 0 } }) ∧
  (∀ (s : State) (src : Src) (addr : Nat) (write : Bool), meets s src addr = .unmapped →
    exec (.unmappedWindowAccess src addr write) s = .next { s with
      fc := collected s 0x102 0 (srcIndex src) (srcCtx s src) addr
      bus := some { src := src, status := stOK, data := 0 } }) ∧
  (∀ (s : State) (src : Src) (addr : Nat) (write : Bool), meets s src addr = .bankOff →
    exec (.unmappedWindowAccess src addr write) s = .next { s with
      fc := collected s 0x106 0 (srcIndex src) (srcCtx s src) addr
      bus := some { src := src, status := stOK, data := 0 } }) ∧
  (∀ (s : State) (src : Src) (addr : Nat) (write : Bool), meets s src addr = .reset →
    exec (.resetEndpointRequest src addr write) s = .next { s with
      fc := collected s 0x107 stRESET (srcIndex src) (srcCtx s src) addr
      bus := some { src := src, status := stRESET, data := 0 } })

/-- R27: absence (R4, R36) takes precedence over the answer of R26, for every access of every source. -/
def Obligations.AbsentBeforeReset : Prop :=
  ∀ (s : State) (src : Src) (addr : Nat) (write : Bool), locate addr ≠ .nowhere → (locate addr = .ddr → addr < s.ddrBytes) →
    (locAbsent s src (locate addr) = true →
      meets s src addr = .absent ∧ exec (.resetEndpointRequest src addr write) s = .next s) ∧
    (locAbsent s src (locate addr) = false → ∀ d, locDomain addr (locate addr) = some d → heldInReset s d = true →
      meets s src addr = .reset ∧ exec (.absentWindowAccess src addr write) s = .next s)

/-- PAIR_LOW_WORD_READ and PAIR_HIGH_WORD_READ (R467). -/
def Obligations.RegisterPairLatch : Prop :=
  (∀ (s : State) (src : Src) (addr v : Nat), meets s src addr = .here → pairValue s addr = some v →
    ∃ t, exec (.pairLowWordRead src addr) s = .next t ∧
      t = { s with latches := t.latches, bus := some { src := src, status := stOK, data := BitVec.ofNat 32 v } } ∧
      (∀ w, (src, addr, w) ∈ t.latches ↔ w = BitVec.ofNat 32 (v / 2 ^ 32)) ∧
      (∀ q a w, (q ≠ src ∨ a ≠ addr) → ((q, a, w) ∈ t.latches ↔ (q, a, w) ∈ s.latches))) ∧
  (∀ (s : State) (src : Src) (addr v : Nat) (w : Word), 4 ≤ addr → meets s src addr = .here →
    pairValue s (addr - 4) = some v → (∀ w', (src, addr - 4, w') ∈ s.latches ↔ w' = w) →
    exec (.pairHighWordRead src addr) s = .next { s with bus := some { src := src, status := stOK, data := w } }) ∧
  (∀ (s : State) (src : Src) (addr v : Nat), 4 ≤ addr → meets s src addr = .here →
    pairValue s (addr - 4) = some v → (∀ w', (src, addr - 4, w') ∉ s.latches) →
    exec (.pairHighWordRead src addr) s = .next { s with bus := some { src := src, status := stOK, data := 0 } })

/-- SLOW and SLOW_CLEAR (R20, R203): an island is flagged, with the event; a slow tile of a running Stroke gets the lowest free spare, whose
memories are asked for, and works on. -/
def Obligations.SlowIslands : Prop :=
  (∀ (s : State) (d : Domain), d ∉ s.slow →
    (∀ n, d = .tile n → stringOf s n = none ∧ (jobOfTile s n).bind (jobOf s) = none) →
    ∃ detail, exec (.slow d) s = .next { s with
      slow := s.slow ++ [d], fc := collected s 0x306 0 (domainIndex d) none detail, free := s.free + 1 }) ∧
  (∀ (s : State) (n sn i k : Nat) (x : Stream) (g : Strg), .tile n ∉ s.slow → s.moves.any (fun m => m.1 = n) = false →
    s.leaving.any (fun e => decide (e.slow = n)) = false → stringOf s n = some (sn, x, g, i) →
    (x.phase = .running ∨ x.phase = .stopping) → g.remap = [] → g.toVariant = none → x.replan = none → spareFor s = some k →
    ∃ t detail, exec (.slow (.tile n)) s = .next t ∧ t.slow = s.slow ++ [.tile n] ∧ t.moves = s.moves ++ [(n, k)] ∧
      t.fc = collected s 0x306 0 n none detail ∧
      (∀ g ∈ tileGranules k, (granOf t g).st = .owned ∨ (granOf t g).grantWait = some x.ctx) ∧
      (∀ g, g ∉ tileGranules k → granOf t g = granOf s g) ∧
      (∀ p, p ∉ tileParts [k] → partOf t p = partOf s p ∧ word t (powerBase + 4 * p) = word s (powerBase + 4 * p)) ∧
      t = { s with free := t.free, regs := t.regs, slow := t.slow, moves := t.moves, granules := t.granules,
                   fc := t.fc, power := t.power }) ∧
  (∀ (s : State) (d : Domain), d ∈ s.slow → exec (.slow d) s = .next s) ∧
  (∀ (s : State) (d : Domain), exec (.slowClear d) s = .next { s with slow := s.slow.filter (fun x => x ≠ d) })

/-- SEGMENT_MOVE_SWITCH (R3, R203, R207). A tile of a Stroke's string: once the spare is loaded and ready, the spare takes the segment and
runs, and the slow tile stays bound until it has passed on the stripes it holds; one that holds none is unbound at once and set aside for
its test. A tile of a job hands its memories, registers and place to the spare between two records (the model's choice, log 70). A spare that
is not ready is asked for; a tile that no move names is left as it is. -/
def Obligations.SegmentMoveSwitch : Prop :=
  (∀ (s : State) (tile k sn i : Nat) (x : Stream) (g : Strg) (v : Variant) (seg : Segment),
    s.moves.find? (fun m => m.1 = tile) = some (tile, k) → k ≠ tile → stringOf s tile = some (sn, x, g, i) →
    stringVariant s x g = some v → (segsOf s x g)[i]? = some seg → seg.ring = 0 → tileReady s k = true →
    granted s x.ctx (tileGranules k) = true → (i = 0 ∨ (tileOf s (g.tiles.getD (i - 1) 0)).st ≠ .running) →
    ∃ t detail, exec (.segmentMoveSwitch tile) s = .next t ∧ (∀ m ∈ t.moves, m.1 ≠ tile) ∧
      (tileOf t k).st = .running ∧ k ∈ t.retire.inService ∧ tile ∉ t.retire.inService ∧
      word t (gtReg k 0x10) = BitVec.ofNat 32 (x.ctx % 64 + dXlate x % 256 * 256 + seg.logical % 128 * 65536) ∧
      t.fc = collected s 0x307 0 tile (some x.ctx) detail ∧
      t.mem = (placeSeg s x g k seg).mem ∧
      (∀ f, f ≠ feedFlag v g.index i % 65536 → f ≠ creditFlag v g.index i % 65536 → flagOf t f = flagOf s f) ∧
      ((if i = 0 then g.inFlight.length else g.passed.getD (i - 1) 0) - g.passed.getD i 0 = 0 →
        t.leaving = s.leaving.filter (fun e => e.slow ≠ tile) ∧ (tileOf t tile).st = .done ∧ tileCtx t tile = none ∧
        tile ∈ t.retire.untested) ∧
      (∀ left, left = (if i = 0 then g.inFlight.length else g.passed.getD (i - 1) 0) - g.passed.getD i 0 → left ≠ 0 →
        s.waits.any (fun w => decide (w.who = tile) && decide (w.flag = feedFlag v g.index i)) = false →
        t.leaving = s.leaving ++ [{ slow := tile, spare := k, left := left, wait := (flagOf s (feedFlag v g.index i)).toNat }] ∧
        word t (gtReg tile 0x10) = word s (gtReg tile 0x10)) ∧
      t = { s with free := t.free, regs := t.regs, mem := t.mem, moves := t.moves, leaving := t.leaving, streams := t.streams,
                   tiles := t.tiles, cores := t.cores, chans := t.chans, bru := t.bru, flags := t.flags, waits := t.waits,
                   queues := t.queues, granules := t.granules, fc := t.fc, host := t.host, retire := t.retire }) ∧
  (∀ (s : State) (tile k j : Nat) (y : Job), s.moves.find? (fun m => m.1 = tile) = some (tile, k) → k ≠ tile →
    stringOf s tile = none → jobOfTile s tile = some j → jobOf s j = some y → tileReady s k = true →
    granted s y.ctx (tileGranules k) = true → tileStill s tile = true →
    ∃ t detail, exec (.segmentMoveSwitch tile) s = .next t ∧ (∀ m ∈ t.moves, m.1 ≠ tile) ∧
      tileOf t k = { tileOf s tile with touched := [] } ∧ tileOf t tile = {} ∧ (∀ n, n ≠ k → n ≠ tile → tileOf t n = tileOf s n) ∧
      (∀ i, i < 1024 → word t (gtReg k (4 * i)) = word s (gtReg tile (4 * i))) ∧
      (∀ i, i < 0x390000 → byteAt t (tileBase k + i) = byteAt s (tileBase tile + i)) ∧
      (∀ a, a < tileBase k ∨ tileBase k + 0x390000 ≤ a → byteAt t a = byteAt s a) ∧
      tileCtx t tile = none ∧ tile ∈ t.retire.untested ∧ k ∈ t.retire.inService ∧
      t.fc = collected s 0x307 0 tile (some y.ctx) detail ∧
      t = { s with free := t.free, regs := t.regs, mem := t.mem, moves := t.moves, streams := t.streams, tiles := t.tiles,
                   waits := t.waits, granules := t.granules, fc := t.fc, host := t.host, retire := t.retire }) ∧
  (∀ (s : State) (tile k sn i : Nat) (x : Stream) (g : Strg) (v : Variant) (seg : Segment),
    s.moves.find? (fun m => m.1 = tile) = some (tile, k) → stringOf s tile = some (sn, x, g, i) →
    stringVariant s x g = some v → (segsOf s x g)[i]? = some seg →
    (tileReady s k && granted s x.ctx (tileGranules k)) = false →
    ∃ t, exec (.segmentMoveSwitch tile) s = .next t ∧
      (∀ q ∈ tileGranules k, (granOf t q).st = .owned ∨ (granOf t q).grantWait = some x.ctx) ∧
      t = { s with granules := t.granules }) ∧
  (∀ (s : State) (tile : Nat), s.moves.find? (fun m => m.1 = tile) = none → exec (.segmentMoveSwitch tile) s = .next s)

/-- DOMAIN_RESET and DOMAIN_RESET_DONE (R30, R31, R208, R287). Whether the self-test of a tile or core passes is a free value (log 1); that
the SLOW flag goes with the reset is the model's choice (log 66). -/
def Obligations.DomainResets : Prop :=
  (∀ (s : State) (d : Domain), resettable d = true → d ∉ s.resetting → partOn s (partitionOf d) = true →
    ∃ t, exec (.domainReset d) s = .next t ∧ d ∈ t.resetting ∧ heldInReset t d = true ∧
      ((∀ k, d ≠ .ddr k) → ∀ g ∈ islandGranules d, (granOf t g).st ≠ .owned) ∧
      (∀ n, d = .core n → (coreOf t n).st = .resetting ∧ coreCtx t n = none) ∧
      (∀ k, d = .ddr k → (ddrOf t k).selfRefresh = true ∧
        ∀ sl ∈ ctlSlices k, ∀ c ∈ (shmOf t sl).lines, c.dirty = false) ∧
      ((∀ k, d ≠ .plate k) → t.clk = s.clk ∧ t.bus = s.bus ∧ t.flags = s.flags ∧ t.updates = s.updates ∧ t.queues = s.queues) ∧
      ((∀ k, d ≠ .plate k) → (∀ k, d ≠ .ddr k) → t.shm = s.shm ∧ t.ddr = s.ddr ∧ t.poison = s.poison) ∧
      t = { s with free := t.free, regs := t.regs, mem := t.mem, clk := t.clk, bus := t.bus, resetting := t.resetting,
                   moves := t.moves, leaving := t.leaving, banks := t.banks, plates := t.plates, colours := t.colours,
                   streams := t.streams, tiles := t.tiles, cores := t.cores, chans := t.chans, bru := t.bru, flags := t.flags,
                   waits := t.waits, updates := t.updates, queues := t.queues, granules := t.granules, shm := t.shm,
                   ddr := t.ddr, poison := t.poison, fc := t.fc, host := t.host, sent := t.sent, bridge := t.bridge,
                   retire := t.retire }) ∧
  (∀ (s : State) (d : Domain), resettable d = false → exec (.domainReset d) s = .next s) ∧
  (∀ (s : State) (k : Nat), clusterTags s k ≠ 0 → exec (.domainResetDone (.dma k)) s = .next s) ∧
  (∀ (s : State) (d : Domain), d ∈ s.resetting → resetReady s d = true →
    ∃ t, exec (.domainResetDone d) s = .next t ∧ d ∉ t.resetting ∧ d ∉ t.slow ∧
      (∀ n, d = .tile n → tileOf t n = {} ∧ ∀ off, off < 0x10000 → word t (gtReg n off) = keyReset (gtReg n off)) ∧
      (∀ n, d = .core n → coreOf t n = {} ∧ ∀ off, off < 0x10000 → word t (ecReg n off) = keyReset (ecReg n off)) ∧
      (∀ k, d = .dma k → ∀ i, i < 32 → chanOf t (k * 32 + i) = {}) ∧
      (∀ n, d = .tile n → tget (false, 0) t.retire.tiles n = tget (false, 0) s.retire.tiles n ∨
        tget (false, 0) t.retire.tiles n = (true, (tget (false, 0) s.retire.tiles n).2 + 1)) ∧
      ((∀ n, d ≠ .tile n) → (∀ n, d ≠ .core n) → t.free = s.free ∧ t.fc = s.fc ∧ t.flash = s.flash ∧ t.retire = s.retire) ∧
      ((∀ k, d ≠ .ddr k) → t.ddr = s.ddr) ∧ ((∀ k, d ≠ .appCluster k) → t.boot = s.boot) ∧
      t = { s with free := t.free, regs := t.regs, mem := t.mem, latches := t.latches, slow := t.slow,
                   resetting := t.resetting, ports := t.ports, tiles := t.tiles, cores := t.cores,
                   chans := t.chans, ddr := t.ddr, fc := t.fc, host := t.host, sent := t.sent, bridge := t.bridge,
                   boot := t.boot, retire := t.retire, flash := t.flash })

/-- RESET_N_ASSERT, SMI_RESET_N_EVENT, SMI_WATCHDOG_FIRE (R31, R299, R360, R364). -/
def Obligations.ResetLeavesSmi : Prop :=
  (∀ (s : State), ∃ t, exec .resetNAssert s = .next t ∧
      (∀ a, byteAt t a = if smiBase ≤ a ∧ a < smiBase + 0x300000 then byteAt s a else 0) ∧
      (∀ k, word t k = if smiBase ≤ k ∧ k < smiBase + 0x300000 then word s k else keyReset k) ∧
      (∀ f, flagOf t f = 0) ∧ (∀ n, tileOf t n = {} ∧ coreOf t n = {} ∧ chanOf t n = {} ∧ streamOf t n = none) ∧
      (∀ p, partOf t p = {}) ∧ t.smi = s.smi ∧ t.fuses = s.fuses ∧ t.pending = s.pending ∧
      t.pins = { s.pins with resetN := false, avs := 750 } ∧ t.boot.st = .reset ∧ t.clk = {} ∧ t.fc = {}) ∧
  (∀ (s : State), ∃ t, exec (.smiResetNEvent true) s = .next t ∧
      t.smi = { s.smi with st := if s.smi.vdd then .boot else .off, inReset := true, legal := false, committed := 0,
                           queue := [], work := none, outWr := 0, staged := [], fwPending := none, refusals := 0,
                           refusedAt := none } ∧
      t.pins = { s.pins with smiResetN := false } ∧
      (∀ k, k ≠ smReg 0xC → word t k = word s k) ∧
      t = { s with regs := t.regs, mem := t.mem, host := t.host, sent := t.sent, smi := t.smi,
                   flash := t.flash, pins := t.pins }) ∧
  (∀ (s : State), exec (.smiResetNEvent false) s =
      .next { s with smi := { s.smi with inReset := false }, pins := { s.pins with smiResetN := true } }) ∧
  (∀ (s : State), s.smi.inReset = false → s.smi.vdd = true → ∃ t, exec .smiWatchdogFire s = .next t ∧
      t.smi = { s.smi with st := .boot, legal := false, committed := 0, queue := [], work := none, outWr := 0, staged := [],
                           fwPending := none, refusals := 0, refusedAt := none } ∧
      (∀ k, k ≠ smReg 0xC → word t k = word s k) ∧
      t = { s with regs := t.regs, mem := t.mem, host := t.host, sent := t.sent, smi := t.smi,
                   flash := t.flash })

/-- CSI_FRAME_START (R45, R46, R49, R50): the frame takes the next sequence number, of 32 bits, or that of the oldest trigger; a frame still
open is closed first, by the frame end of the same event tick where one is queued, as missing its end otherwise. That a start without an
outstanding trigger takes the next number, marked late, is the model's choice (log 68). -/
def Obligations.FrameStart : Prop :=
  (∀ (s : State) (port vc no k : Nat) (ecc : HdrEcc), portOpen s port = true → ecc ≠ .uncorrectable →
    armedBanks s port ((vcStreams s port vc).filter (fun n => firstVc s port n = vc)) = [k] →
    (bankOf s port k).frame = none → (bitOf (inWord s port k 0) 1 = true → (bankOf s port k).trigs = []) →
    ∃ t f, exec (.csiFrameStart port vc no ecc) s = .next t ∧
      bankOf t port k = { bankOf s port k with
        frame := some f, first := false, nextSeq := ((bankOf s port k).nextSeq + 1) % 2 ^ 32, lastSeq := (bankOf s port k).nextSeq,
        lastStart := stamp s port } ∧
      f.seq = (bankOf s port k).nextSeq ∧ f.csiNo = no % 65536 ∧ f.start = stamp s port ∧
      f.flags = eccFlag ecc ||| (if bitOf (inWord s port k 0) 1 = true ∨ ((bankOf s port k).first = false ∧
        outsideWindow s port k (stamp s port) ((bankOf s port k).lastStart + (inWord s port k 0x1C).toNat) = true) then flLATE else 0) ∧
      f.placed = [] ∧ f.ended = [] ∧
      (∀ p' k', p' * 16 + k' ≠ port * 16 + k → bankOf t p' k' = bankOf s p' k') ∧
      (∀ x, streamOf s (bankStream s port k) = some x →
        ∃ y, streamOf t (bankStream s port k) = some y ∧ y.framesBegun = x.framesBegun + 1) ∧
      t = { s with regs := t.regs, banks := t.banks, endsTaken := t.endsTaken, plPend := t.plPend, plLatch := t.plLatch,
                   streams := t.streams }) ∧
  (∀ (s : State) (port vc no k tt q : Nat) (rest : List (Nat × Nat)) (ecc : HdrEcc), portOpen s port = true → ecc ≠ .uncorrectable →
    armedBanks s port ((vcStreams s port vc).filter (fun n => firstVc s port n = vc)) = [k] →
    (bankOf s port k).frame = none → bitOf (inWord s port k 0) 1 = true → (bankOf s port k).trigs = (tt, q) :: rest →
    ∃ t f, exec (.csiFrameStart port vc no ecc) s = .next t ∧
      bankOf t port k = { bankOf s port k with
        frame := some f, first := false, lastSeq := q, lastStart := stamp s port, trigs := rest } ∧
      f.seq = q ∧ f.csiNo = no % 65536 ∧ f.start = stamp s port ∧
      f.flags = eccFlag ecc ||| (if outsideWindow s port k (stamp s port) (tt + (inWord s port k 0x1C).toNat) then flLATE else 0) ∧
      t = { s with regs := t.regs, banks := t.banks, endsTaken := t.endsTaken, plPend := t.plPend, plLatch := t.plLatch,
                   streams := t.streams }) ∧
  (∀ (s : State) (port vc no k : Nat) (f0 : InFrame) (ecc : HdrEcc), portOpen s port = true → ecc ≠ .uncorrectable →
    armedBanks s port ((vcStreams s port vc).filter (fun n => firstVc s port n = vc)) = [k] →
    (bankOf s port k).frame = some f0 → bitOf (inWord s port k 0) 1 = false → streamVcs s port (bankStream s port k) = [vc] →
    portResetDue s port = false →
    ∃ t f, exec (.csiFrameStart port vc no ecc) s = .next t ∧ (bankOf t port k).frame = some f ∧ f.seq = (bankOf s port k).nextSeq ∧
      (bankOf t port k).lines = (bankOf s port k).lines ++ padLines s port k f0 ∧
      (endsDue s port k = [] → word t (intakeBase port + 0x110) = satInc (word s (intakeBase port + 0x110))) ∧
      (∀ e, endsDue s port k = [(vc, e)] → word t (intakeBase port + 0x110) = word s (intakeBase port + 0x110) ∧
        (port, vc, k) ∈ t.endsTaken) ∧
      t = { s with regs := t.regs, banks := t.banks, endsTaken := t.endsTaken, plPend := t.plPend, plLatch := t.plLatch,
                   streams := t.streams }) ∧
  (∀ (s : State) (port vc no : Nat) (ecc : HdrEcc), portOpen s port = false → exec (.csiFrameStart port vc no ecc) s = .next s)

/-- CSI_LINE_START and CSI_LONG_PACKET (R39, R41, R42, R45, R47, R48). -/
def Obligations.LinesOfAFrame : Prop :=
  (∀ (s : State) (port vc line k : Nat) (ecc : HdrEcc) (f : InFrame), portOpen s port = true → ecc ≠ .uncorrectable →
    armedBanks s port (vcStreams s port vc) = [k] → (bankOf s port k).frame = some f → bitOf (inWord s port k 0) 2 = true →
    ∃ t g, exec (.csiLineStart port vc line ecc) s = .next t ∧
      bankOf t port k = { bankOf s port k with frame := some g } ∧ lineNoOf g vc = some (line % 65536) ∧
      (∀ v, v ≠ vc → lineNoOf g v = lineNoOf f v) ∧
      g.seq = f.seq ∧ g.placed = f.placed ∧ g.baseLine = some (f.baseLine.getD (line % 65536)) ∧
      (∀ p' k', p' * 16 + k' ≠ port * 16 + k → bankOf t p' k' = bankOf s p' k') ∧
      t = { s with banks := t.banks, streams := t.streams }) ∧
  (∀ (s : State) (pk : LongPacket) (k bits : Nat) (e : Word) (f : InFrame), portOpen s pk.port = true → pk.ecc ≠ .uncorrectable →
    pk.crcOk = true →
    (vcEntries s pk.port).find? (fun e => fld e 4 1 = pk.vc && fld e 10 5 = pk.dt) = some e → fld e 12 11 = 0 →
    armedBanks s pk.port [fld e 19 15] = [k] → dtBits pk.dt = some bits → (bankOf s pk.port k).frame = some f →
    placeRow s pk.port k f pk.vc (lineExp s pk.port k f (fld e 14 13)) = f.placed.getD (lineExp s pk.port k f (fld e 14 13)) 0 →
    f.placed.getD (lineExp s pk.port k f (fld e 14 13)) 0 < bankHeight s pk.port k →
    lmLevel s pk.port + lineBytes (bankWidth s pk.port k) bits ≤ lineMemory →
    ∃ t l, exec (.csiLongPacket pk) s = .next t ∧
      (bankOf t pk.port k).lines = (bankOf s pk.port k).lines ++ [l] ∧
      l = { bank := k, frame := f.seq, exposure := lineExp s pk.port k f (fld e 14 13),
            row := f.placed.getD (lineExp s pk.port k f (fld e 14 13)) 0, bits := bits, stamp := stamp s pk.port,
            flags := lineFlags (bankWidth s pk.port k) pk.samples.length true, padded := false,
            samples := fitLine (bankWidth s pk.port k) (inFld s pk.port k 0x14 15 0) pk.samples } ∧
      (∀ p' k', p' * 16 + k' ≠ pk.port * 16 + k → bankOf t p' k' = bankOf s p' k') ∧
      t = { s with banks := t.banks, streams := t.streams, power := t.power }) ∧
  (∀ (s : State) (pk : LongPacket), portOpen s pk.port = true → pk.ecc ≠ .uncorrectable → pk.crcOk = true →
    (vcEntries s pk.port).find? (fun e => fld e 4 1 = pk.vc && fld e 10 5 = pk.dt) = none →
    ∃ t, exec (.csiLongPacket pk) s = .next t ∧
      word t (intakeBase pk.port + 0x100) = satInc (word s (intakeBase pk.port + 0x100)) ∧
      (∀ key, key ≠ intakeBase pk.port + 0x100 → word t key = word s key) ∧ t = { s with regs := t.regs })

/-- CSI_FRAME_END, FRAME_TIMEOUT, TRIGGER_FRAME_MISSING (R46, R47, R50, R51): a frame end that took effect before a frame start of its event
tick is not processed again, and a reset of the tick takes precedence over it. -/
def Obligations.FrameCloses : Prop :=
  (∀ (s : State) (port vc k : Nat) (ecc : HdrEcc) (f : InFrame), portOpen s port = true → ecc ≠ .uncorrectable →
    armedBanks s port (vcStreams s port vc) = [k] → (bankOf s port k).frame = some f → portResetDue s port = false →
    (port, vc, k) ∉ s.endsTaken →
    ∃ t, exec (.csiFrameEnd port vc ecc) s = .next t ∧
      ((streamVcs s port (bankStream s port k)).all (fun v => decide (v ∈ vc :: f.ended)) = true →
        bankOf t port k = { bankOf s port k with frame := none, lines := (bankOf s port k).lines ++ padLines s port k f }) ∧
      ((streamVcs s port (bankStream s port k)).all (fun v => decide (v ∈ vc :: f.ended)) = false →
        bankOf t port k = { bankOf s port k with frame := some { f with ended := (vc :: f.ended).eraseDups } }) ∧
      (∀ p' k', p' * 16 + k' ≠ port * 16 + k → bankOf t p' k' = bankOf s p' k') ∧
      t = { s with regs := t.regs, banks := t.banks, streams := t.streams }) ∧
  (∀ (s : State) (port vc k : Nat) (ecc : HdrEcc), portOpen s port = true → ecc ≠ .uncorrectable →
    armedBanks s port (vcStreams s port vc) = [k] → portResetDue s port = false → (port, vc, k) ∈ s.endsTaken →
    exec (.csiFrameEnd port vc ecc) s = .next { s with endsTaken := s.endsTaken.erase (port, vc, k) }) ∧
  (∀ (s : State) (port vc : Nat) (ecc : HdrEcc), ecc ≠ .uncorrectable → portResetDue s port = true →
    exec (.csiFrameEnd port vc ecc) s = .next s) ∧
  (∀ (s : State) (port k : Nat) (f : InFrame), (bankOf s port k).frame = some f → portOpen s port = true →
    f.start + inFld s port k 0x18 23 0 * 1000 ≤ stamp s port →
    ∃ t, exec (.frameTimeout port k) s = .next t ∧
      bankOf t port k = { bankOf s port k with frame := none, lines := (bankOf s port k).lines ++ padLines s port k f } ∧
      word t (intakeBase port + 0x110) = satInc (word s (intakeBase port + 0x110)) ∧
      (∀ p' k', p' * 16 + k' ≠ port * 16 + k → bankOf t p' k' = bankOf s p' k') ∧
      t = { s with regs := t.regs, banks := t.banks, streams := t.streams }) ∧
  (∀ (s : State) (port k tt q : Nat) (rest : List (Nat × Nat)), portOpen s port = true → (bankOf s port k).armed = true →
    bitOf (inWord s port k 0) 1 = true → (bankOf s port k).frame = none → (bankOf s port k).trigs = (tt, q) :: rest →
    tt + (inWord s port k 0x1C).toNat + inFld s port k 0x20 15 0 * 1000 < stamp s port →
    ∃ t pads, exec (.triggerFrameMissing port k) s = .next t ∧
      bankOf t port k = { bankOf s port k with
        first := false, lastSeq := q, lastStart := stamp s port, frame := none,
        trigs := rest, lines := (bankOf s port k).lines ++ pads } ∧
      pads.length = bankExps s port k * bankHeight s port k ∧ (∀ l ∈ pads, l.frame = q ∧ l.padded = true) ∧
      (∀ p' k', p' * 16 + k' ≠ port * 16 + k → bankOf t p' k' = bankOf s p' k') ∧
      t = { s with regs := t.regs, banks := t.banks, plPend := t.plPend, plLatch := t.plLatch,
                   streams := t.streams })

/-- EXTERNAL_TRIGGER, TRIG_PULSE_END, PHY_LOCK_CHANGE, DESKEW_SEQUENCE (R38, R50, R61, R62). -/
def Obligations.TriggersAndPhy : Prop :=
  (∀ (s : State) (pin : Nat), pin < 16 → wfld s (intakeBase pin + 0x200) 1 0 = 3 → heldInReset s (.port pin) = false →
    ∃ t, exec (.externalTrigger pin) s = .next t ∧
      word t (intakeBase pin + 0x118) = satInc (word s (intakeBase pin + 0x118)) ∧
      (∀ key, key ≠ intakeBase pin + 0x118 → word t key = word s key) ∧
      (∀ p k, p < 16 → k < 16 → bankOf t p k =
        if bankTakes s p k && bitOf (inWord s p k 0x34) 7 && bitOf (inWord s p k 0) 1 &&
            decide (inFld s p k 0 11 8 = pin) && portOpen s p then
          { bankOf s p k with trigs := (bankOf s p k).trigs ++ [(s.clk.now, (bankOf s p k).nextSeq)],
                              nextSeq := ((bankOf s p k).nextSeq + 1) % 2 ^ 32 }
        else bankOf s p k) ∧
      t = { s with regs := t.regs, banks := t.banks }) ∧
  (∀ (s : State) (pin : Nat), ∃ t, exec (.trigPulseEnd pin) s = .next t ∧ t = { s with pulses := t.pulses } ∧
    ∀ x, x ∈ t.pulses ↔ (x ∈ s.pulses ∧ (x.1 ≠ pin ∨ s.clk.up < x.2))) ∧
  (∀ (s : State) (port : Nat) (locked : Bool), portOpen s port = true →
    ∃ t, exec (.phyLockChange port locked) s = .next t ∧ tget false t.ports port = locked ∧
      (∀ q, q ≠ port → tget false t.ports q = tget false s.ports q) ∧ t = { s with ports := t.ports }) ∧
  (∀ (s : State) (port : Nat), portOpen s port = true → wbit s (intakeBase port + 8) 4 = true →
    (∃ t, exec (.deskewSequence port false) s = .next t ∧ wbit t (intakeBase port + 4) 5 = true ∧
      (∀ i, i < 32 → i ≠ 5 → wbit t (intakeBase port + 4) i = wbit s (intakeBase port + 4) i) ∧
      (∀ key, key ≠ intakeBase port + 4 → word t key = word s key) ∧ t = { s with regs := t.regs }) ∧
    exec (.deskewSequence port true) s = .next s)

/-- SENSOR_SETTINGS_WRITE and SENSOR_WRITE_NACK (R55 to R57): the bus makes the writes of the next set that are due in its blanking, in the
mode of the sensor; a write that is not acknowledged is made again once, and then the set ends with WAIT_TIMEOUT. That the group-hold
register takes 1 and 0 is the model's choice (log 69). -/
def Obligations.SensorSettings : Prop :=
  (∀ (s : State) (bus n : Nat) (x : Stream) (rest : List (Nat × Stream)) (j : SetJob), dueStreams s bus = (n, x) :: rest →
    x.sets.find? (setDue s x) = some j →
    ∃ t y k, exec (.sensorSettingsWrite bus) s = .next t ∧ streamOf t n = some y ∧
      k = { j with expoIssued := j.expoIssued || (dueNow s x j).1, gainIssued := j.gainIssued || (dueNow s x j).2 } ∧
      y.sets = x.sets.map (fun z => if z = j then k else z) ∧
      (∀ e, e ∈ y.setsDone ↔ e ∈ x.setsDone ∨ (e = (j.target, j.ident) ∧ k.expoIssued = true ∧ k.gainIssued = true)) ∧
      y = { x with sets := y.sets, setsDone := y.setsDone } ∧
      busOf t bus = { i2c := x.profile.i2c, made := setWrites x.profile j (dueNow s x j), last := some (n, j.target, j.ident),
                      retried := false } ∧
      (∀ b, b ≠ bus → busOf t b = busOf s b) ∧ (∀ m, m ≠ n → streamOf t m = streamOf s m) ∧
      t = { s with streams := t.streams, buses := t.buses }) ∧
  (∀ (s : State) (bus n : Nat) (x : Stream) (j : SetJob), nackHit s bus = some (n, x, j) → (busOf s bus).retried = false →
    ∃ t, exec (.sensorWriteNack bus) s = .next t ∧
      busOf t bus = { busOf s bus with made := (busOf s bus).made ++ (busOf s bus).made.getLast?.toList, retried := true } ∧
      (∀ b, b ≠ bus → busOf t b = busOf s b) ∧ t = { s with buses := t.buses }) ∧
  (∀ (s : State) (bus n : Nat) (x : Stream) (j : SetJob), nackHit s bus = some (n, x, j) → (busOf s bus).retried = true →
    ∃ t y, exec (.sensorWriteNack bus) s = .next t ∧ streamOf t n = some y ∧
      y.sets = x.sets.map (fun z => if z = j then { j with status := stTIMEOUT } else z) ∧
      (∀ e, e ∈ y.setsDone ↔ e ∈ x.setsDone ∧ e ≠ (j.target, j.ident)) ∧
      y = { x with sets := y.sets, setsDone := y.setsDone } ∧
      busOf t bus = { busOf s bus with last := none, retried := false } ∧
      (∀ b, b ≠ bus → busOf t b = busOf s b) ∧ (∀ m, m ≠ n → streamOf t m = streamOf s m) ∧
      t = { s with streams := t.streams, buses := t.buses }) ∧
  (∀ (s : State) (bus : Nat), nackHit s bus = none → exec (.sensorWriteNack bus) s = .next s)

/-- PLATE_STRIPE_TAKE and PLATE_STRIPE_DONE (R43, R52, R64, R69, R70, R95, R102). `s1` is the state once the stripe's rows are written into the
Plate output ring through the stream's translation. -/
def Obligations.PlateStripes : Prop :=
  (∀ (s : State) (pipe n j d : Nat) (x : Stream) (f : FrameRec), pipe < 4 → heldInReset s (.plate pipe) = false →
    Domain.plate pipe ∉ s.retire.others → tget none s.plates pipe = none →
    minBy (fun (c : Nat × Stream × FrameRec × Nat × Nat) => c.2.2.2.2) (plateCandidates s) = some (n, x, f, j, d) →
    ∃ t y, exec (.plateStripeTake pipe) s = .next t ∧ streamOf t n = some y ∧
      tget none t.plates pipe =
        some { stream := n, frame := f.seq, stripe := j, port := dPort x, bank := x.bank, started := s.clk.now } ∧
      y.ring.map (fun r => (r.frame, r.row)) =
        x.ring.map (fun r => (r.frame, r.row)) ++ (stripeRowsOf s x j).map (fun r => (f.seq, r)) ∧
      y.ringNext = (x.ringNext + (stripeRowsOf s x j).length) % dRingRows x ∧
      (∀ g ∈ y.frames, g.seq = f.seq → g.platedNext = j + 1 ∧ g.plateStart.isSome = true) ∧
      (∀ p, p ≠ pipe → tget none t.plates p = tget none s.plates p) ∧
      (∀ m, m ≠ n → streamOf t m = streamOf s m) ∧ (∀ key, key ≠ plReg n 0x80 → word t key = word s key) ∧
      (j ≠ 0 → t.regs = s.regs) ∧
      (j = 0 → word t (plReg n 0x80) =
        BitVec.ofNat 32 (min ((word s (plReg n 0x80)).toNat + (pcmSegment s f (dPort x)).2) 0xFFFFFFFF)) ∧
      t = { s with regs := t.regs, streams := t.streams, plates := t.plates }) ∧
  (∀ (s : State) (pipe : Nat) (job : PlateJob) (x : Stream) (f : FrameRec), tget none s.plates pipe = some job →
    streamOf s job.stream = some x → frameOf x job.frame = some f → f.cancelled = false → job.stripe ∉ f.droppedStripes →
    ∃ (t : State) (y : Stream) (s1 : State) (row : Nat → List Nat × Nat), (∀ r, row r = plateRow s job.stream (bankOf s (dPort x) x.bank) f (pcmSegment s f (dPort x)).1
        (bankExps s (dPort x) x.bank) (bankWidth s (dPort x) x.bank) (bankHeight s (dPort x) x.bank) r) ∧
      s1 = ringStore (setStream { s with plates := tset none s.plates pipe none } job.stream (some y)) job.stream x
        ((stripeRowsOf s x job.stripe).filterMap (fun r => (x.ring.find? (fun q => q.frame = f.seq && q.row = r)).map (fun q =>
          (ringAddr x q.slot, ringRowBytes (row r).1)))) ∧
      exec (.plateStripeDone pipe) s = .next t ∧ streamOf t job.stream = some y ∧ tget none t.plates pipe = none ∧
      (∀ r ∈ y.ring, r.frame = f.seq → r.row ∈ stripeRowsOf s x job.stripe → r.ready = true ∧ r.missing = false) ∧
      word t (plReg job.stream 0x84) = BitVec.ofNat 32 (min ((word s1 (plReg job.stream 0x84)).toNat +
        ((stripeRowsOf s x job.stripe).map (fun r => (row r).2)).sum) 0xFFFFFFFF) ∧
      (∀ key, key ≠ plReg job.stream 0x84 → word t key = word s1 key) ∧
      (∀ p, p ≠ pipe → tget none t.plates p = tget none s.plates p) ∧
      (∀ m, m ≠ job.stream → streamOf t m = streamOf s m) ∧
      t = { s1 with regs := t.regs, banks := t.banks, power := t.power }) ∧
  (∀ (s : State) (pipe : Nat) (job : PlateJob) (x : Stream) (f : FrameRec), tget none s.plates pipe = some job →
    streamOf s job.stream = some x → frameOf x job.frame = some f → f.cancelled = false → job.stripe ∈ f.droppedStripes →
    ∃ t y s1, s1 = ringStore (setStream { s with plates := tset none s.plates pipe none } job.stream (some y)) job.stream x
        ((stripeRowsOf s x job.stripe).filterMap (fun r => (x.ring.find? (fun q => q.frame = job.frame && q.row = r)).map (fun q =>
          (ringAddr x q.slot, List.replicate (dWidth x * 2) (0 : Byte))))) ∧
      exec (.plateStripeDone pipe) s = .next t ∧ streamOf t job.stream = some y ∧ tget none t.plates pipe = none ∧
      (∀ r ∈ y.ring, r.frame = job.frame → r.row ∈ stripeRowsOf s x job.stripe → r.ready = true ∧ r.missing = true) ∧
      (∀ g ∈ y.frames, g.seq = job.frame → g.flags &&& (flDROPPED ||| flOVERRUN) = flDROPPED ||| flOVERRUN) ∧
      (∀ m, m ≠ job.stream → streamOf t m = streamOf s m) ∧ t = { s1 with banks := t.banks })

/-- STAT_RECORD_WRITE (R75, R77, R285): the ring's read count is read through the stream's translation; with a free slot the record, then the
count of records are written there, and the flag is incremented; without one the record is dropped and counted. -/
def Obligations.StatRecord : Prop :=
  (∀ (s s0 s1 s2 s3 s5 : State) (n base wr : Nat) (x : Stream) (f : FrameRec) (rd : List Byte), streamOf s n = some x →
    statFrame x = some f → heldInReset s .stat = false → base = plFld f 0x58 31 6 * 64 + plFld f 0x5C 7 0 * 2 ^ 32 →
    s0 = setStream s n (some (dropFinished (updFrame x f.seq (fun r => { r with statDone := true })))) →
    xlateRead s0 (.endpoint 0) (dXlate x) (base + 32) 4 = some (s1, rd) → s2 = setWord s1 (plReg n 0x68) (BitVec.ofNat 32 (leNat rd)) →
    wr = (word s2 (plReg n 0x64)).toNat → (wr + 2 ^ 32 - leNat rd) % 2 ^ 32 < plFld f 0x60 12 0 →
    xlateStore s2 (.endpoint 0) (dXlate x) (base + 64 + wr % plFld f 0x60 12 0 * (statRecord n f (bankExps s (dPort x) x.bank)).length)
      (statRecord n f (bankExps s (dPort x) x.bank)) = some s3 →
    xlateStore (setWord s3 (plReg n 0x64) (BitVec.ofNat 32 (wr + 1))) (.endpoint 0) (dXlate x) base (leBytes 4 (wr + 1)) = some s5 →
    exec (.statRecordWrite n) s = .next (signalFlag s5 (.stroke n) (plFld f 0x6C 15 0) true 1) ∧
    (flagNow s5 (.stroke n) (plFld f 0x6C 15 0) →
      flagOf (signalFlag s5 (.stroke n) (plFld f 0x6C 15 0) true 1) (plFld f 0x6C 15 0) = flagOf s5 (plFld f 0x6C 15 0) + 1 ∧
      (∀ g, g ≠ plFld f 0x6C 15 0 →
        flagOf (signalFlag s5 (.stroke n) (plFld f 0x6C 15 0) true 1) g = flagOf s5 g))) ∧
  (∀ (s s0 s1 : State) (n base : Nat) (x : Stream) (f : FrameRec) (rd : List Byte), streamOf s n = some x → statFrame x = some f →
    heldInReset s .stat = false → base = plFld f 0x58 31 6 * 64 + plFld f 0x5C 7 0 * 2 ^ 32 →
    s0 = setStream s n (some (dropFinished (updFrame x f.seq (fun r => { r with statDone := true })))) →
    xlateRead s0 (.endpoint 0) (dXlate x) (base + 32) 4 = some (s1, rd) →
    plFld f 0x60 12 0 ≤ ((word s (plReg n 0x64)).toNat + 2 ^ 32 - leNat rd) % 2 ^ 32 →
    ∃ t, exec (.statRecordWrite n) s = .next t ∧ word t (plReg n 0x88) = satInc (word s (plReg n 0x88)) ∧
      word t (plReg n 0x68) = BitVec.ofNat 32 (leNat rd) ∧
      (∀ key, key ≠ plReg n 0x88 → key ≠ plReg n 0x68 → word t key = word s key) ∧
      (∀ m, m ≠ n → streamOf t m = streamOf s m) ∧
      t = { s with free := t.free, regs := t.regs, bus := t.bus, latches := t.latches, streams := t.streams, fc := t.fc,
                   bridge := t.bridge }) ∧
  (∀ (s : State) (n : Nat) (x : Stream), streamOf s n = some x → statFrame x = none → exec (.statRecordWrite n) s = .next s)

/-- PL_COMMIT and CL_COMMIT (R83, R85): the shadow registers become the pending copy for the next frame or the one named; a copy committed in
the event tick of a frame start is for the following frame. -/
def Obligations.Commits : Prop :=
  (∀ (s : State) (src : Src) (n : Nat) (v : Word), n < 32 → meets s src (plReg n 4) = .here →
    (anyCarries s = false ∨ isApgil src = true) → bitOf v 0 = true →
    ∃ t, exec (.plCommit src n v) s = .next t ∧
      tget none t.plPend n = some (commitCopy (tget none s.plPend n) s.clk.up (plShadow s n) (commitNext s n) v).1 ∧
      ((commitCopy (tget none s.plPend n) s.clk.up (plShadow s n) (commitNext s n) v).2 = true → wbit t (plReg n 8) 2 = true) ∧
      (∀ key, key ≠ plReg n 8 → word t key = word s key) ∧ (∀ m, m ≠ n → tget none t.plPend m = tget none s.plPend m) ∧
      t = { s with regs := t.regs, plPend := t.plPend }) ∧
  (∀ (s : State) (src : Src) (n : Nat) (v : Word), n < 32 → meets s src (clReg n 4) = .here →
    (anyCarries s = false ∨ isApgil src = true) → bitOf v 0 = true →
    ∃ t c, exec (.clCommit src n v) s = .next t ∧ c = (commitCopy none s.clk.up (clShadow s n) (commitNext s n) v).1 ∧
      tget none t.clPend n =
        some (if !c.atFrame && startNow s n then { c with atFrame := true, target := commitNext s n } else c) ∧
      ((commitCopy none s.clk.up (clShadow s n) (commitNext s n) v).2 = true → wbit t (clReg n 8) 2 = true) ∧
      (∀ key, key ≠ clReg n 8 → word t key = word s key) ∧ (∀ m, m ≠ n → tget none t.clPend m = tget none s.clPend m) ∧
      t = { s with regs := t.regs, clPend := t.clPend }) ∧
  (∀ (s : State) (src : Src) (n : Nat) (v : Word), n < 32 → anyCarries s = true → isApgil src = false →
    (meets s src (plReg n 4) = .here → exec (.plCommit src n v) s =
      .next { s with fc := collected s 0x104 0 (srcIndex src) (srcCtx s src) (plReg n 4) }) ∧
    (meets s src (clReg n 4) = .here → exec (.clCommit src n v) s =
      .next { s with fc := collected s 0x104 0 (srcIndex src) (srcCtx s src) (clReg n 4) })) ∧
  (∀ (s : State) (src : Src) (n : Nat) (v : Word), (anyCarries s = false ∨ isApgil src = true) → bitOf v 0 = false →
    (meets s src (plReg n 4) = .here → exec (.plCommit src n v) s = .next s) ∧
    (meets s src (clReg n 4) = .here → exec (.clCommit src n v) s = .next s))

/-- COLOUR_STRIPE_TAKE, COLOUR_STRIPE_DONE, COLOUR_FRAME_END (R78, R83, R100, R101, R104, R111, R285). `s1` is the state once the lines are
written through the stream's translation. -/
def Obligations.ColourStage : Prop :=
  (∀ (s : State) (stage n : Nat) (x : Stream) (m : Bool), stage < 2 → heldInReset s (.colour stage) = false →
    tget none s.colours stage = none →
    minBy (fun (c : Nat × Stream × Bool) => stripeDeadline s c.2.1 c.2.1.head) (colourCandidates s stage) = some (n, x, m) →
    ∃ t, exec (.colourStripeTake stage) s = .next t ∧
      tget none t.colours stage = some { stream := n, stripe := x.head, frame := stripeSeq x x.head,
                                         index := x.head % stripesOf x, marker := m } ∧
      (∀ k, k ≠ stage → tget none t.colours k = tget none s.colours k) ∧
      streamOf t n = some (markerCount x (stripeSeq x x.head) m) ∧ (∀ k, k ≠ n → streamOf t k = streamOf s k) ∧
      (x.head % stripesOf x ≠ 0 → t = { s with colours := t.colours, streams := t.streams }) ∧
      (∀ key, key ≠ clReg n 8 → word t key = word s key) ∧
      (∀ k, k ≠ n → tget none t.clPend k = tget none s.clPend k ∧ tget [] t.clLatch k = tget [] s.clLatch k) ∧
      t = { s with regs := t.regs, clPend := t.clPend, clLatch := t.clLatch, colours := t.colours, streams := t.streams }) ∧
  (∀ (s s1 : State) (stage : Nat) (job : ColourJob) (x : Stream) (f : FrameRec), tget none s.colours stage = some job →
    streamOf s job.stream = some x → frameOf x job.frame = some f → f.cancelled = false →
    (writeLines s job.stream (dXlate x) (stageWrites s x f job) = (s1, none) →
      ∃ t y, exec (.colourStripeDone stage) s = .next t ∧ tget none t.colours stage = none ∧
        streamOf t job.stream = some y ∧ y.head = x.head + 1 ∧ x.head ∉ y.markers ∧
        (∀ g ∈ y.strings, ∀ p ∈ g.parked, p.stripe ≠ x.head) ∧
        (x.head % stripesOf x + 1 = stripesOf x → y.colourFrame = some (stripeSeq x x.head)) ∧
        (∀ k, k ≠ stage → tget none t.colours k = tget none s.colours k) ∧
        (∀ m, m ≠ job.stream → streamOf t m = streamOf s m) ∧
        t = { s1 with colours := t.colours, streams := t.streams, power := t.power, granules := t.granules }) ∧
    (∀ a, writeLines s job.stream (dXlate x) (stageWrites s x f job) = (s1, some a) →
      ∃ t, exec (.colourStripeDone stage) s = .next t ∧ t.mem = s.mem ∧ t.colours = s.colours ∧ t.streams = s.streams ∧
        t.fc = collected s1 0x205 stPAGE (srcIndex (.stroke job.stream)) (some x.ctx) a ∧
        (∀ key, key ≠ iommuBase + 0x20 → word t key = word s1 key) ∧
        t = { s1 with mem := s.mem, regs := t.regs, fc := t.fc })) ∧
  (∀ (s : State) (stage : Nat) (job : ColourJob) (x : Stream) (f : FrameRec), tget none s.colours stage = some job →
    streamOf s job.stream = some x → frameOf x job.frame = some f → f.cancelled = true →
    ∃ t y, exec (.colourStripeDone stage) s = .next t ∧ tget none t.colours stage = none ∧
      streamOf t job.stream = some y ∧ y.head = x.head + 1 ∧ (∀ m, m ≠ job.stream → streamOf t m = streamOf s m) ∧
      t = { s with colours := t.colours, streams := t.streams, granules := t.granules }) ∧
  (∀ (s : State) (stage n q : Nat) (x : Stream) (f : FrameRec), frameEndHit s stage = some (n, x, q) → frameOf x q = some f →
    (f.cancelled = true → exec (.colourFrameEnd stage) s = .next (setStream s n (some (updFrame { x with colourFrame := none } q
      (fun r => { r with colourEnd := some s.clk.now }))))) ∧
    (f.cancelled = false → ∃ t y, exec (.colourFrameEnd stage) s = .next t ∧ streamOf t n = some y ∧ y.colourFrame = none ∧
      (∀ g ∈ y.frames, g.seq = q → g.colourEnd = some s.clk.now) ∧
      (dDet x = true → flagNow s (.stroke n) (dDetFlag x) →
        flagOf t (dDetFlag x) = flagOf s (dDetFlag x) + 1 ∧ (∀ g, g ≠ dDetFlag x → flagOf t g = flagOf s g)) ∧
      (dDet x = false → t = { s with streams := t.streams, waits := t.waits }) ∧
      (∀ m, m ≠ n → streamOf t m = streamOf s m) ∧ t = { s with clk := t.clk, streams := t.streams,
                                                                tiles := t.tiles, cores := t.cores,
                                                                chans := t.chans, bru := t.bru,
                                                                flags := t.flags, waits := t.waits,
                                                                updates := t.updates, queues := t.queues,
                                                                fc := t.fc }))

/-- STROKE_LAUNCH and FRAME_ADMIT (R93, R109, R110, R139, R288, R386, R469). `z` is the Stroke as it starts: with the replacements of failed
tiles in place. -/
def Obligations.StrokeStartsAndAdmits : Prop :=
  (∀ (s : State) (n : Nat) (x z : Stream), streamOf s n = some x → x.phase = .launching → dLaunch x ≤ s.clk.now →
    x.startReply = none → cancelDue s x.ctx = false → x.chans = [] → (∀ g ∈ liveStrings x, ∀ k ∈ g.tiles, tileLost s k = false) →
    z = launchShape s x →
    (strokeReady s z = true → planRuns s z = [] →
      ∃ t y, exec (.strokeLaunch n) s = .next t ∧ streamOf t n = some y ∧ y.phase = .running ∧ y.start = s.clk.now ∧
        bankOf t (dPort z) z.bank = { bankOf s (dPort z) z.bank with
          armed := true, first := true, nextSeq := 0, frame := none, trigs := [], lines := [] } ∧
        (∀ g ∈ liveStrings z, ∀ k ∈ g.tiles, (tileOf t k).st = .running ∧ (tileOf t k).pc = wfld t (gtReg k 8) 13 0) ∧
        (∀ m, m ≠ n → streamOf t m = streamOf s m) ∧ t = { s with regs := t.regs, mem := t.mem, banks := t.banks,
                                                                  streams := t.streams, tiles := t.tiles, cores := t.cores,
                                                                  chans := t.chans, bru := t.bru, flags := t.flags,
                                                                  waits := t.waits, queues := t.queues }) ∧
    (strokeReady s z = true → planRuns s z ≠ [] → (strokeChans s).length < (planRuns s z).length →
      exec (.strokeLaunch n) s = .next s) ∧
    (strokeReady s z = false →
      ∃ t, exec (.strokeLaunch n) s = .next t ∧
        (∀ k ∈ launchGranules z, (granOf s k).st = .owned → granOf t k = granOf s k) ∧
        (∀ k ∈ launchGranules z, (granOf s k).st ≠ .owned →
          ((granOf t k).st = .owned ∧ (granOf t k).owner = some z.ctx) ∨ (granOf t k).grantWait = some z.ctx) ∧
        (∀ k, k ∉ launchGranules z → granOf t k = granOf s k) ∧
        t = { s with regs := t.regs, power := t.power, granules := t.granules })) ∧
  (∀ (s : State) (n : Nat) (x : Stream), streamOf s n = some x →
    (x.phase ≠ .launching ∨ s.clk.now < dLaunch x ∨ x.startReply ≠ none ∨ cancelDue s x.ctx = true) →
    exec (.strokeLaunch n) s = .next s) ∧
  (∀ (s : State) (n : Nat) (x : Stream) (f : FrameRec), streamOf s n = some x → readyStripe x = some f →
    carries x = true → dReal x = false → x.nextStripe % stripesOf x = 0 → f.admitted = false →
    ((frameCost s x : Int) ≤ available s x.ctx → ∃ t, exec (.frameAdmit n) s = .next t ∧
      streamOf t n = some (updFrame x f.seq (fun r => { r with admitted := true, corrected := frameCost s x })) ∧
      (∀ m, m ≠ n → streamOf t m = streamOf s m) ∧ (f.deferredAt = none → t.tiles = s.tiles) ∧
      (∀ (since k c t0 : Nat) (l : List Nat) (g : Strg), f.deferredAt = some since → x.strings = [g] → 0 < g.credits →
        g.tiles = k :: l → (tileOf s k).stall = some (c, t0) → tileFrozen s k = false →
        (tileOf t k).cnt = cntAdd (cntAdd (tileOf s k).cnt false c ((max since (max g.creditAt t0) - t0) / 2)) false 1
          ((s.clk.up - max since (max g.creditAt t0)) / 2)) ∧
      t = { s with streams := t.streams, tiles := t.tiles }) ∧
    (available s x.ctx < (frameCost s x : Int) → f.deferredAt = none → exec (.frameAdmit n) s = .next (setStream s n
      (some (updFrame { x with deferredN := x.deferredN + 1 } f.seq (fun r => { r with deferredAt := some s.clk.up }))))) ∧
    (available s x.ctx < (frameCost s x : Int) → f.deferredAt.isSome = true → exec (.frameAdmit n) s = .next s))

/-- STRIPE_DISPATCH (R96, R97, R102, R109, R113). -/
def Obligations.StripeDispatch : Prop :=
  ∀ (s : State) (n : Nat) (x : Stream) (f : FrameRec), streamOf s n = some x → readyStripe x = some f → carries x = true →
    x.strings ≠ [] →
    (frameRuns x f = false → exec (.stripeDispatch n) s = .next s) ∧
    (frameRuns x f = true → ringMissing x f (rowsOf x x.nextStripe) = true →
      ∃ t y, exec (.stripeDispatch n) s = .next t ∧ streamOf t n = some y ∧ y.markers = x.markers ++ [x.nextStripe] ∧
        y.nextStripe = x.nextStripe + 1 ∧ y.strings = x.strings ∧
        (∀ g ∈ y.frames, g.seq = f.seq → g.flags &&& (flDROPPED ||| flOVERRUN) = flDROPPED ||| flOVERRUN) ∧
        (∀ m, m ≠ n → streamOf t m = streamOf s m) ∧ t = { s with streams := t.streams }) ∧
    (frameRuns x f = true → ringMissing x f (rowsOf x x.nextStripe) = false → drainHolds x = false → ∀ g v, takingString x = some g →
      stringVariant s x g = some v →
      ∃ t y, exec (.stripeDispatch n) s = .next t ∧ streamOf t n = some y ∧ y.nextStripe = x.nextStripe + 1 ∧
        y.strings = x.strings.map (fun h => if h.index = g.index then
          { h with inFlight := h.inFlight ++ [x.nextStripe], credits := h.credits - 1 } else h) ∧
        (flagNow s (.stroke n) (inFlagOf v g.index) →
          flagOf t (inFlagOf v g.index) = flagOf s (inFlagOf v g.index) + 1 ∧
          (∀ k, k ≠ inFlagOf v g.index → flagOf t k = flagOf s k)) ∧
        (∀ m, m ≠ n → streamOf t m = streamOf s m) ∧ t = { s with clk := t.clk, streams := t.streams,
                                                                  tiles := t.tiles, cores := t.cores,
                                                                  chans := t.chans, bru := t.bru,
                                                                  flags := t.flags, waits := t.waits,
                                                                  updates := t.updates, queues := t.queues,
                                                                  fc := t.fc }) ∧
    (frameRuns x f = true → ringMissing x f (rowsOf x x.nextStripe) = false → (drainHolds x = true ∨ takingString x = none) →
      exec (.stripeDispatch n) s = .next s)

/-- RESULT_RECORD_WRITE (R104 to R108, R112, R285): the ring's read count is read (`s0`), the record (`s1`) and then the count (`s2`) are written
through the stream's translation; without a free slot the record is counted as lost. -/
def Obligations.ResultRecord : Prop :=
  ∀ (s s0 : State) (n : Nat) (x : Stream) (f : FrameRec) (rd : List Byte), streamOf s n = some x →
    x.frames.find? (fun f => !f.recorded) = some f → carries x = true → recordDue s n x f = true →
    xlateRead s (.stroke n) (dXlate x) (dResult x + 32) 4 = some (s0, rd) →
    (∀ s1 s2, (x.written + 2 ^ 32 - leNat rd) % 2 ^ 32 < dResultN x →
      xlateStore s0 (.stroke n) (dXlate x) (dResult x + 64 + x.written % dResultN x * 128)
        (frameRecord n x (if dReal x && decide (0 < lateness s x f) then orFlags flDEADLINE f else f)
          (recordStatus x f (lateness s x f)) (lateness s x f) s.clk.now) = some s1 →
      xlateStore s1 (.stroke n) (dXlate x) (dResult x) (leBytes 4 (x.written + 1)) = some s2 →
      ∃ t y, exec (.resultRecordWrite n) s = .next t ∧ streamOf t n = some y ∧
        y.written = x.written + 1 ∧ y.lost = x.lost ∧ y.lastRec = f.seq ∧
        y.lastSeq = (if f.cancelled then x.lastSeq else f.seq) ∧
        y.completed = (if f.cancelled then x.completed else x.completed + 1) ∧
        y.late = (if dReal x && decide (0 < lateness s x f) then x.late + 1 else x.late) ∧
        (∀ g ∈ y.frames, g.seq = f.seq → g.recorded = true) ∧
        (flagNow s2 (.stroke n) (dResultFlag x) → flagOf t (dResultFlag x) = flagOf s2 (dResultFlag x) + 1 ∧
          (∀ k, k ≠ dResultFlag x → flagOf t k = flagOf s2 k)) ∧
        (∀ m, m ≠ n → streamOf t m = streamOf s m) ∧ t = { s2 with clk := t.clk, streams := t.streams, tiles := t.tiles,
                                                                   cores := t.cores, chans := t.chans, bru := t.bru,
                                                                   flags := t.flags, waits := t.waits,
                                                                   updates := t.updates, queues := t.queues, fc := t.fc,
                                                                   host := t.host, sent := t.sent }) ∧
    (dResultN x ≤ (x.written + 2 ^ 32 - leNat rd) % 2 ^ 32 →
      ∃ t y, exec (.resultRecordWrite n) s = .next t ∧ streamOf t n = some y ∧ y.written = x.written ∧ y.lost = x.lost + 1 ∧
        y.lastRec = x.lastRec ∧ (∀ g ∈ y.frames, g.seq = f.seq → g.recorded = true) ∧
        (∀ m, m ≠ n → streamOf t m = streamOf s m) ∧
        t = { s0 with streams := t.streams, waits := t.waits, host := t.host, sent := t.sent })

/-- STROKE_BARRIER_COMPLETE (R111, R137, R207, R290). -/
def Obligations.StrokeBarrier : Prop :=
  (∀ (s : State) (n : Nat) (x : Stream), streamOf s n = some x → x.phase = .stopping →
    x.frames.all (fun f => f.recorded) = true →
    x.strings.all (fun g => decide (g.inFlight = []) && decide (g.remap = []) && g.toVariant.isNone) = true → x.replan = none →
    (bankOf s (dPort x) x.bank).frame = none → (writeRecord s n (endRecord n x stOK s.clk.now)).2 = true →
    ∃ t y, exec (.strokeBarrierComplete n) s = .next t ∧ streamOf t n = some y ∧ y.phase = .ended ∧ y.ring = [] ∧ y.stopReq = [] ∧
      (∀ k ∈ strokeTiles x, ((tileOf s k).st = .idle ∨ (tileOf s k).st = .running ∨ (tileOf s k).st = .waiting ∨
        (tileOf s k).st = .done) → (tileOf t k).st = .idle) ∧
      (∀ g ∈ strokeGranules x, (granOf t g).st ≠ .owned ∨ (granOf t g).owner = none) ∧
      (∀ m, m ≠ n → streamOf t m = streamOf s m) ∧ t = { s with free := t.free, regs := t.regs, mem := t.mem, clk := t.clk,
                                                                bus := t.bus, latches := t.latches, moves := t.moves,
                                                                leaving := t.leaving, streams := t.streams, tiles := t.tiles,
                                                                cores := t.cores, chans := t.chans,
                                                                bru := t.bru, flags := t.flags,
                                                                waits := t.waits, updates := t.updates,
                                                                queues := t.queues, granules := t.granules,
                                                                shm := t.shm, poison := t.poison,
                                                                fc := t.fc, host := t.host, sent := t.sent,
                                                                bridge := t.bridge }) ∧
  (∀ (s : State) (n : Nat) (x : Stream), streamOf s n = some x →
    (x.phase ≠ .stopping ∨ x.frames.all (fun f => f.recorded) = false ∨ x.strings.any (fun g => decide (g.inFlight ≠ [])) = true ∨
      (bankOf s (dPort x) x.bank).frame ≠ none) →
    exec (.strokeBarrierComplete n) s = .next s)

/-- LAYER (R98, R110, R118, R120, R124, R126 to R136). `L` is the record with the steps of the active loops added, on the rows of the tile's
stripe; a stall before it is counted when it runs. -/
def Obligations.TileLayer : Prop :=
  ∀ (s : State) (n : Nat) (ecc : EccResult) (ws : List Word), tileRuns s n = true → tileRec s n = some ws →
    fld (ws.getD 0 0) 3 0 = 1 →
    (crcWords ((ws.drop 1).take 31) ≠ lw (ws.drop 1) 31 →
      ∃ t detail, exec (.layer n ecc) s = .next t ∧ (tileOf t n).st = .stopping ∧ (tileOf t n).code = stCHECK ∧
        (tileOf t n).pc = (tileOf s n).pc ∧ t.fc = collected s 0x301 stCHECK n (tileCtx s n) detail ∧
        (∀ m, m ≠ n → tileOf t m = tileOf s m) ∧ t = { s with tiles := t.tiles, waits := t.waits, fc := t.fc, free := t.free }) ∧
    (crcWords ((ws.drop 1).take 31) = lw (ws.drop 1) 31 → ∀ L ring,
      stripeLayer s n (steppedLayer (tileOf s n) (ws.drop 1)) = (L, ring) →
      (lEmpty L = true → ecc = .clean →
        ∃ t, exec (.layer n ecc) s = .next t ∧ (tileOf t n).layer = L ∧
          (tileOf t n).pc = (tileOf s n).pc + 33 ∧ (tileOf t n).ran = (tileOf s n).ran + 1 ∧
          (tileOf t n).ranFull = (tileOf s n).ranFull ∧ (tileOf t n).st = .running ∧
          (∀ m, m ≠ n → tileOf t m = tileOf s m) ∧ t = { s with tiles := t.tiles }) ∧
      (∀ c, lEmpty L = false → layerCause s n L = some c →
        ∃ t, exec (.layer n ecc) s = .next t ∧ (tileOf t n).stall.map (fun p => p.1) = some c ∧ (tileOf t n).pc = (tileOf s n).pc ∧
          (tileOf t n).st = .running ∧ (∀ m, m ≠ n → tileOf t m = tileOf s m) ∧ t = { s with tiles := t.tiles }) ∧
      (lEmpty L = false → layerCause s n L = none → ecc ≠ .uncorrectable →
        ∃ t, exec (.layer n ecc) s = .next t ∧ (tileOf t n).layer = L ∧
          (tileOf t n).pc = (tileOf s n).pc + 33 ∧ (tileOf t n).ran = (tileOf s n).ran + 1 ∧
          (tileOf t n).ranFull = (tileOf s n).ranFull + 1 ∧ (tileOf t n).stall = none ∧
          (ecc = .clean → t.mem = (layerOut (stallEnd s n) n L).1.mem) ∧
          (ecc = .clean → (layerOut (stallEnd s n) n L).2 = false → (tileOf t n).st = .running) ∧
          (ecc = .clean → (layerOut (stallEnd s n) n L).2 = true → (tileOf t n).st = .stopping ∧ (tileOf t n).code = stRESET ∧
            wbit t (gtReg n 4) 20 = true) ∧
          (ecc = .clean → lb L 0 27 = false → lArray L = false → ∀ a,
            (∀ e ∈ (layerElems (stallEnd s n) n L).2, a < amBase n + e.addr ∨ amBase n + e.addr + (e.bits + 7) / 8 ≤ a) →
            byteAt t a = byteAt s a) ∧
          (ecc = .corrected → wbit t (gtReg n 4) 18 = true) ∧
          (∀ m, m ≠ n → tileOf t m = tileOf s m) ∧ t = { s with free := t.free, regs := t.regs, mem := t.mem,
                                                                bus := t.bus, tiles := t.tiles,
                                                                waits := t.waits, fc := t.fc }) ∧
      ((lEmpty L = true ∨ layerCause s n L = none) → ecc = .uncorrectable →
        ∃ t, exec (.layer n ecc) s = .next t ∧ (tileOf t n).st = .stopping ∧ (tileOf t n).code = stCHECK ∧
          wbit t (gtReg n 4) 19 = true ∧ (∀ m, m ≠ n → tileOf t m = tileOf s m) ∧
          (∀ key, key ≠ gtReg n 4 → word t key = word s key) ∧ t = { s with free := t.free, regs := t.regs, tiles := t.tiles,
                                                                            waits := t.waits, fc := t.fc }))

/-- LOOP, ENDLOOP, ROTATE, HALT (R110, R121, R124, R125): a stall before the record is counted when it runs. -/
def Obligations.TileControlRecords : Prop :=
  (∀ (s : State) (n : Nat) (ecc : EccResult), tileRuns s n = true → tileRec s n = none →
    ∃ t detail, exec (.loop n) s = .next t ∧ exec (.endloop n) s = .next t ∧ exec (.rotate n) s = .next t ∧
      exec (.halt n) s = .next t ∧ exec (.wait n) s = .next t ∧ exec (.signal n) s = .next t ∧ exec (.layer n ecc) s = .next t ∧
      (tileOf t n).st = .stopping ∧ (tileOf t n).code = stCHECK ∧ t.fc = collected s 0x301 stCHECK n (tileCtx s n) detail ∧
      (∀ m, m ≠ n → tileOf t m = tileOf s m) ∧ t = { s with tiles := t.tiles, waits := t.waits, fc := t.fc, free := t.free }) ∧
  (∀ (s : State) (n : Nat) (ws : List Word), tileRuns s n = true → tileRec s n = some ws →
    (fld (ws.getD 0 0) 3 0 = 2 →
      ∃ t, exec (.loop n) s = .next t ∧
        tileOf t n = { tileOf (stallEnd s n) n with
          loops := { level := fld (ws.getD 0 0) 5 4, body := (tileOf s n).pc + ws.length, stop := 0, count := fld (ws.getD 0 0) 23 8 + 1,
                     iter := 0, steps := (ws.drop 1).map (fun x => (fld x 4 0, sext 24 (fld x 31 8))) } :: (tileOf s n).loops
          pc := (tileOf s n).pc + ws.length
          lastRecord := s.clk.up } ∧
        (∀ m, m ≠ n → tileOf t m = tileOf s m) ∧ t = { s with tiles := t.tiles }) ∧
    (fld (ws.getD 0 0) 3 0 = 3 → ∀ f rest,
      (tileOf s n).loops.dropWhile (fun f => decide (f.level ≠ fld (ws.getD 0 0) 5 4)) = f :: rest →
      ∃ t, exec (.endloop n) s = .next t ∧
        tileOf t n = { tileOf (stallEnd s n) n with
          loops := if f.iter + 1 < f.count then { f with iter := f.iter + 1 } :: rest else rest
          pc := if f.iter + 1 < f.count then f.body else (tileOf s n).pc + 1
          lastRecord := s.clk.up } ∧
        (∀ m, m ≠ n → tileOf t m = tileOf s m) ∧ t = { s with tiles := t.tiles }) ∧
    (fld (ws.getD 0 0) 3 0 = 3 → (∀ f ∈ (tileOf s n).loops, f.level ≠ fld (ws.getD 0 0) 5 4) →
      ∃ t detail, exec (.endloop n) s = .next t ∧ (tileOf t n).st = .stopping ∧ (tileOf t n).code = stCHECK ∧
        t.fc = collected s 0x301 stCHECK n (tileCtx s n) detail ∧
        (∀ m, m ≠ n → tileOf t m = tileOf s m) ∧ t = { s with tiles := t.tiles, waits := t.waits, fc := t.fc, free := t.free }) ∧
    (fld (ws.getD 0 0) 3 0 = 6 →
      ∃ t, exec (.rotate n) s = .next t ∧
        tileOf t n = { tileOf (stallEnd s n) n with
          rotOut := (tileOf s n).rotOut ++ [{ next := fld (ws.getD 0 0) 30 24, src := fld (ws.getD 1 0) 19 0,
                                              dst := fld (ws.getD 2 0) 19 0, bytes := fld (ws.getD 3 0) 20 0 }]
          rotDue := (tileOf s n).rotDue ++ [(fld (ws.getD 2 0) 19 0, fld (ws.getD 3 0) 20 0)]
          ringCredits := (tileOf s n).ringCredits + 1
          pc := (tileOf s n).pc + 4
          lastRecord := s.clk.up } ∧
        (∀ m, m ≠ n → tileOf t m = tileOf s m) ∧ t = { s with tiles := t.tiles }) ∧
    (fld (ws.getD 0 0) 3 0 = 7 →
      exec (.halt n) s = .next (setTile s n { tileOf s n with haltAt := true, lastRecord := s.clk.up })) ∧
    (fld (ws.getD 0 0) 3 0 ≠ 2 → exec (.loop n) s = .next s) ∧ (fld (ws.getD 0 0) 3 0 ≠ 3 → exec (.endloop n) s = .next s) ∧
    (fld (ws.getD 0 0) 3 0 ≠ 6 → exec (.rotate n) s = .next s) ∧ (fld (ws.getD 0 0) 3 0 ≠ 7 → exec (.halt n) s = .next s))

/-- WAIT, SIGNAL, ROTATE_ARRIVED (R97, R100, R110, R122 to R124, R203, R296 to R300). -/
def Obligations.TileWaitSignal : Prop :=
  (∀ (s : State) (n f : Nat) (ws : List Word), tileRuns s n = true → tileRec s n = some ws → fld (ws.getD 0 0) 3 0 = 4 →
    f = fld (ws.getD 0 0) 31 16 →
    (∀ s1, leavingWait s n f = some s1 → exec (.wait n) s = .next s1) ∧
    (leavingWait s n f = none → flagAllowed s (some ((tileCtx s n).getD 64)) f = true →
      condMet (bitOf (ws.getD 0 0) 4) (flagOf s f) (ws.getD 1 0) = true →
      exec (.wait n) s = .next (setTile s n { tileOf (stallEnd s n) n with pc := (tileOf s n).pc + 2, lastRecord := s.clk.up })) ∧
    (leavingWait s n f = none →
      (flagAllowed s (some ((tileCtx s n).getD 64)) f && condMet (bitOf (ws.getD 0 0) 4) (flagOf s f) (ws.getD 1 0)) = false →
      ∃ t, exec (.wait n) s = .next t ∧
        tileOf t n = { tileOf (stallOn s n (if withheld s (tileCtx s n) then 1 else 2)) n with st := .waiting } ∧
        t.waits = s.waits.filter (fun x => x.who ≠ n) ++
          [{ who := n, flag := f, eq := bitOf (ws.getD 0 0) 4, value := ws.getD 1 0, start := s.clk.up,
             expiry := s.clk.up + wfld s (gtReg n 0x14) 23 0 * 1000,
             granted := flagAllowed s (some ((tileCtx s n).getD 64)) f }] ∧
        (∀ m, m ≠ n → tileOf t m = tileOf s m) ∧ t = { s with tiles := t.tiles, waits := t.waits })) ∧
  (∀ (s : State) (n f : Nat) (ws : List Word), tileRuns s n = true → tileRec s n = some ws → fld (ws.getD 0 0) 3 0 = 5 →
    f = fld (ws.getD 0 0) 31 16 →
    ((tileOf s n).rotOut ≠ [] → exec (.signal n) s = .next s) ∧
    (∀ s1, (tileOf s n).rotOut = [] → leavingSignal s n f = some s1 →
      ∃ t, exec (.signal n) s = .next t ∧ (tileOf t n).pc = (tileOf s n).pc + 2 ∧ (∀ k, flagOf t k = flagOf s k) ∧
        (∀ m, m ≠ n → tileOf t m = tileOf s m) ∧ t = { s with leaving := s1.leaving, tiles := t.tiles }) ∧
    ((tileOf s n).rotOut = [] → leavingSignal s n f = none → stringSignal s n f (ws.getD 1 0).toNat = none →
      ∃ t, exec (.signal n) s = .next t ∧ (tileOf t n).stall.map (fun p => p.1) = some 6 ∧ (tileOf t n).pc = (tileOf s n).pc ∧
        (∀ m, m ≠ n → tileOf t m = tileOf s m) ∧ t = { s with tiles := t.tiles }) ∧
    (∀ s1, (tileOf s n).rotOut = [] → leavingSignal s n f = none → stringSignal s n f (ws.getD 1 0).toNat = some s1 →
      ∃ t, exec (.signal n) s = .next t ∧ (tileOf t n).pc = (tileOf s n).pc + 2 ∧ t.streams = s1.streams ∧ t.leaving = s1.leaving ∧
        (flagNow s (.tile n) f →
          flagOf t f = (if bitOf (ws.getD 0 0) 4 then flagOf s f + ws.getD 1 0 else ws.getD 1 0)) ∧
        (∀ k, k ≠ f → flagOf t k = flagOf s k) ∧ t = { s with clk := t.clk, leaving := t.leaving, streams := t.streams,
                                                              tiles := t.tiles, cores := t.cores, chans := t.chans,
                                                              bru := t.bru, flags := t.flags, waits := t.waits,
                                                              updates := t.updates, queues := t.queues,
                                                              fc := t.fc })) ∧
  (∀ (s : State) (n m : Nat) (r : Rotation), rotSender s n = some (m, r) → 0 < (tileOf s n).ringCredits →
    heldInReset s (.tile n) = false → heldInReset s (.tile m) = false →
    ∃ t, exec (.rotateArrived n) s = .next t ∧
      t.mem = memStore s.mem (wmBase n + r.dst) (bytesAt s (wmBase m + r.src) r.bytes) ∧
      (tileOf t m).rotOut = (tileOf s m).rotOut.drop 1 ∧ (tileOf t n).ringCredits = (tileOf s n).ringCredits - 1 ∧
      (tileOf t n).rotDue = (tileOf s n).rotDue.drop 1 ∧
      (∀ k, k ≠ m → k ≠ n → tileOf t k = tileOf s k) ∧ t = { s with mem := t.mem, tiles := t.tiles }) ∧
  (∀ (s : State) (n : Nat), (rotSender s n = none ∨ (tileOf s n).ringCredits = 0) → exec (.rotateArrived n) s = .next s)

/-- FETCH_DONE, FETCH_READ_NACK, OUTPUT_WRITE_NACK, FETCH_TRANSLATION_FAULT (R26, R118, R135 to R138, R263, R275, R285). `s1` is the state once
the rows of the oldest fetch have been read. -/
def Obligations.TileFetches : Prop :=
  (∀ (s s1 : State) (n st : Nat) (ecc : EccResult) (f : Fetch) (rest : List Fetch) (bs : List Byte),
    (tileOf s n).fetch = f :: rest → engBusy (tileOf s n).st = true → fetchIssued f = true →
    fetchRead n f ecc (fetchPieces f) (setTile s n { tileOf s n with fetch := rest }) = (s1, st, bs) →
    (st = stOK → ∃ t, exec (.fetchDone n ecc) s = .next t ∧
      (∀ i (h : i < bs.length), byteAt t (fetchDst n f + i) = bs[i]) ∧
      (∀ x, x < fetchDst n f ∨ fetchDst n f + bs.length ≤ x → byteAt t x = byteAt s1 x) ∧
      (ecc = .clean → t.tiles = (setTile s n { tileOf s n with fetch := rest }).tiles) ∧
      t = { s1 with mem := t.mem, power := t.power }) ∧
    (st ≠ stOK → engBusy (tileOf s1 n).st = true → ∃ t, exec (.fetchDone n ecc) s = .next t ∧ (tileOf t n).st = .stopping ∧
      (tileOf t n).code = st ∧ (∀ m, m ≠ n → tileOf t m = tileOf s1 m) ∧ t = { s1 with tiles := t.tiles, waits := t.waits })) ∧
  (∀ (s : State) (n : Nat) (ecc : EccResult) (f : Fetch) (rest : List Fetch), (tileOf s n).fetch = f :: rest →
    ((tileOf s n).st = .stopping → exec (.fetchDone n ecc) s = .next (setTile s n { tileOf s n with fetch := rest })) ∧
    ((tileOf s n).st ≠ .stopping → fetchIssued f = false → exec (.fetchDone n ecc) s = .next s)) ∧
  (∀ (s : State) (n a : Nat) (f : Fetch) (rest : List Fetch), (tileOf s n).fetch = f :: rest → fetchAddr s n f 0 = some a →
    engBusy (tileOf s n).st = true → meets s (.tile n) a = .reset →
    ∃ t, exec (.fetchReadNack n) s = .next t ∧ (tileOf t n).st = .stopping ∧ (tileOf t n).code = stRESET ∧
      (tileOf t n).fetch = rest ∧ t.bus = some { src := .tile n, status := stRESET, data := 0 } ∧
      t.fc = collected s 0x107 stRESET n (tileCtx s n) a ∧
      (∀ m, m ≠ n → tileOf t m = tileOf s m) ∧ t = { s with bus := t.bus, tiles := t.tiles, waits := t.waits,
                                                            fc := t.fc }) ∧
  (∀ (s : State) (n a : Nat), engBusy (tileOf s n).st = true → meets s (.tile n) a = .reset →
    ∃ t, exec (.outputWriteNack n a) s = .next t ∧ (tileOf t n).st = .stopping ∧ (tileOf t n).code = stRESET ∧
      ((tileOf s n).stall = none → (tileOf t n).cnt = cntAdd (tileOf s n).cnt (tileFrozen s n) 10 1) ∧ wbit t (gtReg n 4) 20 = true ∧
      t.bus = some { src := .tile n, status := stRESET, data := 0 } ∧ t.fc = collected s 0x107 stRESET n (tileCtx s n) a ∧
      (∀ key, key ≠ gtReg n 4 → word t key = word s key) ∧
      (∀ m, m ≠ n → tileOf t m = tileOf s m) ∧ t = { s with regs := t.regs, bus := t.bus, tiles := t.tiles,
                                                            waits := t.waits, fc := t.fc }) ∧
  (∀ (s : State) (n : Nat) (resolved : Bool) (f : Fetch), (tileOf s n).fetch.find? (fun f => !fetchIssued f) = some f →
    engBusy (tileOf s n).st = true →
    (∀ o, f.faulted = false → fetchFault s n f f.issued (fetchBurst f) = some o →
      ∃ t, exec (.fetchTranslationFault n resolved) s = .next t ∧
        (tileOf t n).fetch = (tileOf s n).fetch.map (fun g => if g = f then { g with faulted := true } else g) ∧
        word t (iommuBase + 0x20) = satInc (word s (iommuBase + 0x20)) ∧
        t.fc = collected s 0x205 stPAGE n (tileCtx s n) (fetchIo f o) ∧
        (if resolved then (tileOf t n).st = (tileOf s n).st else (tileOf t n).st = .stopping ∧ (tileOf t n).code = stPAGE) ∧
        (∀ key, key ≠ iommuBase + 0x20 → word t key = word s key) ∧
        (∀ m, m ≠ n → tileOf t m = tileOf s m) ∧ t = { s with regs := t.regs, tiles := t.tiles,
                                                              waits := t.waits, fc := t.fc }) ∧
    (f.faulted = true → resolved = true → fetchFault s n f f.issued (fetchBurst f) = none →
      exec (.fetchTranslationFault n resolved) s = .next (setTile s n { tileOf s n with
        fetch := (tileOf s n).fetch.map (fun g => if g = f then { g with faulted := false } else g) })) ∧
    (f.faulted = true → resolved = false →
      ∃ t, exec (.fetchTranslationFault n resolved) s = .next t ∧ (tileOf t n).st = .stopping ∧ (tileOf t n).code = stPAGE ∧
        (∀ m, m ≠ n → tileOf t m = tileOf s m) ∧ t = { s with tiles := t.tiles, waits := t.waits }) ∧
    (f.faulted = false → fetchFault s n f f.issued (fetchBurst f) = none → exec (.fetchTranslationFault n resolved) s = .next s))

/-- TILE_START, TILE_CANCEL, TILE_COUNTER_CLEAR, HALT_COMPLETE, TILE_STOP_DONE (R125, R137 to R141, R203, R204, R208). The end of a tile of a job
is looked at by Apgil, which starts the tiles of a job that has been loaded: `n` is none of them. -/
def Obligations.TileStartStop : Prop :=
  (∀ (s : State) (src : Src) (n : Nat), meets s src (gtReg n 0) = .here → tileWriter s src n = true →
    ((tileOf s n).st = .idle ∨ (tileOf s n).st = .done →
      ∃ t, exec (.tileStart src n) s = .next t ∧
        tileOf t n = { tileOf s n with
          st := .running, code := stOK, pc := wfld s (gtReg n 8) 13 0, loops := [], ran := 0, ranFull := 0, haltAt := false
          stall := none, ringCredits := 0, rotOut := [], rotDue := [], touched := [], lastRecord := s.clk.up } ∧
        (∀ m, m ≠ n → tileOf t m = tileOf s m) ∧ t = { s with tiles := t.tiles }) ∧
    ((tileOf s n).st ≠ .idle → (tileOf s n).st ≠ .done → exec (.tileStart src n) s = .next (setWbit s (gtReg n 4) 17 true)) ∧
    (engBusy (tileOf s n).st = true →
      ∃ t, exec (.tileCancel src n) s = .next t ∧
        tileOf t n = { tileOf (stallEnd s n) n with st := .stopping, code := stCANCELLED, rotOut := [], rotDue := [], haltAt := false } ∧
        t.waits = s.waits.filter (fun x => x.who ≠ n) ∧
        (∀ g ∈ (tileOf s n).touched, (granOf t g).st ≠ .owned ∨ (granOf t g).owner = none) ∧
        (∀ g, g ∉ (tileOf s n).touched → granOf t g = granOf s g) ∧
        (∀ m, m ≠ n → tileOf t m = tileOf s m) ∧ t = { s with tiles := t.tiles, waits := t.waits, granules := t.granules }) ∧
    (engBusy (tileOf s n).st = false → exec (.tileCancel src n) s = .next s)) ∧
  (∀ (s : State) (src : Src) (n : Nat), meets s src (gtReg n 0x180) = .here → tileWriter s src n = true →
    exec (.tileCounterClear src n) s = .next (setTile s n { tileOf s n with cnt := [] })) ∧
  (∀ (s : State) (src : Src) (n : Nat), meets s src (gtReg n 0) = .here → tileWriter s src n = false →
    ∃ t, exec (.tileStart src n) s = .next t ∧ exec (.tileCancel src n) s = .next t ∧
      t.fc = collected s 0x104 0 (srcIndex src) (srcCtx s src) (gtReg n 0) ∧ t = { s with fc := t.fc }) ∧
  (∀ (s : State) (n : Nat), (tileOf s n).st = .running → (tileOf s n).haltAt = true → (tileOf s n).rotOut = [] →
    (tileOf s n).fetch = [] →
    ((∀ e ∈ s.leaving, e.slow ≠ n) → Domain.tile n ∉ s.resetting → resetDue s n = false →
      (∀ k j, jobOf s k = some j → j.loading = true → n ∉ j.first) →
      ∃ t, exec (.haltComplete n) s = .next t ∧
        tileOf t n = { tileOf s n with
          st := .done, haltAt := false
          code := if 1 ≤ (tileOf s n).ran ∧ (tileOf s n).ranFull = 0 then stEMPTY else stOK } ∧
        t = { s with free := t.free, regs := t.regs, mem := t.mem, bus := t.bus, latches := t.latches, tiles := t.tiles,
                     cores := t.cores, chans := t.chans, waits := t.waits, granules := t.granules, fc := t.fc,
                     host := t.host, sent := t.sent, bridge := t.bridge }) ∧
    ((∀ e ∈ s.leaving, e.slow ≠ n) → (Domain.tile n ∈ s.resetting ∨ resetDue s n = true) → exec (.haltComplete n) s = .next s) ∧
    (∀ e ∈ s.leaving, e.slow = n →
      ∃ t, exec (.haltComplete n) s = .next t ∧ (tileOf t n).st = .done ∧ (tileOf t n).code = stOK ∧ tileCtx t n = none ∧
        n ∈ t.retire.untested ∧ n ∉ t.retire.inService ∧ (∀ d ∈ t.leaving, d.slow ≠ n) ∧
        t = { s with regs := t.regs, leaving := t.leaving, tiles := t.tiles, granules := t.granules, retire := t.retire })) ∧
  (∀ (s : State) (n : Nat), (tileOf s n).st = .stopping → (tileOf s n).code = stCANCELLED →
    (∀ k j, jobOf s k = some j → j.loading = true → n ∉ j.first) →
    ∃ t, exec (.tileStopDone n) s = .next t ∧ tileOf t n = { tileOf s n with st := .done, fetch := [] } ∧
      t = { s with free := t.free, regs := t.regs, mem := t.mem, bus := t.bus, latches := t.latches, tiles := t.tiles,
                   cores := t.cores, chans := t.chans, waits := t.waits, granules := t.granules, fc := t.fc,
                   host := t.host, sent := t.sent, bridge := t.bridge }) ∧
  (∀ (s : State) (n : Nat), (tileOf s n).st = .stopping → (tileOf s n).code ≠ stCANCELLED →
    ∃ t, exec (.tileStopDone n) s = .next t ∧ (tileOf t n).st = .error ∧ (tileOf t n).fault = true ∧
      (tileOf t n).code = (tileOf s n).code ∧ tileCtx t n = none ∧
      (hasParked s n = false → ∀ g ∈ tileGranules n, (granOf t g).st ≠ .owned ∨ (granOf t g).owner = none) ∧
      (wbit s (gtReg n 4) 19 = true → (tget (false, 0) t.retire.tiles n).1 = true ∧ n ∉ t.retire.inService) ∧
      (wbit s (gtReg n 4) 19 = false → n ∈ t.retire.untested ∧ n ∉ t.retire.inService) ∧
      t = { s with free := t.free, regs := t.regs, mem := t.mem, bus := t.bus, latches := t.latches, moves := t.moves,
                   leaving := t.leaving, banks := t.banks, plates := t.plates, colours := t.colours, streams := t.streams,
                   tiles := t.tiles, cores := t.cores, chans := t.chans, waits := t.waits, granules := t.granules, fc := t.fc,
                   host := t.host, sent := t.sent, bridge := t.bridge, retire := t.retire, flash := t.flash })

/-- TILE_WATCHDOG and STRING_RESTART (R113, R203, R204, R206, R207, R288, R469). -/
def Obligations.TileFailures : Prop :=
  (∀ (s : State) (n ns : Nat), planTime s n = some ns →
    (∀ j, jobOfTile s n = some j → ∃ x, jobOf s j = some x ∧ n ∈ x.tiles) →
    (engBusy (tileOf s n).st = true → (∀ w ∈ s.waits, w.who ≠ n) → (tileOf s n).lastRecord + 10 * ns ≤ s.clk.up →
      ∃ t, exec (.tileWatchdog n) s = .next t ∧ (tileOf t n).st = .stopping ∧ (tileOf t n).code = stCANCELLED ∧
        tileCtx t n = none ∧ n ∈ t.retire.untested ∧ n ∉ t.retire.inService ∧
        (∀ j, jobOfTile s n = some j → jobOf t j = none) ∧ t = { s with free := t.free, regs := t.regs,
                                                                        mem := t.mem, moves := t.moves,
                                                                        leaving := t.leaving, banks := t.banks,
                                                                        plates := t.plates, colours := t.colours,
                                                                        streams := t.streams, tiles := t.tiles,
                                                                        cores := t.cores, chans := t.chans,
                                                                        waits := t.waits, granules := t.granules,
                                                                        fc := t.fc, host := t.host, sent := t.sent,
                                                                        bridge := t.bridge, retire := t.retire }) ∧
    ((engBusy (tileOf s n).st = false ∨ (∃ w ∈ s.waits, w.who = n) ∨ s.clk.up < (tileOf s n).lastRecord + 10 * ns) →
      exec (.tileWatchdog n) s = .next s)) ∧
  (∀ (s : State) (n i : Nat) (x : Stream) (g : Strg), streamOf s n = some x → (x.phase = .running ∨ x.phase = .stopping) →
    x.replan = none → x.strings.filter (fun h => decide (h.index = i)) = [g] → (g.remap ≠ [] ∨ g.toVariant.isSome = true) →
    g.inFlight = [] →
    ((∀ k ∈ (nextString g).tiles, tileReady s k = true) → granted s x.ctx ((nextString g).tiles.flatMap tileGranules) = true →
      ∃ t y, exec (.stringRestart n i) s = .next t ∧ streamOf t n = some y ∧ y.drainNext = some true ∧
        y.strings = x.strings.map (fun h => if h.index = i then freshString s (updString x i (fun _ => nextString g)) (nextString g) else h) ∧
        (∀ k ∈ (nextString g).tiles, (tileOf t k).st = .running ∧ wbit t (gtReg k 0) 2 = true) ∧
        (∀ m, m ≠ n → streamOf t m = streamOf s m) ∧ t = { s with regs := t.regs, mem := t.mem,
                                                                  streams := t.streams, tiles := t.tiles,
                                                                  cores := t.cores, chans := t.chans,
                                                                  bru := t.bru, flags := t.flags,
                                                                  waits := t.waits, queues := t.queues }) ∧
    ((∀ k ∈ (nextString g).tiles, tileReady s k = true) → granted s x.ctx ((nextString g).tiles.flatMap tileGranules) = false →
      ∃ t, exec (.stringRestart n i) s = .next t ∧
        (∀ k ∈ (nextString g).tiles.flatMap tileGranules, (granOf t k).st = .owned ∨ (granOf t k).grantWait = some x.ctx) ∧
        (∀ k, k ∉ (nextString g).tiles.flatMap tileGranules → granOf t k = granOf s k) ∧
        t = { s with regs := t.regs, power := t.power, granules := t.granules }) ∧
    ((∃ k ∈ (nextString g).tiles, tileReady s k = false) →
      ∃ t, exec (.stringRestart n i) s = .next t ∧
        (∀ k ∈ g.tiles, engBusy (tileOf s k).st = true → (tileOf t k).st = .stopping ∧ (tileOf t k).code = stCANCELLED) ∧
        (∀ k, (k ∉ g.tiles ∨ engBusy (tileOf s k).st = false) → tileOf t k = tileOf s k) ∧
        t = { s with tiles := t.tiles, waits := t.waits, granules := t.granules })) ∧
  (∀ (s : State) (n i : Nat) (x : Stream) (g : Strg), streamOf s n = some x → x.replan = none →
    x.strings.find? (fun h => decide (h.index = i)) = some g → ((g.remap = [] ∧ g.toVariant = none) ∨ g.inFlight ≠ []) →
    exec (.stringRestart n i) s = .next s) ∧
  (∀ (s : State) (n i h v : Nat) (l : List (List Nat)) (x : Stream), streamOf s n = some x →
    (x.phase = .running ∨ x.phase = .stopping) → x.replan = some (h, v, l) → h = dH x →
    (∀ g ∈ x.strings, g.inFlight = [] ∧ g.parked = []) → (∀ k ∈ l.flatten, tileReady s k = true) →
    granted s x.ctx (l.flatten.flatMap tileGranules) = true →
    ∃ t y, exec (.stringRestart n i) s = .next t ∧ streamOf t n = some y ∧ y.replan = none ∧ y.variant = v ∧ y.drainNext = some true ∧
      y.strings.map (fun g => g.tiles) = l ∧ (∀ g ∈ y.strings, g.dispatch = true) ∧
      (∀ k ∈ l.flatten, (tileOf t k).st = .running) ∧
      (∀ m, m ≠ n → streamOf t m = streamOf s m) ∧ t = { s with regs := t.regs, mem := t.mem, streams := t.streams,
                                                                tiles := t.tiles, cores := t.cores, chans := t.chans,
                                                                bru := t.bru, flags := t.flags, waits := t.waits,
                                                                queues := t.queues, granules := t.granules })

/-- BRU_SUBMIT, BRU_CANCEL, BRU_SLOT_READ (R169, R170, R178, R179). -/
def Obligations.BruSlots : Prop :=
  (∀ (s : State) (src : Src) (v : Word), meets s src (bruBase + 8) = .here → isApgil src = true → bitOf v 0 = true →
    ((bruSlotOf s (fld v 13 8)).st ≠ .free → (∃ k, k < 64 ∧ (bruSlotOf s k).st = .free) →
      exec (.bruSubmit src v) s = .next (setWbit s (bruBase + 0x10) 7 true)) ∧
    ((∀ k, k < 64 → (bruSlotOf s k).st ≠ .free) →
      exec (.bruSubmit src v) s =
        .next { setWbit s (bruBase + 0x10) 7 true with bus := some { src := src, status := stCOUNT, data := 0 } }) ∧
    ((bruSlotOf s (fld v 13 8)).st = .free → ∀ d,
      d = (List.range 32).map (fun i => wordAt s (wfld s bruBase 31 6 * 64 + wfld s (bruBase + 4) 7 0 * 2 ^ 32 + 4 * i)) →
      (∀ st, bruCheck s (.bru (fld v 13 8)) d = some st →
        exec (.bruSubmit src v) s = .next { s with bus := some { src := src, status := st, data := 0 } }) ∧
      (bruCheck s (.bru (fld v 13 8)) d = none → ∃ t, exec (.bruSubmit src v) s = .next t ∧
        (bruSlotOf t (fld v 13 8)).st = .waiting ∧ (bruSlotOf t (fld v 13 8)).desc = d ∧ (bruSlotOf t (fld v 13 8)).iter = 0 ∧
        (bruSlotOf t (fld v 13 8)).done = 0 ∧
        ((bWaitEn d = false ∨ (flagAllowed s (some (bCtx d)) (bWaitFlag d) = true ∧
            condMet false (flagOf s (bWaitFlag d)) (BitVec.ofNat 32 (bWaitBase d + 1)) = true)) →
          (bruSlotOf t (fld v 13 8)).metAt = some s.clk.up ∧ t.waits = s.waits) ∧
        (bWaitEn d = true → (flagAllowed s (some (bCtx d)) (bWaitFlag d) = false ∨
            condMet false (flagOf s (bWaitFlag d)) (BitVec.ofNat 32 (bWaitBase d + 1)) = false) →
          (bruSlotOf t (fld v 13 8)).metAt = none ∧
          t.waits = s.waits.filter (fun x => x.who ≠ 208 + fld v 13 8) ++
            [{ who := 208 + fld v 13 8, flag := bWaitFlag d, eq := false, value := BitVec.ofNat 32 (bWaitBase d + 1),
               start := s.clk.up, expiry := s.clk.up + wfld s (bruBase + 0x14) 23 0 * 1000,
               granted := flagAllowed s (some (bCtx d)) (bWaitFlag d) }]) ∧
        (∀ k, k ≠ fld v 13 8 → bruSlotOf t k = bruSlotOf s k) ∧ t = { s with bru := t.bru, waits := t.waits }))) ∧
  (∀ (s : State) (src : Src) (v : Word), meets s src (bruBase + 8) = .here → isApgil src = true → bitOf v 1 = true →
    (((bruSlotOf s (fld v 13 8)).st = .waiting ∨ (bruSlotOf s (fld v 13 8)).st = .running) →
      ∃ t, exec (.bruCancel src v) s = .next t ∧
        bruSlotOf t (fld v 13 8) = { bruSlotOf s (fld v 13 8) with st := .done, code := stCANCELLED, metAt := none, ended := true } ∧
        t.bru.running = (if s.bru.running = some (fld v 13 8) then none else s.bru.running) ∧
        t.waits = s.waits.filter (fun x => x.who ≠ 208 + fld v 13 8) ∧
        (∀ k, k ≠ fld v 13 8 → bruSlotOf t k = bruSlotOf s k) ∧ t = { s with bru := t.bru, waits := t.waits }) ∧
    ((bruSlotOf s (fld v 13 8)).st ≠ .waiting → (bruSlotOf s (fld v 13 8)).st ≠ .running →
      exec (.bruCancel src v) s = .next s)) ∧
  (∀ (s : State) (src : Src) (v : Word), meets s src (bruBase + 8) = .here → isApgil src = false →
    ∃ t, exec (.bruSubmit src v) s = .next t ∧ exec (.bruCancel src v) s = .next t ∧
      t.fc = collected s 0x104 0 (srcIndex src) (srcCtx s src) (bruBase + 8) ∧ t = { s with fc := t.fc }) ∧
  (∀ (s : State) (src : Src) (j : Nat), j < 64 → meets s src (bruBase + 0x100 + 4 * j) = .here →
    ∃ t, exec (.bruSlotRead src j) s = .next t ∧
      t.bus = some { src := src, status := stOK, data := bruSlotWord (bruSlotOf s j) } ∧
      bruSlotOf t j = (if (bruSlotOf s j).ended then { code := (bruSlotOf s j).code, done := (bruSlotOf s j).done } else bruSlotOf s j) ∧
      (∀ k, k ≠ j → bruSlotOf t k = bruSlotOf s k) ∧ t = { s with bus := t.bus, bru := t.bru })

/-- BRU_ITERATION_START and BRU_ITERATION_DONE (R169, R171 to R178, R285). `s1` is the state once the outputs are written through the job's
translation. -/
def Obligations.BruIterations : Prop :=
  (∀ (s : State), (s.bru.running.isSome = true ∨ heldInReset s .bru = true ∨ bruPick s = none) →
    exec .bruIterationStart s = .next s) ∧
  (∀ (s : State) (j : Nat) (d : List Word) (table : List (Nat × Nat)), s.bru.running = none → heldInReset s .bru = false →
    bruPick s = some j → d = (bruSlotOf s j).desc → table = (if bMode d = 0 then [(bAddr d 0x64, bLevels d * 64)] else []) →
    (crcWords (d.take 31) ≠ bw d 0x7C →
      ∃ t detail, exec .bruIterationStart s = .next t ∧ (bruSlotOf t j).st = .error ∧ (bruSlotOf t j).code = stCHECK ∧
        t.fc = collected s 0x304 stCHECK (208 + j) (bruCtx s j) detail ∧ (∀ k, k ≠ j → bruSlotOf t k = bruSlotOf s k) ∧
        t = { s with bru := t.bru, waits := t.waits, fc := t.fc, free := t.free }) ∧
    (crcWords (d.take 31) = bw d 0x7C → bEmpty d = false →
      (∀ a, (firstFault s (bXlate d) false table = some a ∨
          (firstFault s (bXlate d) false table = none ∧ firstFault s (bXlate d) false (bruReads s j) = some a)) →
        ∃ t, exec .bruIterationStart s = .next t ∧
          bruSlotOf t j = { code := stPAGE, done := (bruSlotOf s j).done } ∧
          word t (iommuBase + 0x20) = satInc (word s (iommuBase + 0x20)) ∧
          t.fc = collected s 0x205 stPAGE (208 + j) (bruCtx s j) a ∧ (∀ f, flagOf t f = flagOf s f) ∧
          (∀ k, k ≠ j → bruSlotOf t k = bruSlotOf s k) ∧ t = { s with regs := t.regs, bru := t.bru, waits := t.waits, fc := t.fc }) ∧
      (firstFault s (bXlate d) false table = none → firstFault s (bXlate d) false (bruReads s j) = none →
        ∃ t, exec .bruIterationStart s = .next t ∧
          bruSlotOf t j = { bruSlotOf s j with st := .running, metAt := none } ∧ t.bru.running = some j ∧
          t.bru.out = [(bOut d (bruSlotOf s j).iter,
            if bMode d = 0 then (detect s (.bru j) d (bruSlotOf s j).iter).1 else rank s (.bru j) d (bruSlotOf s j).iter)] ∧
          (∀ k, k ≠ j → bruSlotOf t k = bruSlotOf s k) ∧ t = { s with free := t.free, bru := t.bru, bus := t.bus, fc := t.fc }))) ∧
  (∀ (s s1 : State) (j : Nat) (d : List Word), s.bru.running = some j → d = (bruSlotOf s j).desc →
    s1 = forAll (s.bru.out.map (fun w => (w.1, stampOut s.clk.now w.2))) (bruPut j d) s →
    (firstFault s (bXlate d) true (s.bru.out.map (fun w => (w.1, (stampOut s.clk.now w.2).length))) = none →
      ∃ t, exec .bruIterationDone s = .next t ∧ t.bru.running = none ∧ (bruSlotOf t j).code = stOK ∧
        (bruSlotOf t j).done = ((bruSlotOf s1 j).done + 1) % 65536 ∧
        word t (bruBase + 0x24) = satInc (word s1 (bruBase + 0x24)) ∧
        (∀ key, key ≠ bruBase + 0x24 → key ≠ bruBase + 0x20 → word t key = word s1 key) ∧
        (flagNow s1 (.bru j) (bSignalFlag d) → bruCtx s1 j = bruCtx s j →
          flagOf t (bSignalFlag d) = flagOf s1 (bSignalFlag d) + 1) ∧
        (∀ f, f ≠ bSignalFlag d → flagOf t f = flagOf s1 f) ∧ t = { s1 with regs := t.regs, clk := t.clk, tiles := t.tiles,
                                                                            cores := t.cores, chans := t.chans, bru := t.bru,
                                                                            flags := t.flags, waits := t.waits,
                                                                            updates := t.updates, queues := t.queues,
                                                                            fc := t.fc, power := t.power }) ∧
    (∀ a, firstFault s (bXlate d) true (s.bru.out.map (fun w => (w.1, (stampOut s.clk.now w.2).length))) = some a →
      ∃ t, exec .bruIterationDone s = .next t ∧ t.bru.running = none ∧ bruSlotOf t j = { code := stPAGE, done := (bruSlotOf s j).done } ∧
        t.fc = collected s 0x205 stPAGE (208 + j) (bruCtx s j) a ∧ (∀ k, k ≠ j → bruSlotOf t k = bruSlotOf s k) ∧
        t = { s with regs := t.regs, bru := t.bru, waits := t.waits, fc := t.fc })) ∧
  (∀ (s : State), s.bru.running = none → exec .bruIterationDone s = .next s)

/-- R178: an empty BRU iteration; it counts as completed. -/
def Obligations.EmptyBruIteration : Prop :=
  ∀ (s : State) (j : Nat) (d : List Word), s.bru.running = none → heldInReset s .bru = false → bruPick s = some j →
    d = (bruSlotOf s j).desc → crcWords (d.take 31) = bw d 0x7C →
    ((bMode d = 0 ∧ bLevels d = 0) ∨ (bMode d ≠ 0 ∧ bCount d = 0)) →
    ∃ t, exec .bruIterationStart s = .next t ∧ (bruSlotOf t j).code = stEMPTY ∧
      (bruSlotOf t j).done = ((bruSlotOf s j).done + 1) % 65536 ∧ t.bru.running = none ∧
      word t (bruBase + 0x24) = satInc (word s (bruBase + 0x24)) ∧ (∀ key, key ≠ bruBase + 0x24 → word t key = word s key) ∧
      (flagNow s (.bru j) (bSignalFlag d) → flagOf t (bSignalFlag d) = flagOf s (bSignalFlag d) + 1) ∧
      (∀ f, f ≠ bSignalFlag d → flagOf t f = flagOf s f) ∧ t = { s with regs := t.regs, clk := t.clk,
                                                                        tiles := t.tiles, cores := t.cores,
                                                                        chans := t.chans, bru := t.bru,
                                                                        flags := t.flags, waits := t.waits,
                                                                        updates := t.updates,
                                                                        queues := t.queues, fc := t.fc }

/-- BUNDLE_ISSUE (R210 to R216, R218, R220, R222, R224, R229 to R245). A core that halts has no further image of a job to run in turn. -/
def Obligations.EtchBundle : Prop :=
  ∀ (s : State) (n : Nat) (c : Core) (b : Bundle), c = coreOf s n → b = bundleAt s n c.pc → c.st = .running →
    heldInReset s (.core n) = false →
    (withheld s (coreCtx s n) = true → ∀ ecc, exec (.bundleIssue n ecc) s = .next (coreStallOn s n 1)) ∧
    (withheld s (coreCtx s n) = false →
    ((8191 < c.pc ∨ bundleLegal b = false) →
      ∃ t detail, exec (.bundleIssue n .clean) s = .next t ∧ (coreOf t n).st = .stopping ∧ (coreOf t n).code = stCHECK ∧
        t.fc = collected s 0x302 stCHECK (72 + n) (coreCtx s n) detail ∧ (∀ m, m ≠ n → coreOf t m = coreOf s m) ∧
        t = { s with cores := t.cores, waits := t.waits, fc := t.fc, free := t.free }) ∧
    (∃ t detail, exec (.bundleIssue n .uncorrectable) s = .next t ∧ (coreOf t n).st = .stopping ∧ (coreOf t n).code = stCHECK ∧
      wbit t (ecReg n 4) 19 = true ∧ t.fc = collected s 0x202 stCHECK (72 + n) (coreCtx s n) detail ∧
      (∀ m, m ≠ n → coreOf t m = coreOf s m) ∧
      t = { s with regs := t.regs, cores := t.cores, waits := t.waits, fc := t.fc, free := t.free }) ∧
    (c.pc ≤ 8191 → bundleLegal b = true → ((isOp b.s0 .fwait || isOp b.s0 .evwait) && !c.met) = false →
      (loopBad c b.s0 = true ∨ lBad c b.l0 = true ∨ lBad c b.l1 = true) →
      ∃ t detail, exec (.bundleIssue n .clean) s = .next t ∧ (coreOf t n).st = .stopping ∧
        (coreOf t n).code = (if loopBad c b.s0 then stCHECK else stALIGN) ∧
        t.fc = collected s 0x302 (if loopBad c b.s0 then stCHECK else stALIGN) (72 + n) (coreCtx s n) detail ∧
        (∀ m, m ≠ n → coreOf t m = coreOf s m) ∧ t = { s with cores := t.cores, waits := t.waits, fc := t.fc, free := t.free }) ∧
    (c.pc ≤ 8191 → bundleLegal b = true → ((isOp b.s0 .fwait || isOp b.s0 .evwait) && !c.met) = false → loopBad c b.s0 = false →
      lBad c b.l0 = false → lBad c b.l1 = false → pulseHeld s n b.s1 = true →
      exec (.bundleIssue n .clean) s = .next (coreStallOn s n 8)) ∧
    (c.pc ≤ 8191 → bundleLegal b = true →
      ((isOp b.s0 .fwait || isOp b.s0 .evwait) && !c.met) = false → loopBad c b.s0 = false → lBad c b.l0 = false →
      lBad c b.l1 = false → pulseHeld s n b.s1 = false →
      (isOp b.s0 .halt = true → ∀ k j, jobOf s k = some j → (∀ e ∈ j.turns, e.1 ≠ n) ∧ (j.loading = true → n ∉ j.cores)) →
      ∀ c1, c1 = (sExec c b.s0 ++ sExec c b.s1 ++ lExec c (fun ea k => numAt s (dmemBase n + ea) k) b.l0 ++
        lExec c (fun ea k => numAt s (dmemBase n + ea) k) b.l1 ++ vExec c b.v0 ++ vExec c b.v1 ++ pExec c b.v2 ++
        (xExec c b.x).1).foldl putReg c →
      ∃ t, exec (.bundleIssue n .clean) s = .next t ∧ (coreOf t n).sc = c1.sc ∧ (coreOf t n).vec = c1.vec ∧
        (coreOf t n).pred = c1.pred ∧ (coreOf t n).acc = c1.acc ∧ (coreOf t n).loops = (nextBundle c b).1 ∧
        (isOp b.s0 .halt = false → (coreOf t n).pc = (nextBundle c b).2.1 ∧ (coreOf t n).st = .running ∧
          t.mem = memScatter s.mem ((lStores c b.l0 ++ lStores c b.l1).map (fun w => (dmemBase n + w.1, w.2))) ∧
          (∀ m, m ≠ n → (coreOf s m).st ≠ .waiting → coreOf t m = coreOf s m)) ∧
        (isOp b.s0 .halt = true → (coreOf t n).st = .done ∧ (coreOf t n).code = stOK ∧ (coreOf t n).pc = c.pc) ∧
        t = { s with free := t.free, regs := t.regs, mem := t.mem, clk := t.clk, tiles := t.tiles,
                     cores := t.cores, chans := t.chans, bru := t.bru, flags := t.flags, waits := t.waits,
                     updates := t.updates, queues := t.queues, granules := t.granules, fc := t.fc, bus := t.bus,
                     latches := t.latches, host := t.host, sent := t.sent, bridge := t.bridge }) ∧
    (c.pc ≤ 8191 → bundleLegal b = true → isOp b.s0 .fwait = true → c.met = false →
      (flagAllowed s (some ((coreCtx s n).getD 64)) (fld b.s0 15 0) = false ∨
        condMet (bitOf b.s0 16) (flagOf s (fld b.s0 15 0)) (scOf c (fld b.s0 25 20)) = false) →
      ∃ t, exec (.bundleIssue n .clean) s = .next t ∧
        coreOf t n = { coreOf (coreStallOn s n 2) n with st := .waiting, waitEv := none, waitFrom := s.clk.up } ∧
        t.waits = s.waits.filter (fun x => x.who ≠ 72 + n) ++
          [{ who := 72 + n, flag := fld b.s0 15 0, eq := bitOf b.s0 16, value := scOf c (fld b.s0 25 20), start := s.clk.up,
             expiry := s.clk.up + wfld s (ecReg n 0x14) 23 0 * 1000,
             granted := flagAllowed s (some ((coreCtx s n).getD 64)) (fld b.s0 15 0) }] ∧
        (∀ m, m ≠ n → coreOf t m = coreOf s m) ∧ t = { s with cores := t.cores, waits := t.waits }) ∧
    (c.pc ≤ 8191 → bundleLegal b = true → isOp b.s0 .fwait = false → isOp b.s0 .evwait = true → c.met = false →
      tget 0 c.events (fld b.s0 2 0) = 0 →
      exec (.bundleIssue n .clean) s = .next (setCore (coreStallOn s n 3) n { coreOf (coreStallOn s n 3) n with
        st := .waiting, waitEv := some (fld b.s0 2 0), waitFrom := s.clk.up })))

/-- ETCH_START, ETCH_CANCEL, ETCH_COUNTER_CLEAR, ETCH_STOP_DONE (R212, R218, R219, R223, R224, R233, R446). A cancelled core is none that Apgil
starts for a job that has been loaded. -/
def Obligations.EtchStartStop : Prop :=
  (∀ (s : State) (src : Src) (n : Nat), meets s src (ecReg n 0) = .here → (isApgil src = true ∨ coreCtx s n = none) →
    ((coreOf s n).st = .idle ∨ (coreOf s n).st = .done →
      ∃ t, exec (.etchStart src n) s = .next t ∧ (coreOf t n).st = .running ∧ (coreOf t n).pc = wfld s (ecReg n 8) 12 0 ∧
        (∀ k, scOf (coreOf t n) k = 0 ∧ vecOf (coreOf t n) k = 0 ∧ (k ≠ 0 → predOf (coreOf t n) k = 0)) ∧
        (∀ a j, accOf (coreOf t n) a j = 0) ∧ predOf (coreOf t n) 0 = BitVec.allOnes 128 ∧ (coreOf t n).loops = [] ∧
        (coreOf t n).events = (coreOf s n).events ∧ (coreOf t n).cnt = (coreOf s n).cnt ∧
        (∀ m, m ≠ n → coreOf t m = coreOf s m) ∧ t = { s with cores := t.cores }) ∧
    ((coreOf s n).st ≠ .idle → (coreOf s n).st ≠ .done → exec (.etchStart src n) s = .next (setWbit s (ecReg n 4) 17 true)) ∧
    (engBusy (coreOf s n).st = true →
      ∃ t, exec (.etchCancel src n) s = .next t ∧ (coreOf t n).st = .stopping ∧ (coreOf t n).code = stCANCELLED ∧
        (coreOf t n).loops = [] ∧ (coreOf t n).sc = (coreOf s n).sc ∧ (coreOf t n).vec = (coreOf s n).vec ∧
        t.waits = s.waits.filter (fun x => x.who ≠ 72 + n) ∧
        (∀ g ∈ (coreOf s n).touched, (granOf t g).st ≠ .owned ∨ (granOf t g).owner = none) ∧
        (∀ g, g ∉ (coreOf s n).touched → granOf t g = granOf s g) ∧
        (∀ m, m ≠ n → coreOf t m = coreOf s m) ∧ t = { s with cores := t.cores, waits := t.waits, granules := t.granules }) ∧
    (engBusy (coreOf s n).st = false → exec (.etchCancel src n) s = .next s)) ∧
  (∀ (s : State) (src : Src) (n : Nat), meets s src (ecReg n 0x180) = .here → (isApgil src = true ∨ coreCtx s n = none) →
    exec (.etchCounterClear src n) s = .next (setCore s n { coreOf s n with cnt := [] })) ∧
  (∀ (s : State) (src : Src) (n : Nat), meets s src (ecReg n 0) = .here → isApgil src = false → coreCtx s n ≠ none →
    ∃ t, exec (.etchStart src n) s = .next t ∧ exec (.etchCancel src n) s = .next t ∧
      t.fc = collected s 0x104 0 (srcIndex src) (srcCtx s src) (ecReg n 0) ∧ t = { s with fc := t.fc }) ∧
  (∀ (s : State) (n : Nat), (coreOf s n).st = .stopping → (coreOf s n).code = stCANCELLED →
    (∀ k j, jobOf s k = some j → j.loading = true → n ∉ j.cores) →
    ∃ t, exec (.etchStopDone n) s = .next t ∧ coreOf t n = { coreOf s n with st := .done } ∧
      t = { s with free := t.free, regs := t.regs, mem := t.mem, bus := t.bus, latches := t.latches, tiles := t.tiles,
                   cores := t.cores, chans := t.chans, waits := t.waits, granules := t.granules, fc := t.fc,
                   host := t.host, sent := t.sent, bridge := t.bridge }) ∧
  (∀ (s : State) (n : Nat), (coreOf s n).st = .stopping → (coreOf s n).code ≠ stCANCELLED →
    ∃ t, exec (.etchStopDone n) s = .next t ∧ (coreOf t n).st = .error ∧ (coreOf t n).fault = true ∧
      (coreOf t n).code = (coreOf s n).code ∧ coreCtx t n = none ∧
      (∀ g ∈ coreGranules n, (granOf t g).st ≠ .owned ∨ (granOf t g).owner = none) ∧
      (wbit s (ecReg n 4) 19 = true → (tget (false, 0) t.retire.cores n).1 = true) ∧
      t = { s with free := t.free, regs := t.regs, mem := t.mem, bus := t.bus, latches := t.latches, tiles := t.tiles,
                   cores := t.cores, chans := t.chans, waits := t.waits, granules := t.granules, fc := t.fc,
                   host := t.host, sent := t.sent, bridge := t.bridge, retire := t.retire, flash := t.flash })

/-- DMA_START, DMA_CANCEL, DMA_RESUME, DMA_CLEAR (R249, R263, R265 to R268, R270). -/
def Obligations.DmaStartStop : Prop :=
  (∀ (s : State) (src : Src) (c : Nat), meets s src (dmReg c 0) = .here → (isApgil src = true ∨ chanCtx s c = none) →
    (chanFree (chanOf s c) = true → ∀ s1, s1 = setChan s c { chanOf s c with
        st := .running, code := stOK, pc := 4, pos := [], loops := [], move := none, moves := 0, movesFull := 0
        resuming := false } →
      (∀ ws, chanWords s1 c 0 4 = some ws →
        (∀ a, chanReset s1 c 0 4 = some a → ∃ t, exec (.dmaStart src c) s = .next t ∧
          (chanOf t c).st = .stopping ∧ (chanOf t c).code = stRESET ∧
          t.fc = collected s 0x107 stRESET (80 + c) (chanCtx s c) a ∧
          (∀ k, k ≠ c → chanOf t k = chanOf s k) ∧ t = { s with chans := t.chans, waits := t.waits, fc := t.fc }) ∧
        (chanReset s1 c 0 4 = none → (headerGood ws && checkwordGood s1 c) = true → exec (.dmaStart src c) s = .next s1) ∧
        (chanReset s1 c 0 4 = none → (headerGood ws && checkwordGood s1 c) = false → ∃ t, exec (.dmaStart src c) s = .next t ∧
          (chanOf t c).st = .stopping ∧ (chanOf t c).code = stCHECK ∧
          t.fc = collected s 0x309 stCHECK (80 + c) (chanCtx s c) 0 ∧
          (∀ k, k ≠ c → chanOf t k = chanOf s k) ∧ t = { s with chans := t.chans, waits := t.waits, fc := t.fc })) ∧
      (chanWords s1 c 0 4 = none → ∃ t, exec (.dmaStart src c) s = .next t ∧ (chanOf t c).st = .faulted ∧
        (chanOf t c).faultAddr = chanProg s c ∧ (chanOf t c).faultFetch = true ∧
        word t (iommuBase + 0x20) = satInc (word s (iommuBase + 0x20)) ∧
        (∀ key, key ≠ iommuBase + 0x20 → word t key = word s key) ∧
        (∀ k, k ≠ c → chanOf t k = chanOf s k) ∧ t = { s with regs := t.regs, chans := t.chans, fc := t.fc })) ∧
    (chanFree (chanOf s c) = false → exec (.dmaStart src c) s = .next (setWbit s (dmReg c 4) 17 true)) ∧
    (chanBusy (chanOf s c) = true → ∃ t, exec (.dmaCancel src c) s = .next t ∧ (chanOf t c).st = .stopping ∧
      (chanOf t c).code = stCANCELLED ∧ (chanOf t c).move = none ∧ (chanOf t c).bursts = (chanOf s c).bursts ∧
      t.waits = s.waits.filter (fun x => x.who ≠ 80 + c) ∧
      (∀ l, l < 256 → lineChan s l = some c → lineCredit t l = 0) ∧
      (∀ key, (∀ l, l < 256 → key ≠ lineReg l 4) → word t key = word s key) ∧
      (∀ k, k ≠ c → chanOf t k = chanOf s k) ∧
      t = { s with regs := t.regs, chans := t.chans, waits := t.waits, granules := t.granules }) ∧
    (chanBusy (chanOf s c) = false → exec (.dmaCancel src c) s = .next s) ∧
    ((chanOf s c).st = .faulted → exec (.dmaResume src c) s = .next (setChan s c { chanOf s c with
      st := .running
      resuming := true
      move := (chanOf s c).move.map (fun m => if (chanOf s c).pos = [] then m
        else { m with cur := (chanOf s c).pos, issuedAll := false }) })) ∧
    ((chanOf s c).st ≠ .faulted → exec (.dmaResume src c) s = .next s ∧ exec (.dmaAbort src c) s = .next s) ∧
    ((chanOf s c).st = .error → exec (.dmaClear src c) s = .next (setChan s c { chanOf s c with st := .idle, fault := false })) ∧
    ((chanOf s c).st ≠ .error → exec (.dmaClear src c) s = .next s)) ∧
  (∀ (s : State) (src : Src) (c : Nat), meets s src (dmReg c 0) = .here → isApgil src = false → chanCtx s c ≠ none →
    ∃ t, exec (.dmaStart src c) s = .next t ∧ exec (.dmaCancel src c) s = .next t ∧ exec (.dmaResume src c) s = .next t ∧
      exec (.dmaAbort src c) s = .next t ∧ exec (.dmaClear src c) s = .next t ∧
      t.fc = collected s 0x104 0 (srcIndex src) (srcCtx s src) (dmReg c 0) ∧ t = { s with fc := t.fc })

/-- R264: the abort of a faulted channel. -/
def Obligations.DmaAbort : Prop :=
  ∀ (s : State) (src : Src) (c : Nat), isApgil src = true → meets s src (dmReg c 0) = .here → (chanOf s c).st = .faulted →
    ∃ t, exec (.dmaAbort src c) s = .next t ∧
      chanOf t c = { chanOf s c with st := .stopping, code := stPAGE, move := none, resuming := false } ∧
      (∀ k, k ≠ c → chanOf t k = chanOf s k) ∧ t.mem = s.mem ∧ t.flags = s.flags ∧ t.cores = s.cores ∧ t.regs = s.regs ∧
      t = { s with chans := t.chans, waits := t.waits } ∧
      ((chanOf s c).bursts = [] → ∃ u, exec (.dmaStopDone c) t = .next u ∧ (chanOf u c).st = .error ∧ (chanOf u c).code = stPAGE ∧
        (chanOf u c).fault = true ∧ u.flags = s.flags)

/-- MOVE, DMA_LOOP, DMA_WAIT, DMA_SIGNAL (R26, R35, R250 to R253, R257, R261, R263, R265). A program word that is no instruction is reported
after what its fetch met (`s1`). -/
def Obligations.DmaInstructions : Prop :=
  (∀ (s : State) (c : Nat) (ws : List Word), chanRuns s c = true → dmaRec s c = .words ws →
    (fld (ws.getD 0 0) 3 0 = 1 →
      ((mOverlaps (moveOf (chanOf s c) ws 0) && !mEmpty (moveOf (chanOf s c) ws 0)) = false ∨
        ((chanPieces s c false (pagesOf (moveOf (chanOf s c) ws 0).src (mSize (moveOf (chanOf s c) ws 0) 0))).2 = none ∧
          (chanPieces s c true (pagesOf (moveOf (chanOf s c) ws 0).dst (mSize (moveOf (chanOf s c) ws 0) 0))).2 = none) →
        ∃ t f, f < 3 ∧ exec (.move c) s = .next t ∧ (chanOf t c).move = some (moveOf (chanOf s c) ws f) ∧
          (chanOf t c).moves = (chanOf s c).moves + 1 ∧ (chanOf t c).st = .running ∧ (chanOf t c).pc = (chanOf s c).pc ∧
          (fld (ws.getD 0 0) 17 16 = 0 → f = 0 ∧ t.free = s.free) ∧
          (∀ k, k ≠ c → chanOf t k = chanOf s k) ∧ t = { s with chans := t.chans, free := t.free }) ∧
      (∀ a, mOverlaps (moveOf (chanOf s c) ws 0) = true → mEmpty (moveOf (chanOf s c) ws 0) = false →
        (chanPieces s c false (pagesOf (moveOf (chanOf s c) ws 0).src (mSize (moveOf (chanOf s c) ws 0) 0))).2 = some a →
        ∃ t, exec (.move c) s = .next t ∧ (chanOf t c).st = .faulted ∧ (chanOf t c).faultAddr = a ∧
          (chanOf t c).faultWrite = false ∧ (∀ k, k ≠ c → chanOf t k = chanOf s k) ∧ t = { s with
                                                                                                  free := t.free,
                                                                                                  regs := t.regs,
                                                                                                  chans := t.chans,
                                                                                                  fc := t.fc })) ∧
    (fld (ws.getD 0 0) 3 0 = 2 →
      (fld (ws.getD 1 0) 15 0 = 0 →
        exec (.dmaLoop c) s = .next (setChan s c { dmaNext 5 (chanOf s c) ((chanOf s c).pc + ws.length) with resuming := false })) ∧
      (fld (ws.getD 1 0) 15 0 ≠ 0 →
        exec (.dmaLoop c) s = .next (setChan s c { chanOf s c with
          pc := (chanOf s c).pc + ws.length
          resuming := false
          loops := { level := fld (ws.getD 0 0) 5 4, body := (chanOf s c).pc + ws.length,
                     stop := (chanOf s c).pc + ws.length + fld (ws.getD 1 0) 15 0, count := fld (ws.getD 0 0) 23 8 + 1, iter := 0,
                     steps := (ws.drop 2).map (fun y => (fld y 2 0, sext 24 (fld y 31 8))) } :: (chanOf s c).loops }))) ∧
    (fld (ws.getD 0 0) 3 0 = 3 →
      ((flagAllowed s (some ((chanCtx s c).getD 64)) (fld (ws.getD 0 0) 31 16) &&
          condMet (bitOf (ws.getD 0 0) 4) (flagOf s (fld (ws.getD 0 0) 31 16)) (ws.getD 1 0)) = true →
        exec (.dmaWait c) s = .next (setChan s c (dmaNext 5 (chanOf s c) ((chanOf s c).pc + 2)))) ∧
      ((flagAllowed s (some ((chanCtx s c).getD 64)) (fld (ws.getD 0 0) 31 16) &&
          condMet (bitOf (ws.getD 0 0) 4) (flagOf s (fld (ws.getD 0 0) 31 16)) (ws.getD 1 0)) = false →
        ∃ t, exec (.dmaWait c) s = .next t ∧ chanOf t c = { chanOf s c with st := .waiting, waitFrom := s.clk.up } ∧
          t.waits = s.waits.filter (fun x => x.who ≠ 80 + c) ++
            [{ who := 80 + c, flag := fld (ws.getD 0 0) 31 16, eq := bitOf (ws.getD 0 0) 4, value := ws.getD 1 0,
               start := s.clk.up, expiry := s.clk.up + wfld s (dmReg c 0x18) 23 0 * 1000,
               granted := flagAllowed s (some ((chanCtx s c).getD 64)) (fld (ws.getD 0 0) 31 16) }] ∧
          (∀ k, k ≠ c → chanOf t k = chanOf s k) ∧ t = { s with chans := t.chans, waits := t.waits })) ∧
    (fld (ws.getD 0 0) 3 0 = 4 →
      ((chanOf s c).bursts ≠ [] → exec (.dmaSignal c) s = .next s) ∧
      ((chanOf s c).bursts = [] → ∃ t, exec (.dmaSignal c) s = .next t ∧
        chanOf t c = dmaNext 5 (chanOf s c) ((chanOf s c).pc + 2) ∧
        (flagNow s (.dma c) (fld (ws.getD 0 0) 31 16) → flagOf t (fld (ws.getD 0 0) 31 16) =
          (if bitOf (ws.getD 0 0) 4 then flagOf s (fld (ws.getD 0 0) 31 16) + ws.getD 1 0 else ws.getD 1 0)) ∧
        (∀ k, k ≠ fld (ws.getD 0 0) 31 16 → flagOf t k = flagOf s k) ∧ t = { s with clk := t.clk,
                                                                                    tiles := t.tiles,
                                                                                    cores := t.cores,
                                                                                    chans := t.chans,
                                                                                    bru := t.bru,
                                                                                    flags := t.flags,
                                                                                    waits := t.waits,
                                                                                    updates := t.updates,
                                                                                    queues := t.queues,
                                                                                    fc := t.fc }))) ∧
  (∀ (s s1 : State) (c : Nat), chanRuns s c = true → dmaRec s c = .bad →
    s1 = (match chanAddr s c false (chanProg s c + 4 * (chanOf s c).pc) with | some a => (engineRead s (.dma c) a 4).1 | none => s) →
    ∃ t, exec (.move c) s = .next t ∧ exec (.dmaLoop c) s = .next t ∧ exec (.dmaWait c) s = .next t ∧
      exec (.dmaSignal c) s = .next t ∧ (chanOf t c).st = .stopping ∧ (chanOf t c).code = stCHECK ∧
      t.fc = collected s1 0x309 stCHECK (80 + c) (chanCtx s c) (chanOf s c).pc ∧
      (∀ k, k ≠ c → chanOf t k = chanOf s k) ∧ t = { s1 with chans := t.chans, waits := t.waits, fc := t.fc }) ∧
  (∀ (s : State) (c a : Nat), chanRuns s c = true → dmaRec s c = .reset a →
    ∃ t, exec (.move c) s = .next t ∧ exec (.dmaLoop c) s = .next t ∧ exec (.dmaWait c) s = .next t ∧
      exec (.dmaSignal c) s = .next t ∧ exec (.dmaTranslationFault c) s = .next t ∧ (chanOf t c).st = .stopping ∧
      (chanOf t c).code = stRESET ∧ t.fc = collected s 0x107 stRESET (80 + c) (chanCtx s c) a ∧
      (∀ k, k ≠ c → chanOf t k = chanOf s k) ∧ t = { s with chans := t.chans, waits := t.waits, fc := t.fc }) ∧
  (∀ (s : State) (c a : Nat), chanRuns s c = true → dmaRec s c = .fault a →
    ∃ t, exec (.move c) s = .next t ∧ exec (.dmaLoop c) s = .next t ∧ exec (.dmaWait c) s = .next t ∧
      exec (.dmaSignal c) s = .next t ∧ exec (.dmaTranslationFault c) s = .next t ∧ (chanOf t c).st = .faulted ∧
      (chanOf t c).faultAddr = a ∧ (chanOf t c).faultFetch = true ∧ (chanOf t c).pc = (chanOf s c).pc ∧
      (∀ k, k ≠ c → chanOf t k = chanOf s k) ∧ t = { s with regs := t.regs, chans := t.chans, fc := t.fc })

/-- R259: an empty MOVE. -/
def Obligations.EmptyMove : Prop :=
  ∀ (s : State) (c : Nat) (ws : List Word) (m : MoveWork), chanRuns s c = true → dmaRec s c = .words ws →
    fld (ws.getD 0 0) 3 0 = 1 → m = moveOf (chanOf s c) ws 0 →
    (fld (ws.getD 6 0) 23 0 = 0 ∨ (1 ≤ fld (ws.getD 0 0) 5 4 ∧ fld (ws.getD 7 0) 15 0 = 0) ∨
      (2 ≤ fld (ws.getD 0 0) 5 4 ∧ fld (ws.getD 7 0) 31 16 = 0) ∨ (3 ≤ fld (ws.getD 0 0) 5 4 ∧ fld (ws.getD 8 0) 15 0 = 0)) →
    (mBarrier m = true → (chanOf s c).bursts = []) → (∀ b ∈ (chanOf s c).bursts, b.got = true) →
    (mEvent m = 3 → pulseFits s (m.target % 256) 1 = true) →
    ∃ t u, exec (.move c) s = .next t ∧ exec (.moveComplete c) t = .next u ∧ t.mem = s.mem ∧ u.mem = s.mem ∧
      t.bus = s.bus ∧ u.bus = s.bus ∧ (chanOf u c).move = none ∧ (chanOf u c).movesFull = (chanOf s c).movesFull ∧
      (mEvent m = 1 → flagNow s (.dma c) m.target →
        flagOf u m.target = flagOf s m.target + 1 ∧ (∀ f, f ≠ m.target → flagOf u f = flagOf s f)) ∧
      (mEvent m = 2 → ∀ k, chanCore s c (m.target / 16 % 8) = some k → heldInReset s (.core k) = false →
        ¬ ((coreOf s k).st = .waiting ∧ (coreOf s k).waitEv = some (m.target % 8)) →
        tget 0 (coreOf s k).events (m.target % 8) ≠ 0xFFFF →
        tget 0 (coreOf u k).events (m.target % 8) = tget 0 (coreOf s k).events (m.target % 8) + 1) ∧
      (mEvent m = 3 → lineCredit u (m.target % 256) = lineCredit s (m.target % 256) + 1)

/-- BURST_ISSUE, BURST_READ_RETURN, BURST_WRITE_ANSWER (R23, R26, R136, R246 to R248, R253 to R256, R261, R263, R265, R274, R275). `s3` is the
state once the burst's data is written. -/
def Obligations.DmaBursts : Prop :=
  (∀ (s : State) (k : Nat), heldInReset s (.dma k) = false → clusterTags s k < 512 →
    (findBelow (fun d => requesterReady (pacedWaits s k) k ((tget 0 s.turn k + d) % 50)) 50 = none →
      exec (.burstIssue k) s = .next (pacedWaits s k)) ∧
    (∀ d, findBelow (fun d => requesterReady (pacedWaits s k) k ((tget 0 s.turn k + d) % 50)) 50 = some d →
      (∀ m c, (tget 0 s.turn k + d) % 50 < 32 → c = k * 32 + (tget 0 s.turn k + d) % 50 → (chanOf s c).move = some m →
        ((chanPieces s c false (burstNeeds m).1).2 = none → (chanPieces s c true (burstNeeds m).2).2 = none →
          (chanPieces s c false (mPieces m m.cur).1).2 = none → (chanPieces s c true (mPieces m m.cur).2).2 = none →
          ∃ t, exec (.burstIssue k) s = .next t ∧ tget 0 t.turn k = ((tget 0 s.turn k + d) % 50 + 1) % 50 ∧
            (chanOf t c).bursts = (chanOf s c).bursts ++
              [{ pos := m.cur, reads := (chanPieces s c false (mPieces m m.cur).1).1,
                 writes := (chanPieces s c true (mPieces m m.cur).2).1, got := false, old := false,
                 pages := (((mPieces m m.cur).1 ++ (mPieces m m.cur).2).map (fun q => q.1 % 2 ^ 40 / 4096)).eraseDups }] ∧
            (∃ m2, (chanOf t c).move = some m2 ∧ m2.cur = (mAdvance m m.cur).getD m.cur ∧
              m2.issuedAll = (mAdvance m m.cur).isNone ∧ m2.words = m.words) ∧
            (m.redo = 0 → mPaced m = true → lineCredit t (mLine m) = lineCredit s (mLine m) - 1) ∧
            (∀ j, j / 32 ≠ k → chanOf t j = chanOf s j) ∧ t = { s with regs := t.regs, chans := t.chans, turn := t.turn }) ∧
        (∀ a, (chanPieces s c false (burstNeeds m).1).2 = some a →
          ∃ t, exec (.burstIssue k) s = .next t ∧ (chanOf t c).st = .faulted ∧ (chanOf t c).faultAddr = a ∧
            (chanOf t c).faultWrite = false ∧ (∀ j, j / 32 ≠ k → chanOf t j = chanOf s j) ∧
            t = { s with regs := t.regs, chans := t.chans, turn := t.turn, fc := t.fc })) ∧
      (∀ n f, 32 ≤ (tget 0 s.turn k + d) % 50 → n = (clusterTiles k).getD ((tget 0 s.turn k + d) % 50 - 32) 0 →
        tileFetch s n = some f →
        (f.tags < 32 → fetchFault s n f f.issued (fetchBurst f) = none →
          ∃ t, exec (.burstIssue k) s = .next t ∧ tget 0 t.turn k = ((tget 0 s.turn k + d) % 50 + 1) % 50 ∧
            tileOf t n = { tileOf s n with fetch := (tileOf s n).fetch.map (fun h => if h = f then
              { f with issued := f.issued + fetchBurst f, tags := f.tags + 1 } else h) } ∧
            (∀ j, j ≠ n → tileOf t j = tileOf s j) ∧ t = { s with tiles := t.tiles, chans := t.chans, turn := t.turn }) ∧
        (∀ o, f.tags < 32 → fetchFault s n f f.issued (fetchBurst f) = some o →
          ∃ t, exec (.burstIssue k) s = .next t ∧
            tileOf t n = { tileOf s n with fetch := (tileOf s n).fetch.map (fun h => if h = f then { f with faulted := true } else h) } ∧
            t.fc = collected s 0x205 stPAGE n (tileCtx s n) (fetchIo f o) ∧
            (∀ j, j ≠ n → tileOf t j = tileOf s j) ∧
            t = { s with regs := t.regs, tiles := t.tiles, chans := t.chans, turn := t.turn, fc := t.fc }) ∧
        (f.tags = 32 → ∃ t, exec (.burstIssue k) s = .next t ∧ (∀ h ∈ (tileOf t n).fetch, h.tags ≤ 32 ∨ h ∈ (tileOf s n).fetch) ∧
          (∀ j, j ≠ n → tileOf t j = tileOf s j) ∧
          t = { s with free := t.free, regs := t.regs, tiles := t.tiles, chans := t.chans, turn := t.turn, fc := t.fc })))) ∧
  (∀ (s : State) (k : Nat), (heldInReset s (.dma k) = true ∨ 512 ≤ clusterTags s k) → exec (.burstIssue k) s = .next s) ∧
  (∀ (s s0 : State) (c : Nat) (ecc : EccResult) (b : Burst) (m : MoveWork) (u : Bool),
    (chanOf s c).bursts.find? (fun b => !b.got) = some b → (chanOf s c).move = some m → (chanOf s c).st ≠ .stopping →
    burstEcc c b.reads ecc s = (s0, u) →
    (∀ s1 s2 s3 bs out, (u = false ∨ mCodec m ≠ 0) → burstRead c b.reads s0 = (s1, bs, false) →
      burstData s1 c m b u bs = (s2, out) → s3 = burstWrite c b.writes out s2 →
      ∃ t, exec (.burstReadReturn c ecc .ok) s = .next t ∧ (ecc ≠ .uncorrectable → ∀ k, chanOf s3 k = chanOf s k) ∧
        chanOf t c = { chanOf s3 c with
          bytes := ((chanOf s3 c).bytes + out.length) % 2 ^ 64
          bursts := (chanOf s3 c).bursts.map (fun q => if q = b then { q with got := true, nack := burstNacked s2 c b } else q) } ∧
        (∀ k, k ≠ c → chanOf t k = chanOf s3 k) ∧ t = { s3 with chans := t.chans, power := t.power }) ∧
    (u = true → mCodec m = 0 → chanBusy (chanOf s0 c) = true →
      ∃ t, exec (.burstReadReturn c ecc .ok) s = .next t ∧ (chanOf t c).st = .stopping ∧ (chanOf t c).code = stCHECK ∧
        (∀ k, k ≠ c → chanOf t k = chanOf s0 k) ∧ t = { s0 with chans := t.chans, waits := t.waits }) ∧
    (∀ s1 bs, (u = false ∨ mCodec m ≠ 0) → burstRead c b.reads s0 = (s1, bs, true) → chanBusy (chanOf s0 c) = true →
      ∃ t, exec (.burstReadReturn c ecc .ok) s = .next t ∧ (chanOf t c).st = .stopping ∧ (chanOf t c).code = stRESET ∧
        (∀ k, k ≠ c → chanOf t k = chanOf s0 k) ∧ t = { s1 with chans := t.chans, waits := t.waits })) ∧
  (∀ (s : State) (c : Nat) (ecc : EccResult) (ans : Answer) (b : Burst),
    (chanOf s c).bursts.find? (fun b => !b.got) = some b →
    ((chanOf s c).move = none ∨ (chanOf s c).st = .stopping) → exec (.burstReadReturn c ecc ans) s = .next (dropBurst s c b)) ∧
  (∀ (s : State) (c : Nat) (ecc : EccResult) (b : Burst) (m : MoveWork), chanBusy (chanOf s c) = true →
    (chanOf s c).bursts.find? (fun b => !b.got) = some b → (chanOf s c).move = some m →
    (∃ t, exec (.burstReadReturn c ecc .resetInProgress) s = .next t ∧ (chanOf t c).st = .stopping ∧
      (chanOf t c).code = stRESET ∧ (chanOf t c).bursts = (chanOf s c).bursts.erase b ∧
      t.fc = collected s 0x107 stRESET (80 + c) (chanCtx s c) (firstAddr b.reads) ∧
      t = { s with chans := t.chans, waits := t.waits, fc := t.fc }) ∧
    (∃ t, exec (.burstReadReturn c ecc .pageFault) s = .next t ∧ (chanOf t c).st = .stopping ∧ (chanOf t c).code = stPAGE ∧
      t.fc = collected s 0x206 stPAGE (80 + c) (chanCtx s c) (firstAddr b.reads) ∧
      t = { s with chans := t.chans, waits := t.waits, fc := t.fc }) ∧
    (∃ t, exec (.burstReadReturn c ecc .windowClosed) s = .next t ∧ (chanOf t c).st = .stopping ∧
      (chanOf t c).code = stWINDOW)) ∧
  (∀ (s : State) (c : Nat) (b : Burst), (chanOf s c).bursts.find? (fun b => b.got) = some b →
    (b.nack = false → exec (.burstWriteAnswer c .ok) s = .next (dropBurst s c b)) ∧
    (b.nack = false → chanBusy (chanOf s c) = true → ∃ t, exec (.burstWriteAnswer c .windowClosed) s = .next t ∧
      (chanOf t c).st = .stopping ∧ (chanOf t c).code = stWINDOW ∧ (∀ k, k ≠ c → chanOf t k = chanOf s k)) ∧
    (∀ ans, (b.nack = true ∨ ans = .resetInProgress) → ∃ t, exec (.burstWriteAnswer c ans) s = .next t ∧ wbit t (dmReg c 4) 18 = true ∧
      word t (dmReg c 0x48) = satInc (word s (dmReg c 0x48)) ∧
      (b.old = false → ∀ m, (chanOf s c).move = some m → (chanOf t c).move = some { m with nacked := true }) ∧
      t.fc = collected s 0x107 stRESET (80 + c) (chanCtx s c) (firstAddr b.writes) ∧
      (∀ key, key ≠ dmReg c 4 → key ≠ dmReg c 0x48 → word t key = word s key) ∧
      (∀ k, k ≠ c → chanOf t k = chanOf s k) ∧ t = { s with regs := t.regs, chans := t.chans, fc := t.fc }))

/-- MOVE_COMPLETE, DMA_TRANSLATION_FAULT, DMA_PROGRAM_END, DMA_STOP_DONE (R249, R252, R255, R256, R259, R263, R265, R266, R268). A channel that
ends is none that Apgil starts for a job whose tiles have just been loaded. -/
def Obligations.DmaEnds : Prop :=
  (∀ (s : State) (c : Nat) (m : MoveWork), (chanOf s c).move = some m → (chanOf s c).st = .running →
    heldInReset s (.dma (c / 32)) = false → m.issuedAll = true →
    (if mBarrier m then (chanOf s c).bursts = [] else (chanOf s c).bursts.all (fun b => b.got) = true) →
    (mBarrier m = true → m.nacked = true → ∃ t, exec (.moveComplete c) s = .next t ∧ (chanOf t c).st = .stopping ∧
      (chanOf t c).code = stRESET ∧ t = { s with chans := t.chans, waits := t.waits }) ∧
    ((mBarrier m && m.nacked) = false → (mEvent m = 3 → pulseFits s (m.target % 256) 1 = true) →
      ∃ t, exec (.moveComplete c) s = .next t ∧ t.mem = s.mem ∧
        chanOf t c = dmaNext 5 { chanOf s c with move := none, bursts := (chanOf s c).bursts.map (fun b => { b with old := true }) }
          ((chanOf s c).pc + 16) ∧
        (mEvent m = 1 → flagNow s (.dma c) m.target → flagOf t m.target = flagOf s m.target + 1) ∧
        (∀ f, (mEvent m ≠ 1 ∨ f ≠ m.target % 65536) → flagOf t f = flagOf s f) ∧ t = { s with free := t.free,
                                                                                              regs := t.regs,
                                                                                              clk := t.clk,
                                                                                              tiles := t.tiles,
                                                                                              cores := t.cores,
                                                                                              chans := t.chans,
                                                                                              bru := t.bru,
                                                                                              flags := t.flags,
                                                                                              waits := t.waits,
                                                                                              updates := t.updates,
                                                                                              queues := t.queues,
                                                                                              fc := t.fc }) ∧
    ((mBarrier m && m.nacked) = false → mEvent m = 3 → pulseFits s (m.target % 256) 1 = false →
      exec (.moveComplete c) s = .next s)) ∧
  (∀ (s : State) (c a : Nat) (m : MoveWork), (chanOf s c).move = some m → (chanOf s c).st = .running →
    heldInReset s (.dma (c / 32)) = false → m.issuedAll = false →
    (chanPieces s c false (mPieces m m.cur).1).2 = some a →
    ∃ t, exec (.dmaTranslationFault c) s = .next t ∧ (chanOf t c).st = .faulted ∧ (chanOf t c).faultAddr = a ∧
      (chanOf t c).faultWrite = false ∧
      (chanOf t c).pos = (match (chanOf s c).bursts.filter (fun b => !b.old) with | b :: _ => b.pos | [] => m.cur) ∧
      word t (iommuBase + 0x20) = satInc (word s (iommuBase + 0x20)) ∧
      (∀ key, key ≠ iommuBase + 0x20 → word t key = word s key) ∧
      (∀ k, k ≠ c → chanOf t k = chanOf s k) ∧ t = { s with regs := t.regs, chans := t.chans, fc := t.fc }) ∧
  (∀ (s : State) (c : Nat), chanRuns s c = true → dmaRec s c = .ended → (chanOf s c).bursts = [] →
    (∀ k j, jobOf s k = some j → j.loading = true → c ∉ jobChans s j false) →
    ∃ t, exec (.dmaProgramEnd c) s = .next t ∧ (chanOf t c).st = .done ∧
      (chanOf t c).code = (if 1 ≤ (chanOf s c).moves ∧ (chanOf s c).movesFull = 0 then stEMPTY else stOK) ∧
      t = { s with free := t.free, regs := t.regs, mem := t.mem, bus := t.bus, latches := t.latches, tiles := t.tiles,
                   cores := t.cores, chans := t.chans, waits := t.waits, granules := t.granules, fc := t.fc, host := t.host,
                   sent := t.sent, bridge := t.bridge }) ∧
  (∀ (s : State) (c : Nat), (chanOf s c).st = .stopping → (chanOf s c).bursts = [] →
    (∀ k j, jobOf s k = some j → j.loading = true → c ∉ jobChans s j false) →
    ∃ t, exec (.dmaStopDone c) s = .next t ∧
      (if (chanOf s c).code = stCANCELLED then (chanOf t c).st = .done else (chanOf t c).st = .error ∧ (chanOf t c).fault = true) ∧
      (chanOf t c).code = (chanOf s c).code ∧
      t = { s with free := t.free, regs := t.regs, mem := t.mem, bus := t.bus, latches := t.latches, tiles := t.tiles,
                   cores := t.cores, chans := t.chans, waits := t.waits, granules := t.granules, fc := t.fc, host := t.host,
                   sent := t.sent, bridge := t.bridge })

/-- GRANULE_GRANT, GRANULE_RELEASE, GRANULE_HOLD_EXPIRY, DIRTY_GRANULE_ACCESS, SCRUB_START, SCRUB_DONE (R287 to R294). -/
def Obligations.Granules : Prop :=
  (∀ (s : State) (g c : Nat) (keep : Bool), granuleExists g = true → (contextOf s c).isSome = true →
    ∃ t, exec (.granuleGrant g c keep) s = .next t ∧ (∀ k, k ≠ g → granOf t k = granOf s k) ∧ t = { s with granules := t.granules } ∧
      ((granOf s g).st = .clean → (granOf t g).st = .owned ∧ (granOf t g).owner = some c) ∧
      ((granOf s g).st = .dirty → (granOf s g).owner = some c → keep = true →
        (∀ at', (granOf s g).hold = some (.keep c at') → (granOf t g).st = .owned ∧ (granOf t g).owner = some c)) ∧
      ((granOf s g).st = .dirty → (keep = false ∨ (granOf s g).owner ≠ some c) →
        granOf t g = { granOf s g with hold := none, grantWait := some c }) ∧
      ((granOf s g).st = .scrubbing → granOf t g = { granOf s g with grantWait := some c }) ∧
      ((granOf s g).st = .owned → granOf t g = granOf s g)) ∧
  (∀ (s : State) (g : Nat) (how : ReleaseHow), (∀ c, (granOf s g).st = .owned → (granOf s g).owner = some c →
      exec (.granuleRelease g how) s = .next (setGran s g { granOf s g with
        st := .dirty
        dirtyAt := s.clk.up
        hold := holdFor s c (match how with | .normal keep => .ended keep | .cancelled => .killed) })) ∧
    ((granOf s g).st ≠ .owned → exec (.granuleRelease g how) s = .next s)) ∧
  (∀ (s : State) (g c at' : Nat), (granOf s g).hold = some (.snapshot c at') →
    (at' ≤ s.clk.up → exec (.granuleHoldExpiry g) s = .next (setGran s g { granOf s g with hold := none })) ∧
    (s.clk.up < at' → exec (.granuleHoldExpiry g) s = .next s)) ∧
  (∀ (s : State) (src : Src) (a g : Nat) (w : Bool), meets s src a = .dirty g →
    ∃ t, exec (.dirtyGranuleAccess src a w) s = .next t ∧ t.bus = some { src := src, status := stOK, data := 0 } ∧
      t.fc = collected s 0x105 0 (srcIndex src) (srcCtx s src) a ∧ t = { s with bus := t.bus, fc := t.fc }) ∧
  (∀ (s : State) (g : Nat),
    (scrubBusy s (scrubUnit g) = false → nextScrub s (scrubUnit g) = some g → heldInReset s (granuleDomain g) = false →
      exec (.scrubStart g) s = .next (setGran s g { granOf s g with st := .scrubbing })) ∧
    ((scrubBusy s (scrubUnit g) = true ∨ nextScrub s (scrubUnit g) ≠ some g ∨ heldInReset s (granuleDomain g) = true) →
      exec (.scrubStart g) s = .next s)) ∧
  (∀ (s : State) (g : Nat), (granOf s g).st = .scrubbing →
    ∃ t, exec (.scrubDone g) s = .next t ∧
      (∀ a, (granuleRange g).1 ≤ a → a < (granuleRange g).1 + (granuleRange g).2 → byteAt t a = 0) ∧
      (∀ a, a < (granuleRange g).1 ∨ (granuleRange g).1 + (granuleRange g).2 ≤ a → byteAt t a = byteAt s a) ∧
      (∀ k, k ≠ g → granOf t k = granOf s k) ∧
      (∀ c, (granOf s g).grantWait = some c → (contextOf s c).isSome = true →
        (granOf t g).st = .owned ∧ (granOf t g).owner = some c) ∧
      ((granOf s g).grantWait = none → (granOf t g).st = .clean ∧ (granOf t g).owner = none) ∧
      t = { s with mem := t.mem, granules := t.granules }) ∧
  (∀ (s : State) (g : Nat), (granOf s g).st ≠ .scrubbing → exec (.scrubDone g) s = .next s)

/-- PATROL_SCRUB_READ, SELF_REFRESH_ENTRY and EXIT, DDR_CHANNEL_FAILURE, SHM_MODE_CHANGE_DONE, SHM_BANK_POWER_UP and DOWN,
IOMMU_INVALIDATE and IOMMU_INVALIDATE_DONE (R272 to R277, R281, R282, R286, R445). -/
def Obligations.MemoryUnits : Prop :=
  (∀ (s : State) (k a : Nat) (ecc : EccResult), k < 4 → (ddrOf s k).failed = false → heldInReset s (.ddr k) = false →
    a = lineAddr k (ddrOf s k).patrol →
    ((ddrOf s k).selfRefresh = true → exec (.patrolScrubRead k ecc) s = .next s) ∧
    ((ddrOf s k).selfRefresh = false → ∃ t, exec (.patrolScrubRead k ecc) s = .next t ∧
      (ddrOf t k).patrol = ((ddrOf s k).patrol + 1) % (s.ddrBytes / 256) ∧ (∀ j, j ≠ k → ddrOf t j = ddrOf s j) ∧
      t = { s with ddr := t.ddr, poison := t.poison, fc := t.fc } ∧
      (a / 64 ∈ s.poison → t.poison = s.poison ∧
        t.fc = collected s 0x204 0 (1128 + k) none (a % 2 ^ 40 + 2 ^ 48)) ∧
      (a / 64 ∉ s.poison → ecc = .uncorrectable → t.poison = s.poison ++ [a / 64] ∧
        t.fc = collected s 0x204 0 (1128 + k) none (a % 2 ^ 40)) ∧
      (a / 64 ∉ s.poison → ecc = .corrected → t.poison = s.poison ∧ t.fc = collected s 0x203 0 (1128 + k) none a ∧
        (15 ≤ ((tget [] (ddrOf s k).rows (ddrRow a)).filter (fun x => decide (s.clk.up < x + 86400 * 1000000000))).length →
          ddrRow a ∈ (ddrOf t k).rowsKept)) ∧
      (a / 64 ∉ s.poison → ecc = .clean → t.poison = s.poison ∧ t.fc = s.fc))) ∧
  (∀ (s : State) (k : Nat), exec (.selfRefreshEntry k) s = .next (setDdr s k { ddrOf s k with selfRefresh := true }) ∧
    exec (.selfRefreshExit k) s = .next (setDdr s k { ddrOf s k with selfRefresh := false })) ∧
  (∀ (s : State) (k : Nat), (ddrOf s k).failed = false →
    ∃ t, exec (.ddrChannelFailure k) s = .next t ∧ (ddrOf t k).failed = true ∧ t.boot.st = .bringup ∧
      t.boot.serviceFailed = true ∧
      (∀ n x, streamOf s n = some x → carries x = true → (contextOf s x.ctx).isSome = true →
        ∀ y, streamOf t n = some y → y.phase = .ended) ∧ t = { s with free := t.free, regs := t.regs,
                                                                      moves := t.moves, leaving := t.leaving,
                                                                      retire := t.retire,
                                                                      mem := t.mem, banks := t.banks,
                                                                      plates := t.plates,
                                                                      colours := t.colours,
                                                                      streams := t.streams, tiles := t.tiles,
                                                                      cores := t.cores, chans := t.chans,
                                                                      bru := t.bru, waits := t.waits,
                                                                      slots := t.slots, queues := t.queues,
                                                                      granules := t.granules, ddr := t.ddr,
                                                                      fc := t.fc, host := t.host,
                                                                      sent := t.sent, bridge := t.bridge,
                                                                      boot := t.boot }) ∧
  (∀ (s : State) (k : Nat), (ddrOf s k).failed = true → exec (.ddrChannelFailure k) s = .next s) ∧
  (∀ (s : State) (n : Nat) (m : ShmMode), (shmOf s n).target = some m →
    (m = .scratch → (shmOf s n).mode ≠ .scratch → ∃ t, exec (.shmModeChangeDone n) s = .next t ∧
      shmOf t n = { mode := m, target := none } ∧
      (∀ g ∈ sliceGranules n, (granOf t g).st = .dirty ∧ (granOf t g).owner = none) ∧
      (∀ g, g ∉ sliceGranules n → granOf t g = granOf s g) ∧ (∀ j, j ≠ n → shmOf t j = shmOf s j) ∧
      t = { s with granules := t.granules, shm := t.shm, poison := t.poison }) ∧
    (m ≠ .scratch → (shmOf s n).mode ≠ .scratch → exec (.shmModeChangeDone n) s =
      .next (setShm s n { mode := m, target := none, lines := (shmOf s n).lines })) ∧
    (m ≠ .scratch → (shmOf s n).mode = .scratch → (∀ g ∈ sliceGranules n, (granOf s g).st = .clean) →
      ∃ t, exec (.shmModeChangeDone n) s = .next t ∧ shmOf t n = { mode := m, target := none } ∧
        (∀ g ∈ sliceGranules n, (granOf t g).st = .off) ∧ (∀ j, j ≠ n → shmOf t j = shmOf s j) ∧ t = { s with
                                                                                                              mem := t.mem,
                                                                                                              granules := t.granules,
                                                                                                              shm := t.shm }) ∧
    (m ≠ .scratch → (shmOf s n).mode = .scratch → (∃ g ∈ sliceGranules n, (granOf s g).st ≠ .clean) →
      exec (.shmModeChangeDone n) s = .next s)) ∧
  (∀ (s : State) (b : Nat), b ∈ s.shmOff → ∃ t, exec (.shmBankPowerUp b) s = .next t ∧ b ∉ t.shmOff ∧
    (granOf t (8192 + b)).st = .dirty ∧ (granOf t (8192 + b)).owner = none ∧
    (∀ a, a < shmBase + b * 0x40000 ∨ shmBase + b * 0x40000 + 0x40000 ≤ a → byteAt t a = byteAt s a) ∧
    (∀ g, g ≠ 8192 + b → granOf t g = granOf s g) ∧ t = { s with free := t.free, mem := t.mem,
                                                                 granules := t.granules, shmOff := t.shmOff }) ∧
  (∀ (s : State) (src : Src) (b : Nat), isApgil src = true → b < 256 → b ∉ s.shmOff → (shmOf s (b / 16)).mode = .scratch →
    (granOf s (8192 + b)).st = .clean → (granOf s (8192 + b)).grantWait = none →
    ∃ t, exec (.shmBankPowerDown src b) s = .next t ∧ b ∈ t.shmOff ∧ (granOf t (8192 + b)).st = .off ∧
      (∀ g, g ≠ 8192 + b → granOf t g = granOf s g) ∧ t = { s with mem := t.mem, granules := t.granules,
                                                                   shmOff := t.shmOff }) ∧
  (∀ (s : State) (src : Src) (v : Word), meets s src (iommuBase + 0x10) = .here → isApgil src = true → s.inval = none →
    ∃ t, exec (.iommuInvalidate src v) s = .next t ∧
      t.inval = some { ctx := fld v 7 0, all := bitOf v 8, page := wfld s (iommuBase + 0x14) 27 0, pages := fld v 31 16 } ∧
      t = { s with inval := t.inval, chans := t.chans, tiles := t.tiles } ∧
      exec .iommuInvalidateDone t =
        .next (if t.chans.all (fun e => e.2.bursts.all (fun b => !b.stale)) && t.tiles.all (fun e => e.2.fetch.all (fun f => !f.stale))
          then { t with inval := none } else t)) ∧
  (∀ (s : State) (src : Src) (v : Word), meets s src (iommuBase + 0x10) = .here → isApgil src = false →
    ∃ t, exec (.iommuInvalidate src v) s = .next t ∧
      t.fc = collected s 0x104 0 (srcIndex src) (srcCtx s src) (iommuBase + 0x10) ∧ t = { s with fc := t.fc })

/-- FLAG_UPDATE, FLAG_WRITE, FLAG_READ, WAIT_EXPIRY, DEADLOCK_CHECK (R296 to R302). -/
def Obligations.FlagsAndWaits : Prop :=
  (∀ (s : State) (src : Src) (f : Nat) (add : Bool) (v w : Word), flagNow s src f → w = (if add then flagOf s f + v else v) →
    ∃ t, exec (.flagUpdate src f add v) s = .next t ∧ flagOf t f = w ∧ (∀ k, k ≠ f → flagOf t k = flagOf s k) ∧
      t.waits = s.waits.filter (fun x => !(decide (x.flag = f) && x.granted && condMet x.eq w x.value)) ∧
      t.clk = { s.clk with updates := s.clk.updates + 1 } ∧
      (∀ n x, n < 72 → x ∈ s.waits → x.who = n → x.flag = f → x.granted = true → condMet x.eq w x.value = true →
        (tileOf s n).st = .waiting → (tileOf t n).st = .running ∧ (tileOf t n).pc = (tileOf s n).pc + 2) ∧ t = { s with
                                                                                                                        clk := t.clk,
                                                                                                                        tiles := t.tiles,
                                                                                                                        cores := t.cores,
                                                                                                                        chans := t.chans,
                                                                                                                        bru := t.bru,
                                                                                                                        flags := t.flags,
                                                                                                                        waits := t.waits,
                                                                                                                        updates := t.updates,
                                                                                                                        queues := t.queues,
                                                                                                                        fc := t.fc }) ∧
  (∀ (s : State) (src : Src) (f c : Nat) (add : Bool) (v : Word), heldInReset s .network = false → s.clk.updates < 8 →
    s.updates = [] → f < 65536 → isApgil src = false → srcCtx s src = some c → c < 64 → flagAllowed s (some c) f = false →
    ∃ t, exec (.flagUpdate src f add v) s = .next t ∧
      t.fc = collected s 0x104 0 (srcIndex src) (some c) (flagBase + 4 * f) ∧ t = { s with fc := t.fc }) ∧
  (∀ (s : State) (src : Src) (f : Nat) (v : Word), meets s src (flagBase + 4 * f) = .here →
    (isApgil src = true → flagNow s src f → ∃ t, exec (.flagWrite src f v) s = .next t ∧ flagOf t f = v ∧
      (∀ k, k ≠ f → flagOf t k = flagOf s k) ∧ t = { s with clk := t.clk, bus := t.bus, tiles := t.tiles,
                                                            cores := t.cores, chans := t.chans, bru := t.bru,
                                                            flags := t.flags, waits := t.waits,
                                                            updates := t.updates, queues := t.queues,
                                                            fc := t.fc }) ∧
    (isApgil src = false → ∃ t, exec (.flagWrite src f v) s = .next t ∧
      t.fc = collected s 0x104 0 (srcIndex src) (srcCtx s src) (flagBase + 4 * f) ∧ t = { s with fc := t.fc })) ∧
  (∀ (s : State) (src : Src) (f : Nat), meets s src (flagBase + 4 * f) = .here →
    (((∃ k, src = .mgmt k) ∨ (∃ c k, src = .dma c ∧ chanCtx s c = some k ∧ flagAllowed s (some k) f = true)) →
      exec (.flagRead src f) s = .next { s with bus := some { src := src, status := stOK, data := flagOf s f } }) ∧
    ((∀ k, src ≠ .mgmt k) → (∀ c k, src = .dma c → chanCtx s c = some k → flagAllowed s (some k) f = false) →
      ∃ t, exec (.flagRead src f) s = .next t ∧ t.bus = some { src := src, status := stOK, data := 0 } ∧
        t.fc = collected s 0x104 0 (srcIndex src) (srcCtx s src) (flagBase + 4 * f) ∧ t = { s with bus := t.bus, fc := t.fc })) ∧
  (∀ (s : State) (who : Nat) (w : WaitEntry), s.waits.find? (fun w => w.who = who) = some w →
    (w.expiry ≤ s.clk.up → ∃ t, exec (.waitExpiry who) s = .next t ∧ (∀ x ∈ t.waits, x.who ≠ who) ∧
      t.fc = collect s.fc s.clk.now s.clk.up
        { code := 0x401, status := stTIMEOUT, src := who, ctx := (srcCtx s (waiterSrc who)).getD noCtx,
          detail := w.value.toNat + (flagOf s w.flag).toNat * 2 ^ 32, extra := w.flag + b2n w.eq * 2 ^ 16 } ∧
      t.checks = s.checks ++ [{ who := who, ctx := srcCtx s (waiterSrc who), flag := some w.flag }] ∧
      (who < 72 → engBusy (tileOf s who).st = true → (tileOf t who).st = .stopping ∧ (tileOf t who).code = stTIMEOUT) ∧
      t = { s with streams := t.streams, tiles := t.tiles, cores := t.cores, chans := t.chans, bru := t.bru,
                   waits := t.waits, checks := t.checks, queues := t.queues, fc := t.fc }) ∧
    (s.clk.up < w.expiry → exec (.waitExpiry who) s = .next s)) ∧
  (∀ (s : State) (who from' us : Nat), s.waits.find? (fun w => w.who = who) = none → plainWait s who = some (from', us) →
    (from' + us * 1000 ≤ s.clk.up → ∃ t detail, exec (.waitExpiry who) s = .next t ∧
      t.fc = collected s 0x401 stTIMEOUT who (srcCtx s (waiterSrc who)) detail ∧
      t.checks = s.checks ++ [{ who := who, ctx := srcCtx s (waiterSrc who), flag := none }] ∧
      (∀ n, waiterSrc who = .core n → (coreOf t n).st = .stopping ∧ (coreOf t n).code = stTIMEOUT) ∧
      (∀ c, waiterSrc who = .dma c → (chanOf t c).st = .stopping ∧ (chanOf t c).code = stTIMEOUT) ∧
      (∀ q, waiterSrc who = .queue q → (queueOf t q).st = .stopped ∧ (queueOf t q).code = stTIMEOUT) ∧
      t = { s with free := t.free, cores := t.cores, chans := t.chans, waits := t.waits, checks := t.checks,
                   queues := t.queues, fc := t.fc }) ∧
    (s.clk.up < from' + us * 1000 → exec (.waitExpiry who) s = .next s)) ∧
  (∀ (s : State) (who : Nat) (c : Check), s.checks.find? (fun c => c.who = who) = some c →
    ((blockedSet { s with checks := s.checks.erase c }
        (((who, c.flag) :: (s.waits.filter (fun w => w.who ≠ who)).map (fun w => (w.who, some w.flag))).length + 1)
        ((who, c.flag) :: (s.waits.filter (fun w => w.who ≠ who)).map (fun w => (w.who, some w.flag)))).any (fun b => b.1 = who) = false →
      exec (.deadlockCheck who) s = .next { s with checks := s.checks.erase c }) ∧
    ((blockedSet { s with checks := s.checks.erase c }
        (((who, c.flag) :: (s.waits.filter (fun w => w.who ≠ who)).map (fun w => (w.who, some w.flag))).length + 1)
        ((who, c.flag) :: (s.waits.filter (fun w => w.who ≠ who)).map (fun w => (w.who, some w.flag)))).any (fun b => b.1 = who) = true →
      ∃ t detail, exec (.deadlockCheck who) s = .next t ∧ t.checks = s.checks.erase c ∧
        t.fc = collected s 0x402 stDEADLOCK who c.ctx detail ∧ t = { s with moves := t.moves, leaving := t.leaving, retire := t.retire,
                                                                            free := t.free, regs := t.regs,
                                                                            mem := t.mem, banks := t.banks,
                                                                            plates := t.plates,
                                                                            colours := t.colours,
                                                                            streams := t.streams,
                                                                            tiles := t.tiles,
                                                                            cores := t.cores,
                                                                            chans := t.chans, bru := t.bru,
                                                                            waits := t.waits,
                                                                            checks := t.checks,
                                                                            slots := t.slots,
                                                                            queues := t.queues,
                                                                            granules := t.granules,
                                                                            fc := t.fc, host := t.host,
                                                                            sent := t.sent,
                                                                            bridge := t.bridge }))

/-- QUEUE_ENABLE, QUEUE_ENTRY_START, LAUNCH_SLOT_ARM, DISARM and FIRE, CONTEXT_CANCEL_WRITE and APPLY (R139, R303, R304, R309 to R316). -/
def Obligations.QueuesAndSlots : Prop :=
  (∀ (s : State) (src : Src) (q : Nat) (v : Word), meets s src (queueReg q 8) = .here → isApgil src = true →
    (bitOf v 31 = true → exec (.queueEnable src q v) s = .next (setWord s (queueReg q 8) (v &&& 0x803F1FFF))) ∧
    (bitOf v 31 = false → ∃ t, exec (.queueEnable src q v) s = .next t ∧ word t (queueReg q 8) = v &&& 0x803F1FFF ∧
      queueOf t q = { queueOf s q with st := .idle, condMet := false, waitFrom := none } ∧
      t.waits = s.waits.filter (fun x => x.who ≠ 560 + q) ∧ (∀ key, key ≠ queueReg q 8 → word t key = word s key) ∧
      (∀ k, k ≠ q → queueOf t k = queueOf s k) ∧ t = { s with regs := t.regs, queues := t.queues, waits := t.waits })) ∧
  (∀ (s : State) (q : Nat), (wbit s (queueReg q 8) 31 = false ∨ (queueOf s q).st = .stopped ∨ queueHeld s q = 0 ∨
      cancelDue s (wfld s (queueReg q 8) 21 16) = true) →
    exec (.queueEntryStart q) s = .next s) ∧
  (∀ (s : State) (q ctx : Nat) (e : List Word), wbit s (queueReg q 8) 31 = true → (queueOf s q).st ≠ .stopped →
    queueHeld s q ≠ 0 → heldInReset s .network = false → e = queueEntry s q (queueOf s q).head →
    ctx = wfld s (queueReg q 8) 21 16 → cancelDue s ctx = false →
    ((entryTarget e = none ∨ fld (e.getD 0 0) 17 16 = 3) → ∃ t, exec (.queueEntryStart q) s = .next t ∧
      (queueOf t q).st = .stopped ∧ (queueOf t q).code = stCOUNT ∧ (∀ k, k ≠ q → queueOf t k = queueOf s k) ∧
      t = { s with queues := t.queues, waits := t.waits }) ∧
    (∀ who, entryTarget e = some who → fld (e.getD 0 0) 17 16 ≠ 3 →
      (s.clk.now < (e.getD 2 0).toNat + (e.getD 3 0).toNat * 2 ^ 32 →
        exec (.queueEntryStart q) s = .next (setQueue s q { queueOf s q with st := .waiting })) ∧
      ((e.getD 2 0).toNat + (e.getD 3 0).toNat * 2 ^ 32 ≤ s.clk.now →
        (fld (e.getD 0 0) 17 16 = 0 ∨ (queueOf s q).condMet = true) →
        (∀ code, targetStatus s who ctx = some code → ∃ t, exec (.queueEntryStart q) s = .next t ∧
          (queueOf t q).st = .stopped ∧ (queueOf t q).code = code ∧ t = { s with queues := t.queues, waits := t.waits }) ∧
        (targetStatus s who ctx = none → targetFree s who = false → ∃ t, exec (.queueEntryStart q) s = .next t ∧
          (queueOf t q).st = .waiting ∧ (queueOf t q).head = (queueOf s q).head ∧ t = { s with queues := t.queues }) ∧
        (who < 72 → targetStatus s who ctx = none → targetFree s who = true → wbit s (gtReg who 0) 3 = true →
          ∃ t, exec (.queueEntryStart q) s = .next t ∧ (queueOf t q).st = .idle ∧
            (queueOf t q).head = ((queueOf s q).head + 1) % 2 ^ 32 ∧ (tileOf t who).st = .running ∧
            (tileOf t who).pc = wfld s (gtReg who 8) 13 0 ∧ (∀ n, n ≠ who → tileOf t n = tileOf s n) ∧
            t = { s with queues := t.queues, tiles := t.tiles })) ∧
      ((e.getD 2 0).toNat + (e.getD 3 0).toNat * 2 ^ 32 ≤ s.clk.now → fld (e.getD 0 0) 17 16 ≠ 0 → (queueOf s q).condMet = false →
        s.waits.any (fun v => v.who = 560 + q) = false →
        (flagAllowed s (some ctx) (fld (e.getD 0 0) 15 0) &&
          condMet (decide (fld (e.getD 0 0) 17 16 = 2)) (flagOf s (fld (e.getD 0 0) 15 0)) (e.getD 1 0)) = false →
        ∃ t, exec (.queueEntryStart q) s = .next t ∧ (queueOf t q).st = .waiting ∧
          t.waits = s.waits.filter (fun x => x.who ≠ 560 + q) ++
            [{ who := 560 + q, flag := fld (e.getD 0 0) 15 0, eq := decide (fld (e.getD 0 0) 17 16 = 2), value := e.getD 1 0,
               start := s.clk.up, expiry := s.clk.up + wfld s (queueReg q 0x18) 23 0 * 1000,
               granted := flagAllowed s (some ctx) (fld (e.getD 0 0) 15 0) }] ∧
          t = { s with queues := t.queues, waits := t.waits }))) ∧
  (∀ (s : State) (src : Src) (i : Nat) (v : Word), meets s src (slotReg i 8) = .here → isApgil src = true →
    ((slotOf s i).armed = true → exec (.launchSlotArm src i v) s = .next s) ∧
    ((slotOf s i).armed = false → bitOf v 31 = true → bitOf v 30 = false → ∃ t, exec (.launchSlotArm src i v) s = .next t ∧
      slotOf t i = { slotOf s i with armed := true, next := wfld s (slotReg i 0) 31 0 + wfld s (slotReg i 4) 31 0 * 2 ^ 32 } ∧
      word t (slotReg i 8) = v &&& 0x2007FFFF ∧ (∀ k, k ≠ i → slotOf t k = slotOf s k) ∧
      (∀ key, key ≠ slotReg i 8 → word t key = word s key) ∧ t = { s with regs := t.regs, slots := t.slots }) ∧
    (bitOf v 30 = true → exec (.launchSlotDisarm src i v) s = .next (setSlot s i { slotOf s i with armed := false })) ∧
    (bitOf v 30 = false → exec (.launchSlotDisarm src i v) s = .next s)) ∧
  (∀ (s : State) (i : Nat), (slotOf s i).armed = true → (slotOf s i).next ≤ s.clk.now →
    cancelDue s (wfld s (slotReg i 8) 18 13) = false →
    ∃ t, exec (.launchSlotFire i) s = .next t ∧ (slotOf t i).fired = (slotOf s i).fired + 1 ∧
      (fld (word s (slotReg i 8)) 3 0 ≠ 2 →
        slotOf t i = { slotOf s i with
          fired := (slotOf s i).fired + 1
          next := (slotOf s i).next + 4 * wfld s (slotReg i 0xC) 31 0
          armed := decide (wfld s (slotReg i 0xC) 31 0 ≠ 0) && decide (wfld s (slotReg i 0x10) 31 0 ≠ 1) } ∧
        ((slotOf s i).next + 4 ≤ s.clk.now → wbit t (slotReg i 0x14) 1 = true)) ∧
      ((s.clk.now < (slotOf s i).next + 4 ∨ wbit s (slotReg i 8) 29 = false) →
        (∀ n, fld (word s (slotReg i 8)) 3 0 = 4 → n = fld (word s (slotReg i 8)) 11 4 → n < 72 →
          targetStatus s n (fld (word s (slotReg i 8)) 18 13) = none → wbit s (gtReg n 0) 3 = true → tileReady s n = true →
          (tileOf t n).st = .running ∧ (tileOf t n).pc = wfld s (gtReg n 8) 13 0) ∧
        (∀ n x, fld (word s (slotReg i 8)) 3 0 = 2 → n = fld (word s (slotReg i 8)) 11 4 → streamOf s n = some x →
          x.phase = .launching → x.startReply = none → x.ctx = fld (word s (slotReg i 8)) 18 13 → x.chans = [] →
          (∀ g ∈ liveStrings x, ∀ k ∈ g.tiles, tileLost s k = false) → strokeReady s (launchShape s x) = true →
          planRuns s (launchShape s x) = [] → ∃ y, streamOf t n = some y ∧ y.phase = .running)) ∧
      (∀ k, k ≠ i → slotOf t k = slotOf s k) ∧
      t = { s with free := t.free, regs := t.regs, mem := t.mem, clk := t.clk, bus := t.bus, latches := t.latches, moves := t.moves,
                   leaving := t.leaving, banks := t.banks, plates := t.plates, colours := t.colours, streams := t.streams,
                   tiles := t.tiles, cores := t.cores, chans := t.chans, pulses := t.pulses, bru := t.bru, flags := t.flags,
                   waits := t.waits, updates := t.updates, slots := t.slots, queues := t.queues, granules := t.granules,
                   shm := t.shm, poison := t.poison, fc := t.fc, host := t.host, sent := t.sent, bridge := t.bridge,
                   power := t.power, retire := t.retire }) ∧
  (∀ (s : State) (i : Nat), ((slotOf s i).armed = false ∨ s.clk.now < (slotOf s i).next ∨
      cancelDue s (wfld s (slotReg i 8) 18 13) = true) → exec (.launchSlotFire i) s = .next s) ∧
  (∀ (s : State) (src : Src) (v : Word), meets s src (timeBase + 0x20) = .here → isApgil src = true → bitOf v 8 = true →
    exec (.contextCancelWrite src v) s =
      .next { s with clk := { s.clk with cancels := s.clk.cancels ++ [(fld v 5 0, s.clk.up + 8)] } }) ∧
  (∀ (s : State) (c : Nat) (p : Nat × Nat), s.clk.cancels.find? (fun p => p.1 = c && decide (p.2 ≤ s.clk.up)) = some p →
    ∃ t, exec (.contextCancelApply c) s = .next t ∧
      (∀ n, n < 72 → tileCtx s n = some c → (∀ m x, streamOf s m = some x → n ∉ reservedTiles x) →
        engBusy (tileOf t n).st = false) ∧
      (∀ n, n < 8 → coreCtx s n = some c → engBusy (coreOf t n).st = false) ∧
      (∀ n, n < 128 → chanCtx s n = some c → chanBusy (chanOf t n) = false) ∧
      (∀ j, j < 64 → bruCtx s j = some c → (bruSlotOf t j).st ≠ .waiting ∧ (bruSlotOf t j).st ≠ .running) ∧
      t = { s with regs := t.regs, mem := t.mem, clk := t.clk, moves := t.moves, leaving := t.leaving, banks := t.banks,
                   plates := t.plates, colours := t.colours, streams := t.streams, tiles := t.tiles, cores := t.cores,
                   chans := t.chans, bru := t.bru, waits := t.waits, slots := t.slots, queues := t.queues,
                   granules := t.granules, host := t.host, sent := t.sent, bridge := t.bridge, retire := t.retire }) ∧
  (∀ (s : State) (c : Nat), (∀ p ∈ s.clk.cancels, p.1 = c → s.clk.up < p.2) → exec (.contextCancelApply c) s = .next s)

/-- TIME_SOURCE_SELECT, GPTP_SYNC_MESSAGE, BRIDGE_TIME_MESSAGE, TIME_SOURCE_LOST, DEVICE_TIME_STEP (R307, R308, R316, R320, R355).
The record fields of 0x502 are the model's reading (log 21), and that a step on an empty queue is an event tick is its choice (log 7). -/
def Obligations.DeviceTime : Prop :=
  (∀ (s : State) (src : Src) (v : Word), meets s src (timeBase + 8) = .here → isApgil src = true →
    ((fld v 1 0 = 3 ∨ fld v 1 0 = timeSource s) → exec (.timeSourceSelect src v) s = .next s) ∧
    (fld v 1 0 ≠ 3 → fld v 1 0 ≠ timeSource s → ∃ t, exec (.timeSourceSelect src v) s = .next t ∧ timeSource t = fld v 1 0 ∧
      t.clk = { s.clk with sync := if fld v 1 0 = 0 then .free else .acquiring, pendingStep := none } ∧
      (∀ key, key ≠ timeBase + 8 → word t key = word s key) ∧ t = { s with regs := t.regs, clk := t.clk })) ∧
  (∀ (s : State) (port : Nat) (o : Int), timeSource s = 1 → (portOf s port).gptp = true → (portOf s port).up = true →
    heldInReset s .network = false →
    (o.natAbs < 100000 → ∃ t r, exec (.gptpSyncMessage port o) s = .next t ∧ r < 1000001 ∧
      word t (timeBase + 0x10) = BitVec.ofInt 32 ((r : Int) - 500000) ∧
      t.clk = { s.clk with offset := satS 32 o, sync := .locked, pendingStep := none } ∧
      (∀ key, key ≠ timeBase + 0x10 → word t key = word s key) ∧ t = { s with regs := t.regs, clk := t.clk, free := t.free }) ∧
    (100000 ≤ o.natAbs → stepAllowed s = true → ∃ t, exec (.gptpSyncMessage port o) s = .next t ∧
      t.clk = { s.clk with now := ((s.clk.now : Int) + o).toNat, offset := satS 32 o, sync := .acquiring, pendingStep := none } ∧
      t = { s with clk := t.clk, fc := t.fc }) ∧
    (100000 ≤ o.natAbs → stepAllowed s = false → ∃ t detail, exec (.gptpSyncMessage port o) s = .next t ∧
      t.clk = { s.clk with offset := satS 32 o, sync := .stepPending, pendingStep := some o } ∧
      t.fc = collected s 0x501 0 1127 none detail ∧ t = { s with clk := t.clk, fc := t.fc, free := t.free })) ∧
  (∀ (s : State) (k delay : Nat) (o : Int), (linkOf s k).st = .up →
    ((timeSource s ≠ 2 ∨ timeLink s ≠ some k) →
      exec (.bridgeTimeMessage k delay o) s = .next (setLink s k { linkOf s k with delay := delay })) ∧
    (timeSource s = 2 → timeLink s = some k → ∃ t, exec (.bridgeTimeMessage k delay o) s = .next t ∧
      linkOf t k = { linkOf s k with delay := delay } ∧ t.clk.offset = satS 32 o ∧
      (o.natAbs < 100000 → t.clk.sync = .locked ∧ t.clk.now = s.clk.now) ∧
      (100000 ≤ o.natAbs → stepAllowed s = true → t.clk.now = ((s.clk.now : Int) + o).toNat) ∧
      (∀ j, j ≠ k → linkOf t j = linkOf s j) ∧ t = { s with free := t.free, regs := t.regs, clk := t.clk,
                                                            fc := t.fc, bridge := t.bridge })) ∧
  (∀ (s : State), (timeSource s = 0 → exec .timeSourceLost s = .next s) ∧
    (timeSource s ≠ 0 → exec .timeSourceLost s = .next { s with clk := { s.clk with sync := .holdover, pendingStep := none } })) ∧
  (∀ (s : State) (o : Int), s.clk.pendingStep = some o →
    (stepAllowed s = false → exec .deviceTimeStep s = .next s) ∧
    (stepAllowed s = true → ∃ t, exec .deviceTimeStep s = .next t ∧
      t.clk = { s.clk with now := ((s.clk.now : Int) + o).toNat, sync := .acquiring, pendingStep := none } ∧
      t = { s with clk := t.clk, fc := t.fc })) ∧
  (∀ (s : State), s.pending = [] → ∃ t, step s = .next t ∧ t.pending = [] ∧ t.clk.up = s.clk.up + 4 ∧
    (word s (timeBase + 0x10) = 0 → 0 ≤ s.clk.frac → s.clk.frac < 1000000000 → t.clk.now = s.clk.now + 4) ∧
    (s.host.jobs = [] → t.updates = s.updates.drop 8))

/-- NETWORK_FRAME_RECEIVE, ACP_MESSAGE_RECEIVE, MAILBOX_CLAIM, RING, ACK and TAKE, NOTICE_PLACE, NETWORK_LINK_CHANGE, SESSION_TIMEOUT,
TRANSFER_ABANDON, ACP_ROUTE_FORWARD (R317 to R321, R328 to R332, R336 to R338, R357). -/
def Obligations.MessagesAndChannels : Prop :=
  (∀ (s : State) (f : EthFrame), heldInReset s .network = false → f.port < gradeNets s → f.port ∉ s.retire.netPorts →
    (portOf s f.port).up = true →
    (9018 + (if f.vlan.isSome then 4 else 0) < f.bytes → exec (.networkFrameReceive f) s =
      .next (setPort s f.port { portOf s f.port with dropOther := (portOf s f.port).dropOther + 1 })) ∧
    (f.bytes ≤ 9018 + (if f.vlan.isSome then 4 else 0) → (portOf s f.port).macsec = true → f.macsecOk = false →
      exec (.networkFrameReceive f) s =
        .next (setPort s f.port { portOf s f.port with dropMacsec := (portOf s f.port).dropMacsec + 1 })) ∧
    (f.bytes ≤ 9018 + (if f.vlan.isSome then 4 else 0) → ((portOf s f.port).macsec && !f.macsecOk) = false → f.kind = .other →
      ((∀ g ∈ s.host.filters, ¬ (g.mac = f.dstMac ∧ g.vlan = f.vlan.getD 0)) → exec (.networkFrameReceive f) s =
        .next (setPort s f.port { portOf s f.port with dropOther := (portOf s f.port).dropOther + 1 })) ∧
      (∀ g, s.host.filters.find? (fun g => decide (g.mac = f.dstMac) && decide (g.vlan = f.vlan.getD 0)) = some g →
        exec (.networkFrameReceive f) s = .next { s with host := { s.host with
          rings := tset [] s.host.rings g.ring (tget [] s.host.rings g.ring ++ [f.payload]) } })) ∧
    (f.bytes ≤ 9018 + (if f.vlan.isSome then 4 else 0) → ((portOf s f.port).macsec && !f.macsecOk) = false → ∀ m, f.kind = .acp m →
      ((s.host.acpSecure && !((portOf s f.port).macsec && f.macsecOk)) = true → exec (.networkFrameReceive f) s =
        .next (setPort s f.port { portOf s f.port with dropSecure := (portOf s f.port).dropSecure + 1 })) ∧
      ((s.host.acpSecure && !((portOf s f.port).macsec && f.macsecOk)) = false → s.power.state ≠ .parked →
        (mboxOf s f.port).ring.length < 64 → exec (.networkFrameReceive f) s =
          .next (setMbox s f.port { mboxOf s f.port with ring := (mboxOf s f.port).ring ++ [m] })))) ∧
  (∀ (s : State) (m : AcpDatagram), heldInReset s .mgmt = false → apgilPaused s = false →
    ((m.bytes.length < 16 ∨ 4096 < m.bytes.length ∨ leAt m.bytes 12 4 ≠ m.bytes.length - 16 ∨ leAt m.bytes 2 1 ≠ 0) →
      exec (.acpMessageReceive m) s = .next { s with host := { s.host with dropped := s.host.dropped + 1 } }) ∧
    (16 ≤ m.bytes.length → m.bytes.length ≤ 4096 → leAt m.bytes 12 4 = m.bytes.length - 16 → leAt m.bytes 2 1 = 0 →
      ∀ k x r ts, sessionFrom s m.origin = some k → sessionOf s k = some x → parseTlvs 1024 (m.bytes.drop 16) = some ts →
      r = reqOf m k ts →
      (∀ e, x.replies.find? (fun e => e.1 = r.seq) = some e → ∃ t, exec (.acpMessageReceive m) s = .next t ∧
        sessionOf t k = some { x with lastReq := s.clk.up, origin := m.origin } ∧
        t = { s with mem := t.mem, host := t.host, sent := t.sent }) ∧
      (x.replies.find? (fun e => e.1 = r.seq) = none → x.executing.any (fun q => q.seq = r.seq) = true →
        exec (.acpMessageReceive m) s = .next (setSession s k (some { x with lastReq := s.clk.up, origin := m.origin }))) ∧
      (x.replies.find? (fun e => e.1 = r.seq) = none → x.executing.any (fun q => q.seq = r.seq) = false → 32 ≤ x.executing.length →
        ∃ t, exec (.acpMessageReceive m) s = .next t ∧ sessionOf t k = some { x with lastReq := s.clk.up, origin := m.origin } ∧
          t.host.dropped = s.host.dropped + 1 ∧ t = { s with host := t.host }) ∧
      (x.replies.find? (fun e => e.1 = r.seq) = none → x.executing.any (fun q => q.seq = r.seq) = false → x.executing.length < 32 →
        (checkReq s (some x) r true = none →
          ∃ t, exec (.acpMessageReceive m) s = .next t ∧
            sessionOf t k = some { x with lastReq := s.clk.up, origin := m.origin, executing := x.executing ++ [r] } ∧
            t.host.hellos = (if r.typ = 1 then s.host.hellos ++ [r] else s.host.hellos) ∧ t = { s with host := t.host }) ∧
        (∀ st c i, checkReq s (some x) r true = some (st, c, i) →
          ∃ t, exec (.acpMessageReceive m) s = .next t ∧ repliedWith t r st ∧ t = { s with mem := t.mem,
                                                                                           host := t.host,
                                                                                           sent := t.sent })))) ∧
  (∀ (s : State) (src : Src) (c : Nat), meets s src (mboxBase c + 0x1000) = .here → isApgil src = false →
    (mboxBound s src c = true →
      ((mboxOf s c).st = .free → exec (.mailboxClaim src c) s = .next (setMbox s c { mboxOf s c with st := .claimed })) ∧
      ((mboxOf s c).st ≠ .free → exec (.mailboxClaim src c) s = .next (setWbit s (mboxBase c + 0x1004) 3 true)) ∧
      ((mboxOf s c).st = .claimed → exec (.mailboxRing src c) s =
        .next (setMbox s c { mboxOf s c with st := .request, rung := some (bufferMessage s c) })) ∧
      ((mboxOf s c).st ≠ .claimed → exec (.mailboxRing src c) s = .next (setWbit s (mboxBase c + 0x1004) 3 true)) ∧
      (((mboxOf s c).st = .reply ∨ (mboxOf s c).st = .notice) →
        exec (.mailboxAck src c) s = .next (setMbox s c { mboxOf s c with st := .free })) ∧
      ((mboxOf s c).st ≠ .reply → (mboxOf s c).st ≠ .notice → exec (.mailboxAck src c) s = .next s)) ∧
    (mboxBound s src c = false → ∃ t, exec (.mailboxClaim src c) s = .next t ∧ exec (.mailboxRing src c) s = .next t ∧
      exec (.mailboxAck src c) s = .next t ∧
      t.fc = collected s 0x104 0 (srcIndex src) (srcCtx s src) (mboxBase c + 0x1000) ∧ t = { s with fc := t.fc })) ∧
  (∀ (s : State) (c : Nat) (m : AcpDatagram) (rest : List AcpDatagram), heldInReset s .mgmt = false → apgilPaused s = false →
    (c < 4 → (mboxOf s c).ring = m :: rest →
      exec (.mailboxTake c) s = exec (.acpMessageReceive m) (setMbox s c { mboxOf s c with ring := rest })) ∧
    (4 ≤ c → (mboxOf s c).st = .request → (mboxOf s c).rung = some m →
      exec (.mailboxTake c) s = exec (.acpMessageReceive m) (setMbox s c { mboxOf s c with st := .busy, rung := none }))) ∧
  (∀ (s : State) (c : Nat) (m : Sent) (y : Session) (rest : List Sent), heldInReset s .mgmt = false → apgilPaused s = false →
    (mboxOf s c).st = .free → (mboxOf s c).queued = m :: rest → sessionOf s m.sess = some y →
    exec (.noticePlace c) s = .next (setMbox (store s (mboxBase c) (msgBytes y.major y.minor m)) c
      { mboxOf s c with st := .notice, queued := rest })) ∧
  (∀ (s : State) (p : Nat) (up : Bool), heldInReset s .network = false → p < gradeNets s → p ∉ s.retire.netPorts →
    s.power.state ≠ .parked → exec (.networkLinkChange p up) s = .next (setPort s p { portOf s p with up := up })) ∧
  (∀ (s : State) (n : Nat) (x : Session), sessionOf s n = some x →
    (x.open' = true → x.lastReq + x.timeout * 1000000000 ≤ s.clk.up → ∃ t, exec (.sessionTimeout n) s = .next t ∧
      ((∃ c y, contextOf s c = some y ∧ y.sess = n) → sessionOf t n = some { x with open' := false, transfers := [] }) ∧
      ((∀ c y, contextOf s c = some y → y.sess ≠ n) → sessionOf t n = none) ∧
      (∀ m, m ≠ n → sessionOf t m = sessionOf s m) ∧ (∀ c, contextOf t c = contextOf s c) ∧ t = { s with host := t.host }) ∧
    ((x.open' = false ∨ s.clk.up < x.lastReq + x.timeout * 1000000000) → exec (.sessionTimeout n) s = .next s) ∧
    (∀ i q, x.transfers[i]? = some q →
      (q.last + 60000000000 ≤ s.clk.up → exec (.transferAbandon n i) s = .next (setSession s n (some (dropTransfer x q.typ q.ctx)))) ∧
      (s.clk.up < q.last + 60000000000 → exec (.transferAbandon n i) s = .next s))) ∧
  (∀ (s : State) (r : AcpReq) (v : List Byte), isNext s r = true → tlv r 0x8072 = some v → leAt v 0 2 ≠ deviceId s →
    ((routeTo s true (leAt v 0 2)).isSome = true → exec (.acpRouteForward r) s =
      .next { beginReq s r with bridge := { s.bridge with relayed := s.bridge.relayed ++ [(leAt v 0 2, r)] } }) ∧
    (routeTo s true (leAt v 0 2) = none → ∃ t, exec (.acpRouteForward r) s = .next t ∧ repliedWith t r stTOPOLOGY ∧
      t = { s with mem := t.mem, host := t.host, sent := t.sent }))

/-- HELLO, QUERY, SET_CONFIG, TOPOLOGY, ATTEST, OPEN_CONTEXT, CLOSE_CONTEXT, SET_ENERGY_BUDGET, SNAPSHOT, INSTALL_LICENCE, FW_UPDATE,
RESET_PARTITION (R291, R326, R328 to R339, R345, R382, R383, R400, R409 to R411). -/
def Obligations.DeviceCommands : Prop :=
  (∀ (s : State) (r : AcpReq) (n timeout host : Nat), r ∈ s.host.hellos →
    timeout = (match tlv r 0x0003 with | some v => leAt v 0 4 | none => 30) →
    host = (match tlv r 0x0002 with | some v => leAt v 0 4 | none => 0) → 1 ≤ timeout → timeout ≤ 3600 →
    (unanswered s r = true → isNext s r = true) →
    helloNumber { s with host := { s.host with hellos := s.host.hellos.filter (fun q => q ≠ r) } } r host = some n →
    ∃ t y, exec (.hello r) s = .next t ∧ sessionOf t n = some y ∧ y.open' = true ∧ y.origin = r.origin ∧ y.hostId = host ∧
      y.timeout = timeout ∧
      y.mgmtOnly = (chooseVersion (versionEntries ((tlv r 0x8001).getD []))).isNone ∧
      (∀ v, chooseVersion (versionEntries ((tlv r 0x8001).getD [])) = some v → (y.major, y.minor) = v) ∧
      repliedWith t { r with sess := n }
        (if (chooseVersion (versionEntries ((tlv r 0x8001).getD []))).isSome then stOK else stVERSION) ∧
      r ∉ t.host.hellos ∧ t = { s with mem := t.mem, host := t.host, sent := t.sent, boot := t.boot }) ∧
  (∀ (s : State) (r : AcpReq) (x : Session) (k i : Nat), asks s r → sessionOf s r.sess = some x → objectOf r = some (k, i) →
    ((x.mgmtOnly = true ∧ k ≠ 0) → ∃ t, exec (.query r) s = .next t ∧ repliedWith t r stVERSION ∧ t = { s with
                                                                                                               mem := t.mem,
                                                                                                               host := t.host,
                                                                                                               sent := t.sent }) ∧
    ((x.mgmtOnly = false ∨ k = 0) → ∀ st, objectStatus s r k i = some st →
      ∃ t, exec (.query r) s = .next t ∧ repliedWith t r st ∧ t = { s with mem := t.mem, host := t.host,
                                                                           sent := t.sent }) ∧
    ((x.mgmtOnly = false ∨ k = 0) → objectStatus s r k i = none →
      ∃ t, exec (.query r) s = .next t ∧ repliedWith t r stOK ∧ t = { s with free := t.free, mem := t.mem,
                                                                             host := t.host, sent := t.sent })) ∧
  (∀ (s : State) (r : AcpReq), asks s r →
    ∃ t, exec (.attest r) s = .next t ∧ repliedWith t r (if badLen r 0x8040 32 then stCOUNT else stOK) ∧ t = { s with
                                                                                                                      mem := t.mem,
                                                                                                                      host := t.host,
                                                                                                                      sent := t.sent }) ∧
  (∀ (s : State) (r : AcpReq), asks s r → deviceBusy s = false →
    (∀ st k, (configKeys r).findSome? (fun e => (configEngine s e.1 e.2).map (fun st => (st, e.1))) = some (st, k) →
      ∃ t, exec (.setConfig r) s = .next t ∧ repliedWith t r st ∧ t = { s with mem := t.mem, host := t.host, sent := t.sent }) ∧
    ((∀ e ∈ configKeys r, configEngine s e.1 e.2 = none) →
      (∀ st k, (configKeys r).findSome? (fun e => (configStatus s e.1 e.2).map (fun st => (st, e.1))) = some (st, k) →
        ∃ t, exec (.setConfig r) s = .next t ∧ repliedWith t r st ∧ t = { s with mem := t.mem, host := t.host, sent := t.sent }) ∧
      ((∀ e ∈ configKeys r, configStatus s e.1 e.2 = none) →
        (16 < (keyPlaces s (configKeys r)).length → ∃ t, exec (.setConfig r) s = .next t ∧ repliedWith t r stCOUNT ∧
          t = { s with mem := t.mem, host := t.host, sent := t.sent }) ∧
        ((keyPlaces s (configKeys r)).length ≤ 16 →
          ((∀ e ∈ configKeys r, e.1 = 5) → ∃ t, exec (.setConfig r) s = .next t ∧ repliedWith t r stOK ∧
            t = { s with mem := t.mem, shm := t.shm, host := t.host, sent := t.sent }) ∧
          ((∃ e ∈ configKeys r, e.1 ≠ 5) → ∃ t, exec (.setConfig r) s = .next t ∧ unanswered t r = true ∧
            t = { s with shm := t.shm, host := t.host, flash := t.flash }) ∧
          ((∀ e ∈ configKeys r, e.1 ≠ 5) → ∀ t, exec (.setConfig r) s = .next t → t.shm = s.shm))))) ∧
  (∀ (s : State) (r : AcpReq), asks s r →
    (tlv r 0x8073 = none → ∃ t, exec (.topology r) s = .next t ∧ repliedWith t r stOK ∧ t = { s with
                                                                                                     mem := t.mem,
                                                                                                     host := t.host,
                                                                                                     sent := t.sent }) ∧
    (∀ v, tlv r 0x8073 = some v → deviceBusy s = false →
      (∀ st i, topoStatus s v = some (st, i) → ∃ t, exec (.topology r) s = .next t ∧ repliedWith t r st ∧ t = { s with
                                                                                                                       mem := t.mem,
                                                                                                                       host := t.host,
                                                                                                                       sent := t.sent }) ∧
      (topoStatus s v = none → ∃ t, exec (.topology r) s = .next t ∧ unanswered t r = true ∧
        t = flashQueue (beginReq s r) [flashRec 0x0003 0 v] (some (r.sess, r.seq, r.typ, r.ctx))))) ∧
  (∀ (s : State) (r : AcpReq) (c : Nat), asks s r → badLen r 0x8010 4 = false →
    (if (tlv r 0x8010).getD [] = [] then 0 else leAt ((tlv r 0x8010).getD []) 2 2) ≤ 10000 →
    findBelow (fun c => (contextOf s c).isNone) 64 = some c → (openXlate s c c).isSome = true →
    ∃ t k, exec (.openContext r) s = .next t ∧ contextOf t c = some k ∧ k.sess = r.sess ∧ k.reserved = 0 ∧
      k.balance = ((s.host.defCap * s.host.defBudget * 1000 : Nat) : Int) ∧ repliedWith t r stOK ∧
      (∀ d, d ≠ c → contextOf t d = contextOf s d) ∧ t = { s with regs := t.regs, mem := t.mem,
                                                                  flags := t.flags, groups := t.groups,
                                                                  host := t.host, sent := t.sent }) ∧
  (∀ (s : State) (r : AcpReq), asks s r →
    ∃ t, exec (.closeContext r) s = .next t ∧ contextOf t r.ctx = none ∧ repliedWith t r stOK ∧
      (∀ n x, streamOf t n = some x → x.ctx ≠ r.ctx) ∧ (∀ g, ¬ ((granOf t g).st = .owned ∧ (granOf t g).owner = some r.ctx)) ∧
      (∀ g, g < 1024 → (groupOf t g).owner ≠ some r.ctx) ∧ t = { s with regs := t.regs, mem := t.mem,
                                                                        moves := t.moves, leaving := t.leaving,
                                                                        retire := t.retire,
                                                                        banks := t.banks, plates := t.plates,
                                                                        plPend := t.plPend,
                                                                        plLatch := t.plLatch,
                                                                        clPend := t.clPend,
                                                                        clLatch := t.clLatch,
                                                                        colours := t.colours,
                                                                        streams := t.streams,
                                                                        tiles := t.tiles, cores := t.cores,
                                                                        chans := t.chans, bru := t.bru,
                                                                        groups := t.groups, waits := t.waits,
                                                                        slots := t.slots, queues := t.queues,
                                                                        granules := t.granules,
                                                                        host := t.host, sent := t.sent,
                                                                        bridge := t.bridge }) ∧
  (∀ (s : State) (r : AcpReq) (c : Context) (v : List Byte), asks s r → contextOf s r.ctx = some c → v = (tlv r 0x8011).getD [] →
    (v.length = 8 → leAt v 0 4 ≤ 1000 → 1 ≤ leAt v 4 1 → leAt v 4 1 ≤ 16 → leAt v 5 1 ≤ 1 → leAt v 6 2 = 0 → c.reserved ≤ leAt v 0 4 →
      ∃ t, exec (.setEnergyBudget r) s = .next t ∧ repliedWith t r stOK ∧
        contextOf t r.ctx = some { c with
          pendingBudget := some (leAt v 0 4, leAt v 4 1, decide (leAt v 5 1 = 1)), explicit := true } ∧ t = { s with
                                                                                                                     mem := t.mem,
                                                                                                                     host := t.host,
                                                                                                                     sent := t.sent }) ∧
    ((v.length ≠ 8 ∨ 1000 < leAt v 0 4 ∨ leAt v 0 4 < c.reserved) → ∃ t, exec (.setEnergyBudget r) s = .next t ∧
      repliedWith t r stCOUNT ∧ contextOf t r.ctx = some c ∧ t = { s with mem := t.mem, host := t.host,
                                                                          sent := t.sent })) ∧
  (∀ (s : State) (r : AcpReq) (i : Nat), asks s r → objectOf r = some (9, i) → objectStatus s r 9 i = none →
    (licensed s 4 = false → ∃ t, exec (.snapshot r) s = .next t ∧ repliedWith t r stUNLICENSED ∧ t = { s with
                                                                                                              mem := t.mem,
                                                                                                              host := t.host,
                                                                                                              sent := t.sent }) ∧
    (licensed s 4 = true → ∀ v, v = (tlv r 0x8074).getD [] → v.length = 12 → xlateIs s (leAt v 8 1) r.ctx = true →
      ((objectGranules i).filter (snapHeld s r.ctx) = [] → ∃ t, exec (.snapshot r) s = .next t ∧ repliedWith t r stCANCELLED ∧
        t = { s with mem := t.mem, host := t.host, sent := t.sent }) ∧
      ((objectGranules i).filter (snapHeld s r.ctx) ≠ [] → ∀ s1, xlateStore (beginReq s r) (.mgmt 0) (leAt v 8 1) (leAt v 0 8)
          (((objectGranules i).filter (snapHeld s r.ctx)).flatMap (fun g => bytesAt s (granuleRange g).1 (granuleRange g).2)) = some s1 →
        ∃ t, exec (.snapshot r) s = .next t ∧ repliedWith t r stOK ∧
          ((∀ x q c, sessionOf s r.sess = some x → q ∈ x.executing → q.origin ≠ .mbox c) → t.mem = s1.mem) ∧
          t = { s1 with mem := t.mem, host := t.host, sent := t.sent }))) ∧
  (∀ (s : State) (r : AcpReq) (v : List Byte), asks s r → deviceBusy s = false → v = (tlv r 0x8044).getD [] →
    (∀ st, licenceStatus v s.fuses.licKeyHash s.fuses.serial = some st → ∃ t, exec (.installLicence r) s = .next t ∧
      repliedWith t r st ∧ t = { s with mem := t.mem, host := t.host, sent := t.sent }) ∧
    (licenceStatus v s.fuses.licKeyHash s.fuses.serial = none → features s ||| leAt v 24 4 = features s →
      ∃ t, exec (.installLicence r) s = .next t ∧ repliedWith t r stOK ∧ t = { s with mem := t.mem,
                                                                                      host := t.host,
                                                                                      sent := t.sent }) ∧
    (licenceStatus v s.fuses.licKeyHash s.fuses.serial = none → features s ||| leAt v 24 4 ≠ features s → s.licences.length < 64 →
      exec (.installLicence r) s = .next (flashQueue (beginReq s r) [flashRec 0x0020 s.licences.length v] (some (r.sess, r.seq, r.typ, r.ctx))))) ∧
  (∀ (s : State) (r : AcpReq) (x : Session), asks s r → sessionOf s r.sess = some x → badLen r 0x8045 8 = false →
    chunksGood r = true →
    (updateOpen s r.sess = true → ∃ t, exec (.fwUpdate r) s = .next t ∧ repliedWith t r stBUSY ∧ t = { s with
                                                                                                              mem := t.mem,
                                                                                                              host := t.host,
                                                                                                              sent := t.sent }) ∧
    (updateOpen s r.sess = false → ∀ q, transferOf x r.typ r.ctx = some q →
      transferDone (addChunks q (tlvAll r 0x8020) 16 4 s.clk.up) = false →
      ∃ t, exec (.fwUpdate r) s = .next t ∧ repliedWith t r stOK ∧
        (∃ y q2, sessionOf t r.sess = some y ∧ q2 ∈ y.transfers ∧ q2.chunks = (addChunks q (tlvAll r 0x8020) 16 4 s.clk.up).chunks) ∧
        t = { s with mem := t.mem, host := t.host, sent := t.sent })) ∧
  (∀ (s : State) (r : AcpReq) (k i st : Nat), asks s r → deviceBusy s = false → badLen r 0x8043 4 = false → objectOf r = some (k, i) →
    ((k ≠ 4 → k ≠ 5 → ∃ t, exec (.resetPartition r) s = .next t ∧ repliedWith t r stCOUNT ∧
      t = { s with mem := t.mem, host := t.host, sent := t.sent }) ∧
    ((k = 4 ∨ k = 5) → objectStatus s r k i = some st → ∃ t, exec (.resetPartition r) s = .next t ∧ repliedWith t r st ∧
      t = { s with mem := t.mem, host := t.host, sent := t.sent }) ∧
    (k = 4 → objectStatus s r k i = none → ∀ d, engineDomain i = some d → d ≠ .mgmt →
      (tlv r 0x8043 = none → (domainUsers s d).any (otherSession s r.sess) = true →
        ∃ t, exec (.resetPartition r) s = .next t ∧ repliedWith t r stBUSY ∧ t = { s with mem := t.mem, host := t.host, sent := t.sent }) ∧
      ((domainUsers s d).any (otherSession s r.sess) = false → (partOf s (partitionOf d)).st = .on → d ∉ s.resetting →
        ∃ t, exec (.resetPartition r) s = .next t ∧ d ∈ t.resetting)) ∧
    (k = 5 → objectStatus s r k i = none → fixedPart i = false → i ≠ 45 →
      (frontNeeded s i = true → ∃ t, exec (.resetPartition r) s = .next t ∧ repliedWith t r stBUSY ∧
        t = { s with mem := t.mem, host := t.host, sent := t.sent }) ∧
      (frontNeeded s i = false → (islandsOf i).any (fun d => (domainUsers s d).any (otherSession s r.sess)) = false →
        ((partOf s i).st = .on ∨ (partOf s i).st = .off) →
        ∃ t, exec (.resetPartition r) s = .next t ∧ (i, r.sess, r.seq, r.typ, r.ctx) ∈ t.host.cycleReplies))))

/-- LOAD_PACKAGE, UNLOAD_PACKAGE, CREATE_STREAM, START_STREAM, STOP, CANCEL, SET_SETTINGS, DESTROY_STREAM, LAUNCH_JOB,
LAUNCH_HOLD_TIMEOUT (R58, R59, R62, R92, R93, R111, R112, R188, R199, R324, R325, R336, R337, R386). `s0` is the state in which the request
has begun. -/
def Obligations.WorkCommands : Prop :=
  (∀ (s : State) (r : AcpReq) (x : Session) (q w : Transfer), asks s r → sessionOf s r.sess = some x → chunksGood r = true →
    transferOf x r.typ r.ctx = some q → w = addChunks q (tlvAll r 0x8020) 8 8 s.clk.up → (∀ n, w.length = some n → n ≤ 2 ^ 32) →
    (transferDone w = false → ∃ t y, exec (.loadPackage r) s = .next t ∧ repliedWith t r stOK ∧ sessionOf t r.sess = some y ∧
      w ∈ y.transfers ∧ t.host.packages = s.host.packages ∧ t = { s with mem := t.mem, host := t.host, sent := t.sent }) ∧
    (transferDone w = true → ∀ b c, b = (assembled w.chunks).take (w.length.getD 0) → r.plan = some c → leAt b 4 1 = 4 →
      (∀ e, chkLoad s b c = some e →
        ∃ t, exec (.loadPackage r) s = .next t ∧ repliedWith t r e.1 ∧ t.host.packages = s.host.packages ∧
          t = { s with mem := t.mem, host := t.host, sent := t.sent }) ∧
      (chkLoad s b c = none → c.inlet = true → inletTaken s r.ctx = true →
        ∃ t, exec (.loadPackage r) s = .next t ∧ repliedWith t r stBUSY ∧ t.host.packages = s.host.packages ∧
          t = { s with mem := t.mem, host := t.host, sent := t.sent }) ∧
      (chkLoad s b c = none → (c.inlet = true → inletTaken s r.ctx = false) →
        ∃ t, exec (.loadPackage r) s = .next t ∧ repliedWith t r stOK ∧
          t.host.packages = s.host.packages ++ [{ ident := leAt b 16 4, ctx := r.ctx, content := c, tilesMin := leAt b 24 2 }] ∧
          (c.inlet = false → t.regs = s.regs) ∧ (c.inlet = true → wbit t (smReg 0x10) 6 = true ∧ wfld t (smReg 0x10) 5 0 = r.ctx % 64) ∧
          (∀ key, key ≠ smReg 0x10 → word t key = word s key) ∧
          t = { s with regs := t.regs, mem := t.mem, flags := t.flags, groups := t.groups, host := t.host, sent := t.sent }))) ∧
  (∀ (s : State) (r : AcpReq) (i : Nat), asks s r → objectOf r = some (3, i) → objectStatus s r 3 i = none →
    (planUsed s i = true → ∃ t, exec (.unloadPackage r) s = .next t ∧ repliedWith t r stBUSY ∧ t.host.packages = s.host.packages ∧
      t = { s with mem := t.mem, host := t.host, sent := t.sent }) ∧
    (planUsed s i = false → ∃ t, exec (.unloadPackage r) s = .next t ∧ repliedWith t r stOK ∧
      t.host.packages = s.host.packages.filter (fun p => p.ident ≠ i) ∧
      t = { s with mem := t.mem, groups := t.groups, host := t.host, sent := t.sent })) ∧
  (∀ (s s0 : State) (r : AcpReq) (f : SensorProfile) (v : List Byte), asks s r → s0 = beginReq s r → r.profile = some f →
    v = (tlv r 0x8030).getD [] →
    (∀ e, chkStream s0 r v (some f) = some e → ∃ t, exec (.createStream r) s = .next t ∧ repliedWith t r e.1 ∧
      (∀ n, streamOf t n = streamOf s n) ∧ t = { s with regs := t.regs, mem := t.mem, host := t.host, sent := t.sent, bridge := t.bridge }) ∧
    (chkStream s0 r v (some f) = none → ∀ e p fit, chkStreamPlan s0 r.ctx v f = (some e, p, fit) →
      ∃ t, exec (.createStream r) s = .next t ∧ repliedWith t r e.1 ∧ (∀ n, streamOf t n = streamOf s n) ∧
        t = { s with regs := t.regs, mem := t.mem, host := t.host, sent := t.sent, bridge := t.bridge }) ∧
    (chkStream s0 r v (some f) = none → ∀ p fit n b s2 x, chkStreamPlan s0 r.ctx v f = (none, p, fit) →
      importTlvs r = [] → exportTlvs r = [] → nextStream s0 = some n → freeBank s0 (leAt v 6 1) = some b →
      x = withRing s0 (withFit { ctx := r.ctx, sess := r.sess, profile := f, bank := b, rate := leAt v 8 4, options := 0,
                                 desc := newDesc r.ctx n (s.host.strokeIds + 1) (stageOf s0 (leAt v 7 1)) f v, network := leAt v 4 2 } p fit) →
      pipeAll (streamRegs { s0 with host := { s0.host with strokeIds := s0.host.strokeIds + 1 } } n x v) n (tlvAll r 0x8032) = (s2, none) →
      plBad (plShadow s2 n) = false → clBad (clShadow s2 n) = false → (mapRing s2 x).isSome = true →
      ∃ t, exec (.createStream r) s = .next t ∧ repliedWith t r stOK ∧ streamOf t n = some x ∧
        (∀ m, m ≠ n → streamOf t m = streamOf s m) ∧
        t = { s with free := t.free, regs := t.regs, mem := t.mem, banks := t.banks, plLatch := t.plLatch, clLatch := t.clLatch,
                     streams := t.streams, granules := t.granules, fc := t.fc, host := t.host, sent := t.sent, power := t.power })) ∧
  (∀ (s s0 : State) (r : AcpReq) (n : Nat) (x : Stream), asks s r → s0 = beginReq s r → objectOf r = some (1, n) →
    objectStatus s r 1 n = none → streamOf s n = some x →
    (carries x = true → ∃ t y, exec (.stop r) s = .next t ∧ streamOf t n = some y ∧ y.phase = .stopping ∧
      (r.sess, r.seq) ∈ y.stopReq ∧ unanswered t r = true ∧
      (∀ m, m ≠ n → m ≠ bankStream s (dPort x) x.bank → streamOf t m = streamOf s m) ∧
      t = { s with regs := t.regs, banks := t.banks, streams := t.streams, host := t.host }) ∧
    (x.phase = .ended → x.cut = false → ∃ t, exec (.stop r) s = .next t ∧ repliedWith t r stOK ∧
      t = { s with mem := t.mem, host := t.host, sent := t.sent }) ∧
    (x.phase = .ended → x.cut = true → ∃ t, exec (.stop r) s = .next t ∧ repliedWith t r stCANCELLED ∧
      t = { s with mem := t.mem, host := t.host, sent := t.sent }) ∧
    (x.phase = .created → ∃ t, exec (.stop r) s = .next t ∧ repliedWith t r stCOUNT ∧
      t = { s with mem := t.mem, host := t.host, sent := t.sent }) ∧
    (carries x = true → ∃ t y, exec (.cancel r) s = .next t ∧ repliedWith t r stCANCELLED ∧ streamOf t n = some y ∧
      y.phase = .ended ∧ y.cut = true ∧ (∀ k ∈ strokeTiles x, engBusy (tileOf t k).st = false) ∧
      t = { s with regs := t.regs, mem := t.mem, moves := t.moves, leaving := t.leaving, banks := t.banks, plates := t.plates,
                   colours := t.colours, streams := t.streams, tiles := t.tiles, chans := t.chans, waits := t.waits,
                   granules := t.granules, host := t.host, sent := t.sent, bridge := t.bridge, retire := t.retire }) ∧
    (carries x = false → ∃ t, exec (.cancel r) s = .next t ∧ repliedWith t r stOK ∧
      t = { s with mem := t.mem, host := t.host, sent := t.sent }) ∧
    (tlv r 0x8034 = none → (x.phase = .ended ∨ x.phase = .stopping) → ∃ t, exec (.setSettings r) s = .next t ∧
      repliedWith t r stCANCELLED ∧ t = { s with mem := t.mem, host := t.host, sent := t.sent }) ∧
    (tlv r 0x8034 = none → x.phase ≠ .ended → x.phase ≠ .stopping → ∀ s1, pipeAll s0 n (tlvAll r 0x8032) = (s1, none) →
      ∃ t, exec (.setSettings r) s = .next t ∧ repliedWith t r stOK ∧
        t = { s with regs := t.regs, mem := t.mem, plPend := t.plPend, clPend := t.clPend, fc := t.fc, host := t.host, sent := t.sent }) ∧
    (∀ v, tlv r 0x8034 = some v → v.length = 6 + 6 * x.profile.exposures → tlvAll r 0x8032 = [] → x.phase ≠ .ended → x.phase ≠ .stopping →
      ∃ t y j, exec (.setSettings r) s = .next t ∧ repliedWith t r stOK ∧ streamOf t n = some y ∧ y.sets.getLast? = some j ∧
        j.ident = leAt v 0 2 ∧ j.target = applyFrame s x (leAt v 2 4) ∧ j.status = stOK ∧ y = { x with sets := y.sets } ∧
        (∀ m, m ≠ n → streamOf t m = streamOf s m) ∧ t = { s with mem := t.mem, streams := t.streams, host := t.host, sent := t.sent }) ∧
    (carries x = true → ∃ t, exec (.destroyStream r) s = .next t ∧ repliedWith t r stBUSY ∧
      t = { s with mem := t.mem, host := t.host, sent := t.sent }) ∧
    (carries x = false → ∃ t, exec (.destroyStream r) s = .next t ∧ repliedWith t r stOK ∧ streamOf t n = none ∧
      (∀ m, m ≠ n → streamOf t m = streamOf s m) ∧
      t = { s with regs := t.regs, mem := t.mem, banks := t.banks, plPend := t.plPend, plLatch := t.plLatch, clPend := t.clPend,
                   clLatch := t.clLatch, streams := t.streams, waits := t.waits, granules := t.granules, host := t.host,
                   sent := t.sent, bridge := t.bridge }) ∧
    (tlv r 0x8033 = none → carries x = false → ∀ e, chkLaunch s n x = some e → ∃ t, exec (.startStream r) s = .next t ∧
      repliedWith t r e.1 ∧ t = { s with mem := t.mem, host := t.host, sent := t.sent }) ∧
    (tlv r 0x8033 = none → carries x = false → chkLaunch s n x = none → dReal x = false → dWidth x ≠ 0 → dHeight x ≠ 0 →
      ∀ s1, mapAll s0 x.ctx (dXlate x) (streamBuffers s0 n x) = some s1 → ∃ t y, exec (.startStream r) s = .next t ∧
        streamOf t n = some y ∧ y.phase = .launching ∧ y.ctx = x.ctx ∧
        y.strings.map (fun g => g.tiles) = x.strings.map (fun g => g.tiles) ∧ (∀ g ∈ y.strings, g.inFlight = [] ∧ g.parked = []) ∧
        y.written = 0 ∧ y.frames = [] ∧ y.markers = [] ∧ y.completed = 0 ∧ wbit t (intakeBase (dPort y)) 0 = true ∧
        (y.startReply = none → r.typ = 0x0031 → repliedWith t r stOK) ∧ (∀ q, y.startReply = some q → (q.1, q.2.1) = (r.sess, r.seq)) ∧
        (∀ m, m ≠ n → streamOf t m = streamOf s m) ∧
        t = { s with free := t.free, regs := t.regs, mem := t.mem, clk := t.clk, bus := t.bus, streams := t.streams, tiles := t.tiles,
                     cores := t.cores, chans := t.chans, bru := t.bru, flags := t.flags, waits := t.waits, updates := t.updates,
                     queues := t.queues, granules := t.granules, shm := t.shm, poison := t.poison, fc := t.fc, host := t.host,
                     sent := t.sent, bridge := t.bridge, power := t.power })) ∧
  (∀ (s : State) (r : AcpReq), asks s r → objectOf r = none → ∃ t, exec (.cancel r) s = .next t ∧ repliedWith t r stCANCELLED ∧
    (∀ n x, streamOf t n = some x → x.ctx = r.ctx → carries x = false)) ∧
  (∀ (s : State) (r : AcpReq) (n : Nat) (j : Job), asks s r → objectOf r = some (2, n) → objectStatus s r 2 n = none → jobOf s n = some j →
    j.st = .held → ∃ t, exec (.cancel r) s = .next t ∧ repliedWith t r stCANCELLED ∧ jobOf t n = none ∧
      (∀ m, m ≠ n → jobOf t m = jobOf s m) ∧ t = { s with mem := t.mem, host := t.host, sent := t.sent }) ∧
  (∀ (s : State) (r : AcpReq) (v o : List Byte) (e : Nat × Nat × Nat), asks s r →
    (∀ j y, jobOf s j = some y → y.req ≠ r) → v = (tlv r 0x8036).getD [] → o = (tlv r 0x8033).getD (List.replicate 12 0) →
    chkJob s r v o = some e → ∃ t, exec (.launchJob r) s = .next t ∧ repliedWith t r e.1 ∧ (∀ j, jobOf t j = jobOf s j) ∧
      t = { s with regs := t.regs, mem := t.mem, host := t.host, sent := t.sent, bridge := t.bridge }) ∧
  (∀ (s s0 s1 s3 : State) (r : AcpReq) (v : List Byte) (p : Package) (net : Network) (i : Nat) (ch : Nat × Nat),
    asks s r → s0 = beginReq s r → (∀ j y, jobOf s j = some y → y.req ≠ r) → v = (tlv r 0x8036).getD [] →
    chkJob s0 r v ((tlv r 0x8033).getD (List.replicate 12 0)) = none → importTlvs r = [] → exportTlvs r = [] →
    packageOf s (jobTlv v).1 = some p → p.content.networks.find? (fun n => n.index = (jobTlv v).2.1) = some net →
    findFrom (fun i => (jobOf s (i % 65536)).isNone) 65536 s.host.nextJob = some i →
    (jobTlv v).2.2.1.getD 0 0 ≤ net.maxW → (jobTlv v).2.2.1.getD 1 0 ≤ net.maxH → (jobTlv v).2.2.1.getD 2 0 ≤ net.maxN →
    (jobTlv v).2.2.1.getD 3 0 ≤ net.maxT →
    (0 ∈ (jobTlv v).2.2.1 → ∃ t, exec (.launchJob r) s = .next t ∧ repliedWith t r stEMPTY ∧ (∀ j, jobOf t j = jobOf s j)) ∧
    (0 ∉ (jobTlv v).2.2.1 → chkMinTiles s0 p = none →
      jobChoice p.content (List.range p.content.variants.length) s.retire.inService.length (jobTlv v).2.2.1 (jobTlv v).2.2.2.1 = some ch →
      mapAll s0 r.ctx r.ctx (jobTlv v).2.2.2.2 = some s1 → chkInst s1 r.ctx r.ctx p.content ch.1 ch.2 none (jobTlv v).2.2.1 = none →
      neverFits s1 r.ctx ch.1 p (jobTlv v).2.2.1 = false → s3 = { s1 with host := { s1.host with nextJob := i % 65536 + 1 } } →
      ((othersHeld s3 r.ctx (i % 65536) = true ∨ jobAdmit s3 r.ctx ch.1 p (jobTlv v).2.2.1 (jobTlv v).2.2.2.1 = none) →
        ∃ t k, exec (.launchJob r) s = .next t ∧ jobOf t (i % 65536) = some k ∧ k.st = .held ∧ k.ctx = r.ctx ∧ k.plan = (jobTlv v).1 ∧
          k.shape = (jobTlv v).2.2.1 ∧ k.req = r ∧ unanswered t r = true ∧ t = { s with mem := t.mem, host := t.host, sent := t.sent }) ∧
      (∀ fit, s.host.jobs = [] → jobAdmit s3 r.ctx ch.1 p (jobTlv v).2.2.1 (jobTlv v).2.2.2.1 = some fit →
        ∃ t k, exec (.launchJob r) s = .next t ∧ jobOf t (i % 65536) = some k ∧ (k.st = .placed ∨ k.st = .running) ∧ k.ctx = r.ctx ∧
          k.plan = (jobTlv v).1 ∧ k.shape = (jobTlv v).2.2.1 ∧ k.variant = fit.variant ∧ k.tiles = fit.strings.flatten ∧
          k.cores = fit.cores ∧ k.chans = fit.chans ∧ (k.st = .running → repliedWith t r stOK)))) ∧
  (∀ (s : State) (n : Nat) (j : Job), jobOf s n = some j → j.st = .held →
    (s.clk.up ≤ j.heldAt + 1000000000 → exec (.launchHoldTimeout n) s = .next s) ∧
    (j.heldAt + 1000000000 < s.clk.up → unanswered s j.req = true → ∃ t, exec (.launchHoldTimeout n) s = .next t ∧
      jobOf t n = none ∧ repliedWith t j.req (if j.energyShort then stENERGY else stCOUNT) ∧
      (∀ m, m ≠ n → jobOf t m = jobOf s m) ∧
      t = { s with regs := t.regs, mem := t.mem, host := t.host, sent := t.sent, bridge := t.bridge }))

/-- LINK_TRAINING, LINK_RETRAIN, LINK_RETRAIN_REQUEST, ROUTE_UPDATE, ROUTE_LOSS_TIMEOUT (R342 to R349, R358). That a link whose peer is
not the expected one after READY is DOWN, and that the windows of a lost route are removed at once, are the model's readings (log 39). -/
def Obligations.BridgeLinks : Prop :=
  (∀ (s : State) (k w v : Nat) (r : TrainResult), mayTrain s k = true → (linkOf s k).st = .training →
    w = min (laneWidth r.lanes) r.peerWidth → v = (if r.peerV2 then 2 else if r.peerV1 then 1 else 0) →
    (w = 0 → (linkOf s k).attempts < 2 → exec (.linkTraining k r) s =
      .next (setLink s k { linkOf s k with st := .training, attempts := (linkOf s k).attempts + 1 })) ∧
    (w = 0 → 2 ≤ (linkOf s k).attempts → ∃ t, exec (.linkTraining k r) s = .next t ∧ (linkOf t k).st = .failed ∧
      (linkOf t k).attempts = (linkOf s k).attempts + 1 ∧ (∀ j, j ≠ k → linkOf t j = linkOf s j) ∧ t = { s with
                                                                                                                free := t.free,
                                                                                                                mem := t.mem,
                                                                                                                fc := t.fc,
                                                                                                                host := t.host,
                                                                                                                sent := t.sent,
                                                                                                                bridge := t.bridge }) ∧
    (w ≠ 0 → ∃ t, exec (.linkTraining k r) s = .next t ∧ (linkOf t k).width = w ∧ (linkOf t k).version = v ∧
      (linkOf t k).peer = r.peerDevice % 2 ^ 14 ∧ (linkOf t k).peerLink = r.peerLink % 4 ∧ (linkOf t k).peerSystem = r.peerSystem ∧
      (linkOf t k).attempts = (linkOf s k).attempts + 1 ∧
      ((s.boot.st ≠ .ready ∨ (r.peerSystem = systemId s ∧ r.peerDevice % 2 ^ 14 = (linkEntry s k).2.2.1 ∧
          r.peerLink % 4 = (linkEntry s k).2.2.2)) → (linkOf t k).st = (if v = 0 then .mgmtOnly else .up)) ∧
      (s.boot.st = .ready → ¬(r.peerSystem = systemId s ∧ r.peerDevice % 2 ^ 14 = (linkEntry s k).2.2.1 ∧
          r.peerLink % 4 = (linkEntry s k).2.2.2) → (linkOf t k).st = .down) ∧
      (∀ j, j ≠ k → linkOf t j = linkOf s j) ∧ t = { s with free := t.free, mem := t.mem, fc := t.fc, host := t.host,
                                                            sent := t.sent, bridge := t.bridge,
                                                            flash := t.flash })) ∧
  (∀ (s : State) (k : Nat) (r : TrainResult), (mayTrain s k = false ∨ (linkOf s k).st ≠ .training) →
    exec (.linkTraining k r) s = .next s) ∧
  (∀ (s : State) (k w : Nat) (r : TrainResult), (linkOf s k).st = .up → heldInReset s (.bridge k) = false →
    w = min (laneWidth r.lanes) r.peerWidth → ∃ t, exec (.linkRetrain k r) s = .next t ∧
      word t (bridgeBase + k * 0x100 + 0x1C) = satInc (word s (bridgeBase + k * 0x100 + 0x1C)) ∧
      (∀ key, key ≠ bridgeBase + k * 0x100 + 0x1C → key ≠ bridgeBase + k * 0x100 + 0x10 → word t key = word s key) ∧
      ((w = 0 ∨ r.eyePass = false) → (linkOf t k).st = .failed ∧ (linkOf t k).width = 0 ∧
        word t (bridgeBase + k * 0x100 + 0x10) = word s (bridgeBase + k * 0x100 + 0x10)) ∧
      (w ≠ 0 → r.eyePass = true → word t (bridgeBase + k * 0x100 + 0x10) =
        (s.bridge.out.filter (fun p => p.link = some k)).foldl (fun v _ => satInc v) (word s (bridgeBase + k * 0x100 + 0x10))) ∧
      (w ≠ 0 → r.eyePass = true → (linkOf t k).width = w ∧ (s.boot.st ≠ .ready → (linkOf t k).st = .up) ∧
        (s.bridge.written = none → linkMissing s k = false → (linkOf t k).st = .up)) ∧
      (∀ x, s.bridge.written = some x → t.bridge.record = some x) ∧ (∀ j, j ≠ k → linkOf t j = linkOf s j) ∧
      t = { s with free := t.free, regs := t.regs, mem := t.mem, fc := t.fc, host := t.host, sent := t.sent, bridge := t.bridge,
                   flash := t.flash }) ∧
  (∀ (s : State) (src : Src) (k a : Nat) (v : Word), k < 4 → a = bridgeBase + k * 0x100 → meets s src a = .here →
    (isApgil src = true → bitOf v 1 = true → ∃ t, exec (.linkRetrainRequest src k v) s = .next t ∧ wbit t a 1 = true ∧
      (linkOf t k).st = .down ∧ (linkOf t k).width = 0 ∧ (∀ j, j ≠ k → linkOf t j = linkOf s j) ∧
      (∀ key, key ≠ a → word t key = word s key) ∧
      t = { s with free := t.free, regs := t.regs, mem := t.mem, fc := t.fc, host := t.host, sent := t.sent, bridge := t.bridge }) ∧
    (isApgil src = true → bitOf v 1 = false → bitOf v 0 = true → ∃ t, exec (.linkRetrainRequest src k v) s = .next t ∧
      wbit t a 1 = false ∧ (∀ key, key ≠ a → word t key = word s key) ∧
      (s.bridge.written = none → mayTrain (setWbit s a 1 false) k = true →
        linkOf t k = { linkOf s k with st := .training, attempts := 0, missing := false }) ∧
      (s.bridge.written = none → mayTrain (setWbit s a 1 false) k = false → linkOf t k = linkOf s k) ∧
      (∀ j, j ≠ k → linkOf t j = linkOf s j) ∧ t = { s with regs := t.regs, bridge := t.bridge }) ∧
    (isApgil src = true → bitOf v 1 = false → bitOf v 0 = false →
      exec (.linkRetrainRequest src k v) s = .next (setWbit s a 1 false)) ∧
    (isApgil src = false → ∃ t, exec (.linkRetrainRequest src k v) s = .next t ∧
      t.fc = collected s 0x104 0 (srcIndex src) (srcCtx s src) a ∧ t = { s with fc := t.fc })) ∧
  (∀ (s : State) (k d : Nat) (l : List Neighbour), (linkCarries s true k = true →
      ∃ t, exec (.routeUpdate k d l) s = .next t ∧
        t.bridge.neighbours = s.bridge.neighbours.filter (fun e => e.device ≠ d) ++ l.filter (fun e => e.device = d) ∧
        (∀ j, linkOf t j = linkOf s j) ∧ (∀ j, windowOf t j = windowOf s j) ∧ t = { s with bridge := t.bridge }) ∧
    (linkCarries s true k = false → exec (.routeUpdate k d l) s = .next s)) ∧
  (∀ (s : State) (d : Nat), ((routeTo s false d).isNone = true → tget 0 s.bridge.lostSince d ≠ 0 →
      tget 0 s.bridge.lostSince d + 10000000 ≤ s.clk.up + 1 → ∃ t, exec (.routeLossTimeout d) s = .next t ∧
        (∀ w, w < 256 → (windowOf s w).st ≠ .closed → wfld s (winReg w 0) 29 16 = d →
          (windowOf t w).st = .closed ∧ word t (winReg w 0) = 0) ∧
        (∀ w, w < 256 → ((windowOf s w).st = .closed ∨ wfld s (winReg w 0) 29 16 ≠ d) →
          windowOf t w = windowOf s w ∧ word t (winReg w 0) = word s (winReg w 0)) ∧
        (∀ p ∈ t.bridge.out, p.dest ≠ d) ∧ (∀ p ∈ s.bridge.out, p.dest ≠ d → p ∈ t.bridge.out) ∧
        (∀ j, linkOf t j = linkOf s j) ∧ t = { s with regs := t.regs, mem := t.mem, host := t.host,
                                                      sent := t.sent, bridge := t.bridge }) ∧
    (((routeTo s false d).isSome = true ∨ tget 0 s.bridge.lostSince d = 0 ∨ s.clk.up + 1 < tget 0 s.bridge.lostSince d + 10000000) →
      exec (.routeLossTimeout d) s = .next s))

/-- REMOTE_ACCESS, FLAG_WINDOW_WRITE, IMPORT_REQUEST, IMPORT_GRANTED, IMPORT_TIMEOUT, WINDOW_CLOSE, WINDOW_CLOSE_DONE (R348, R350 to R354).
`b` is the state once the request `a` has come in its turn. The answer to an export that is not there, that the windows and aperture ranges
are taken lowest first (log 39), and how requests are numbered (log 71), are the model's. -/
def Obligations.BridgeWindows : Prop :=
  (∀ (s b : State) (a : RemoteReq), linkCarries s false a.link = true → heldInReset s (.bridge a.link) = false →
    a.num = tget 0 s.bridge.expect (sendKey a) → (∀ q ∈ s.bridge.early, sendKey q ≠ sendKey a) →
    b = { s with bridge := { s.bridge with remote := [], expect := tset 0 s.bridge.expect (sendKey a) (a.num + 1) } } →
    ((exportOf s a.exportId = none ∨ ∃ e, exportOf s a.exportId = some e ∧ e.closedAt.isSome = true ∧ e.flagGroup = false) →
      exec (.remoteAccess a) s = .next { b with bridge := { b.bridge with remote := [(a.sender, stWINDOW, noData a)] } }) ∧
    (∀ e, exportOf s a.exportId = some e → e.closedAt = none → e.flagGroup = true → a.write = false → a.offset % 4 = 0 →
      a.bytes = 4 → a.offset < 256 → exec (.remoteAccess a) s = .next { b with bridge := { b.bridge with
        remote := [(a.sender, stOK, leBytes 4 (flagOf s (64 * e.base + a.offset / 4)).toNat)] } }) ∧
    (∀ e n, exportOf s a.exportId = some e → e.closedAt = none → e.flagGroup = false →
      n = (if a.write then a.data.length else a.bytes) →
      ((e.bytes < a.offset + n ∨ (if a.write then e.write else e.read) = false) →
        (a.write = true → exec (.remoteAccess a) s = .next (bump b (bridgeBase + a.link * 0x100 + 0x18))) ∧
        (a.write = false → exec (.remoteAccess a) s = .next { b with bridge := { b.bridge with
          remote := [(a.sender, stPAGE, List.replicate a.bytes 0)] } })) ∧
      (a.offset + n ≤ e.bytes → (if a.write then e.write else e.read) = true → 0 < n → (e.base + a.offset) % 256 + n ≤ 256 →
        (translate s e.xlate a.write (e.base + a.offset) = none → ∃ t, exec (.remoteAccess a) s = .next t ∧
          t.fc = collected s 0x205 stPAGE (1122 + a.link) (some e.ctx) (e.base + a.offset) ∧
          (a.write = true → word t (bridgeBase + a.link * 0x100 + 0x18) = satInc (word s (bridgeBase + a.link * 0x100 + 0x18)) ∧
            t.bridge = b.bridge) ∧
          (a.write = false → t.bridge = { b.bridge with remote := [(a.sender, stPAGE, List.replicate a.bytes 0)] }) ∧
          t = { s with regs := t.regs, fc := t.fc, bridge := t.bridge }) ∧
        (∀ p, translate s e.xlate a.write (e.base + a.offset) = some p →
          (∀ d, locDomain p (locate p) = some d → heldInReset s d = true → ∃ t, exec (.remoteAccess a) s = .next t ∧
            t.bridge = { b.bridge with remote := [(a.sender, stRESET, noData a)] } ∧
            t.fc = collected s 0x107 stRESET (1122 + a.link) none p ∧ t = { s with fc := t.fc, bridge := t.bridge }) ∧
          (p + n ≤ s.ddrBytes → locate p = .ddr → heldInReset s (.ddr (p / 256 % 4)) = false →
            (a.write = false → exec (.remoteAccess a) s = .next { b with bridge := { b.bridge with
              remote := [(a.sender, stOK, bytesAt s p n)] } }) ∧
            (a.write = true → ∃ t, exec (.remoteAccess a) s = .next t ∧
              t.bridge = { b.bridge with remote := [(a.sender, stOK, [])] } ∧
              (∀ q, q < p ∨ p + n ≤ q → byteAt t q = byteAt s q) ∧ (∀ i, i < n → byteAt t (p + i) = a.data.getD i 0) ∧
              t = { s with free := t.free, mem := t.mem, shm := t.shm, poison := t.poison, bridge := t.bridge })))))) ∧
  (∀ (s : State) (a q : RemoteReq), linkCarries s false a.link = true → heldInReset s (.bridge a.link) = false →
    exportOf s a.exportId = none →
    (tget 0 s.bridge.expect (sendKey a) < a.num → (∀ q ∈ s.bridge.early, sendKey q = sendKey a → q.num ≠ a.num) →
      exec (.remoteAccess a) s = .next { s with bridge := { s.bridge with remote := [], early := s.bridge.early ++ [a] } }) ∧
    (a.num < tget 0 s.bridge.expect (sendKey a) → exec (.remoteAccess a) s = .next { s with bridge := { s.bridge with remote := [] } }) ∧
    (a.num = tget 0 s.bridge.expect (sendKey a) → s.bridge.early = [q] → sendKey q = sendKey a → q.num = a.num + 1 →
      exportOf s q.exportId = none → ∃ t, exec (.remoteAccess a) s = .next t ∧
        t.bridge.remote = [(a.sender, stWINDOW, noData a), (q.sender, stWINDOW, noData q)] ∧ t.bridge.early = [] ∧
        tget 0 t.bridge.expect (sendKey a) = a.num + 2 ∧ t = { s with bridge := t.bridge })) ∧
  (∀ (s : State) (a : RemoteReq), (linkCarries s false a.link = false ∨ heldInReset s (.bridge a.link) = true) →
    exec (.remoteAccess a) s = .next s ∧ exec (.flagWindowWrite a) s = .next s) ∧
  (∀ (s b : State) (a : RemoteReq) (e : ExportBuf) (f v : Nat), linkCarries s false a.link = true →
    heldInReset s (.bridge a.link) = false → a.num = tget 0 s.bridge.expect (sendKey a) →
    (∀ q ∈ s.bridge.early, sendKey q ≠ sendKey a) →
    b = { s with bridge := { s.bridge with remote := [], expect := tset 0 s.bridge.expect (sendKey a) (a.num + 1) } } →
    a.write = true → exportOf s a.exportId = some e → e.flagGroup = true →
    (e.closedAt.isSome = true → exec (.flagWindowWrite a) s = .next
      { b with bridge := { b.bridge with remote := [(a.sender, stWINDOW, [])] } }) ∧
    (e.closedAt = none → a.data.length = 4 → a.offset % 4 = 0 → f = 64 * e.base + a.offset / 4 → v = leAt a.data 0 4 →
    ((e.write = false ∨ (linkOf s a.link).version < 2) →
      exec (.flagWindowWrite a) s = .next (bump b (bridgeBase + a.link * 0x100 + 0x18))) ∧
    (e.write = true → 2 ≤ (linkOf s a.link).version →
      (256 ≤ a.offset → exec (.flagWindowWrite a) s = .next
        { bump b (bridgeBase + a.link * 0x100 + 0x18) with bridge := { b.bridge with remote := [(a.sender, stOK, [])] } }) ∧
      (a.offset < 256 → v = 0 → exec (.flagWindowWrite a) s = .next
        { b with bridge := { b.bridge with remote := [(a.sender, stOK, [])] } }) ∧
      (a.offset < 256 → v ≠ 0 → heldInReset s .network = false → s.clk.updates < 8 → s.updates = [] →
        flagAllowed s (some e.ctx) f = true → ∃ t, exec (.flagWindowWrite a) s = .next t ∧
          flagOf t f = flagOf s f + BitVec.ofNat 32 v ∧ (∀ k, k ≠ f → flagOf t k = flagOf s k) ∧
          t.bridge = { b.bridge with remote := [(a.sender, stOK, [])] } ∧
          t = { s with regs := t.regs, clk := t.clk, tiles := t.tiles, cores := t.cores, chans := t.chans, bru := t.bru,
                       flags := t.flags, waits := t.waits, queues := t.queues, fc := t.fc, bridge := t.bridge })))) ∧
  (∀ (s : State) (who id ms : Nat),
    (∀ e, exportOf s id = some e → exec (.importRequest who id ms) s = .next { s with bridge := { s.bridge with
      answers := s.bridge.answers ++ [(who, id, if e.closedAt.isSome then stWINDOW else stOK)] } }) ∧
    (exportOf s id = none → exec (.importRequest who id ms) s = .next { s with bridge := { s.bridge with
      asked := s.bridge.asked ++ [(who, id, s.clk.up + (if ms = 0 then 1000 else ms) * 1000000)] } })) ∧
  (∀ (s : State) (id owner bytes : Nat) (fg rd wr : Bool),
    (s.bridge.imports.find? (fun i => i.ident = id && i.owner = owner) = none →
      exec (.importGranted id owner bytes fg rd wr) s = .next s) ∧
    (∀ i w b m, s.bridge.imports.find? (fun i => i.ident = id && i.owner = owner) = some i → bytes ≤ 0x200000 →
      findBelow (fun w => decide ((windowOf s w).st = .closed)) 256 = some w → apertureFree s 1 = some b →
      mapBig s i.xlate i.io (apertureBase + b * 0x200000) (1 + b2n rd * 4 + b2n wr * 8) = some m →
      (∃ q ∈ s.bridge.imports, q ≠ i ∧ q.sess = i.sess ∧ q.seq = i.seq) →
      ∃ t, exec (.importGranted id owner bytes fg rd wr) s = .next t ∧
        windowOf t w = { st := .open', ctx := i.ctx, xlate := i.xlate, io := i.io, req := (i.sess, i.seq) } ∧
        word t (winReg w 0) = BitVec.ofNat 32 (1 + b2n fg * 2 + b2n rd * 4 + b2n wr * 8 + owner % 2 ^ 14 * 2 ^ 16) ∧
        word t (winReg w 4) = BitVec.ofNat 32 b ∧ word t (winReg w 8) = 1 ∧ word t (winReg w 12) = BitVec.ofNat 32 id ∧
        (∀ k, k ≠ w → windowOf t k = windowOf s k) ∧ t.bridge.imports = s.bridge.imports.filter (fun q => q ≠ i) ∧
        t.mem = m.mem ∧ t = { s with regs := t.regs, mem := t.mem, bridge := t.bridge }) ∧
    (∀ i y r, s.bridge.imports.find? (fun i => i.ident = id && i.owner = owner) = some i → sessionOf s i.sess = some y →
      y.executing.find? (fun r => r.seq = i.seq) = some r → r.sess = i.sess →
      ((∀ w, w < 256 → (windowOf s w).st ≠ .closed) ∨ apertureFree s (max 1 (ceilDiv bytes 0x200000)) = none) →
      ∃ t, exec (.importGranted id owner bytes fg rd wr) s = .next t ∧ repliedWith t r stCOUNT ∧
        (∀ q ∈ t.bridge.imports, ¬(q.sess = i.sess ∧ q.seq = i.seq)) ∧
        t = { s with regs := t.regs, mem := t.mem, host := t.host, sent := t.sent, bridge := t.bridge })) ∧
  (∀ (s : State) (id : Nat),
    (∀ i y r, s.bridge.imports.find? (fun i => decide (i.ident = id) && decide (i.until' ≤ s.clk.up)) = some i →
      sessionOf s i.sess = some y → y.executing.find? (fun r => r.seq = i.seq) = some r → r.sess = i.sess →
      ∃ t, exec (.importTimeout id) s = .next t ∧ repliedWith t r stTIMEOUT ∧
        (∀ q ∈ t.bridge.imports, ¬(q.sess = i.sess ∧ q.seq = i.seq)) ∧
        (∀ w, w < 256 → (windowOf s w).req = (i.sess, i.seq) → (windowOf t w).st = .closed) ∧ t = { s with
                                                                                                           regs := t.regs,
                                                                                                           mem := t.mem,
                                                                                                           host := t.host,
                                                                                                           sent := t.sent,
                                                                                                           bridge := t.bridge }) ∧
    ((∀ i ∈ s.bridge.imports, i.ident = id → s.clk.up < i.until') → exec (.importTimeout id) s = .next { s with bridge := { s.bridge with
      asked := s.bridge.asked.filter (fun q => !(decide (q.2.1 = id) && decide (q.2.2 ≤ s.clk.up))) } })) ∧
  (∀ (s : State) (id : Nat), (∀ i ∈ s.bridge.imports, i.ident ≠ id) → ∃ t, exec (.windowClose id) s = .next t ∧
    t.bridge.exports = s.bridge.exports.map (fun e => if e.ident = id ∧ e.closedAt = none then { e with closedAt := some s.clk.up } else e) ∧
    (∀ w, w < 256 → (word s (winReg w 12)).toNat = id → (windowOf s w).st = .open' → (windowOf t w).st = .closing) ∧
    (∀ w, ((word s (winReg w 12)).toNat ≠ id ∨ (windowOf s w).st ≠ .open') → windowOf t w = windowOf s w) ∧ t = { s with
                                                                                                                         mem := t.mem,
                                                                                                                         host := t.host,
                                                                                                                         sent := t.sent,
                                                                                                                         bridge := t.bridge }) ∧
  (∀ (s : State) (id : Nat) (i : ImportWait) (y : Session) (r : AcpReq), s.bridge.imports.find? (fun i => i.ident = id) = some i →
    sessionOf s i.sess = some y → y.executing.find? (fun r => r.seq = i.seq) = some r → r.sess = i.sess →
    ∃ t, exec (.windowClose id) s = .next t ∧ repliedWith t r stWINDOW ∧
      (∀ q ∈ t.bridge.imports, ¬(q.sess = i.sess ∧ q.seq = i.seq)) ∧ t = { s with regs := t.regs,
                                                                                  mem := t.mem,
                                                                                  host := t.host,
                                                                                  sent := t.sent,
                                                                                  bridge := t.bridge }) ∧
  (∀ (s : State) (id : Nat), ∃ t, exec (.windowCloseDone id) s = .next t ∧
    t.bridge.exports = s.bridge.exports.filter (fun e => !(decide (e.ident = id) && e.closedAt.isSome)) ∧
    (∀ w, w < 256 → (windowOf s w).st = .closing → (word s (winReg w 12)).toNat = id →
      (windowOf t w).st = .closed ∧ word t (winReg w 0) = 0) ∧
    (∀ w, w < 256 → ((windowOf s w).st ≠ .closing ∨ (word s (winReg w 12)).toNat ≠ id) →
      windowOf t w = windowOf s w ∧ word t (winReg w 0) = word s (winReg w 0)) ∧ t = { s with regs := t.regs,
                                                                                              mem := t.mem,
                                                                                              host := t.host,
                                                                                              bridge := t.bridge })

/-- INLET_WRITE, INLET_COMMIT, SMI_MESSAGE_TAKE, SMI_BOOT, SEAL_CHANGE, VDD_SMI_CHANGE (R362 to R365, R371, R374 to R376, R433, R457).
That HALTED is judged before RECOVERY, and that RECOVERY makes no record, are the model's readings (log 35). -/
def Obligations.SmiInlet : Prop :=
  (∀ (s : State) (src : Src) (off : Nat) (v : Word), off < 0x40000 → meets s src (smiBase + off) = .here →
    (inletWriter s src = true → s.smi.committed.testBit (off / 0x4000) = false → ∃ t, exec (.inletWrite src off v) s = .next t ∧
      (∀ i, i < 4 → byteAt t (smiBase + off + i) = (leBytes 4 v.toNat).getD i 0) ∧
      (∀ p, (p < smiBase + off ∨ smiBase + off + 4 ≤ p) → byteAt t p = byteAt s p) ∧ t = { s with mem := t.mem }) ∧
    (inletWriter s src = true → s.smi.committed.testBit (off / 0x4000) = true → ∃ t, exec (.inletWrite src off v) s = .next t ∧
      wbit t (smReg 0xC) 1 = true ∧ (∀ key, key ≠ smReg 0xC → word t key = word s key) ∧
      t.fc = collected s 0x104 0 (srcIndex src) (srcCtx s src) (smiBase + off) ∧ t = { s with regs := t.regs, fc := t.fc }) ∧
    (inletWriter s src = false → ∃ t, exec (.inletWrite src off v) s = .next t ∧
      t.fc = collected s 0x104 0 (srcIndex src) (srcCtx s src) (smiBase + off) ∧ t = { s with fc := t.fc })) ∧
  (∀ (s : State) (src : Src) (v : Word), meets s src (smReg 8) = .here →
    (inletWriter s src = true → (∀ k ∈ inletSlots (fld v 3 0) (fld v 7 4 + 1), s.smi.committed.testBit k = false) →
      ∃ t, exec (.inletCommit src v) s = .next t ∧ t.smi.queue = s.smi.queue ++ [(fld v 3 0, fld v 7 4 + 1)] ∧
        (∀ k, k < 16 → t.smi.committed.testBit k =
          (s.smi.committed.testBit k || decide (k ∈ inletSlots (fld v 3 0) (fld v 7 4 + 1)))) ∧
        t = { s with smi := { s.smi with queue := t.smi.queue, committed := t.smi.committed } }) ∧
    (inletWriter s src = true → (∃ k ∈ inletSlots (fld v 3 0) (fld v 7 4 + 1), s.smi.committed.testBit k = true) →
      ∃ t, exec (.inletCommit src v) s = .next t ∧ wbit t (smReg 0xC) 0 = true ∧
        (∀ key, key ≠ smReg 0xC → word t key = word s key) ∧ t = { s with regs := t.regs }) ∧
    (inletWriter s src = false → ∃ t, exec (.inletCommit src v) s = .next t ∧
      t.fc = collected s 0x104 0 (srcIndex src) (srcCtx s src) (smReg 8) ∧ t = { s with fc := t.fc })) ∧
  (∀ (s : State) (f n : Nat) (q : List (Nat × Nat)), smiAwake s = true → s.smi.work = none → s.smi.fwPending = none →
    s.smi.queue = (f, n) :: q → ∃ t, exec .smiMessageTake s = .next t ∧ t.smi.queue = q ∧
      (∀ k, k < 16 → t.smi.committed.testBit k = (s.smi.committed.testBit k && !decide (k ∈ inletSlots f n))) ∧
      (kindTaken s (leAt (slotBytes s f n) 2 1) = true → t.smi.work = some (slotBytes s f n) ∧ t.mem = s.mem ∧
        t.smi.outWr = s.smi.outWr) ∧
      (kindTaken s (leAt (slotBytes s f n) 2 1) = false → t.smi.work = none ∧
        (s.smi.st = .running → recorded s t 5 stCOUNT) ∧ (s.smi.st ≠ .running → t.mem = s.mem ∧ t.smi.outWr = s.smi.outWr)) ∧
      t = { s with
        mem := t.mem
        smi := { s.smi with queue := t.smi.queue, committed := t.smi.committed, work := t.smi.work, outWr := t.smi.outWr } }) ∧
  (∀ s : State, (smiAwake s = false ∨ s.smi.work ≠ none ∨ s.smi.fwPending ≠ none ∨ s.smi.queue = []) →
    exec .smiMessageTake s = .next s) ∧
  (∀ (s : State), heldInReset s .smi = false → s.smi.st = .boot → s.pins.pwrGood = true → ∃ t, exec .smiBoot s = .next t ∧
    t.smi.boots = min bootLimit (s.smi.boots + 1) ∧
    (logSound s = false → t.smi.st = .halted ∧ t.mem = s.mem ∧ t.smi.log = s.smi.log) ∧
    (logSound s = true → (s.smi.keyHash = none ∨ newestEntry s [1] = none ∨
        ∃ e, newestEntry s [1] = some e ∧ e.digest ≠ s.smi.imageDigest) → t.smi.st = .recovery ∧ t.mem = s.mem) ∧
    (∀ e, logSound s = true → s.smi.keyHash ≠ none → newestEntry s [1] = some e → e.digest = s.smi.imageDigest →
      t.smi.st = .running ∧ t.smi.fwDigest = s.smi.imageDigest ∧ t.smi.legal = (newestEntry s [5]).isSome ∧ recorded s t 3 stOK) ∧
    (logSound s = true → logRoom s ≠ 0 → t.smi.sealed = s.pins.sealIn) ∧ t = { s with mem := t.mem,
                                                                                      smi := t.smi }) ∧
  (∀ s : State, (heldInReset s .smi = true ∨ s.smi.st ≠ .boot ∨ s.pins.pwrGood = false) → exec .smiBoot s = .next s) ∧
  (∀ (s : State) (b : Bool),
    (smiAwake s = true → s.smi.sealed ≠ b → logRoom s ≠ 0 → ∃ t, exec (.sealChange b) s = .next t ∧ t.smi.sealed = b ∧
      t.smi.event = (s.smi.event + 1) % 2 ^ 32 ∧ logged s t (if b then 6 else 7) ∧ t.pins = { s.pins with sealIn := b } ∧
      t.smi.keyHash = s.smi.keyHash ∧ t.smi.params = s.smi.params ∧ t.smi.st = s.smi.st ∧ t = { s with smi := t.smi, pins := t.pins }) ∧
    ((smiAwake s = false ∨ s.smi.sealed = b ∨ logRoom s = 0) →
      exec (.sealChange b) s = .next { s with pins := { s.pins with sealIn := b } })) ∧
  (∀ (s : State), exec (.vddSmiChange s.smi.vdd) s = .next s ∧
    (s.smi.vdd = false → ∃ t, exec (.vddSmiChange true) s = .next t ∧ t.smi = { s.smi with vdd := true, st := .boot, clock := 0 } ∧
      (partOf t 46).st = .on ∧ (∀ p, p ≠ 46 → partOf t p = partOf s p) ∧ t = { s with smi := t.smi, power := t.power }) ∧
    (s.smi.vdd = true → ∃ t, exec (.vddSmiChange false) s = .next t ∧ t.smi.vdd = false ∧ t.smi.st = .off ∧ t.smi.committed = 0 ∧
      t.smi.queue = [] ∧ t.smi.work = none ∧ t.smi.log = s.smi.log ∧ t.smi.event = s.smi.event ∧ t.smi.keyHash = s.smi.keyHash ∧
      t.smi.params = s.smi.params ∧ t.smi.slotA = s.smi.slotA ∧ t.smi.slotB = s.smi.slotB ∧ (partOf t 46).st = .off ∧
      (∀ p, p ≠ 46 → partOf t p = partOf s p) ∧ t = { s with free := t.free, regs := t.regs, mem := t.mem,
                                                             host := t.host, sent := t.sent, smi := t.smi,
                                                             power := t.power, flash := t.flash }))

/-- MEASURE, FW_CHUNK, FW_COMMIT, SMI_FW_DONE, CAL_INSTALL, PARAM_SET, LICENCE, LOG_READ, KEY_STATEMENT (R365 to R377). The layout of the
message bodies is the model's (log 34), and so is that a message with a bad signature is not logged (log 35). -/
def Obligations.SmiMessages : Prop :=
  (∀ (s : State) (bs : List Byte) (a : Nat), smiWork s 0x01 = some bs → s.smi.st = .running →
    a = smiBase + 0x100000 + s.smi.outWr % 1024 * 256 → ∃ t typ status, exec .measure s = .next t ∧ recorded s t typ status ∧
      (typ = 1 ∨ typ = 2) ∧ (msgCheckOk bs = false → typ = 2 ∧ status = stCHECK ∧ byteAt t (a + 17) = 1) ∧
      (msgCheckOk bs = true → structuredViews s bs = none → typ = 2 ∧ status = stCOUNT ∧ byteAt t (a + 17) = 2) ∧
      (typ = 1 → status = stOK ∧ byteAt t (a + 17) = 0 ∧ ∃ vs, structuredViews s bs = some vs ∧
        3 ≤ (vs.filter (fun v => !v.border)).length ∧
        ∀ v ∈ vs, ∃ c, cameraOf (activeSlot s) v.camera = some c ∧ c.ident = v.calib) ∧
      (typ = 2 → byteAt t (a + 17) ≠ 0 ∧ ∀ i, i < 32 → byteAt t (a + 48 + i) = 0) ∧
      t = { s with mem := t.mem, smi := { s.smi with work := none, outWr := t.smi.outWr } }) ∧
  (∀ (s : State) (bs m : List Byte), m = msgBody bs → s.smi.st = .running →
    (∀ c k, ((c, k) = (Instr.fwChunk, 0x10) ∨ (c, k) = (.fwCommit, 0x11) ∨ (c, k) = (.calInstall, 0x20) ∨ (c, k) = (.paramSet, 0x21) ∨
        (c, k) = (.logRead, 0x40) ∨ (c, k) = (.keyStatement, 0x41)) → smiWork s k = some bs → msgCheckOk bs = false →
      ∃ t, exec c s = .next t ∧ recorded s t 5 stCHECK ∧
        t = { s with mem := t.mem, smi := { s.smi with work := none, outWr := t.smi.outWr } }) ∧
    (msgCheckOk bs = true → msgLengthOk bs = true → leAt bs 0 2 = 1 →
      (smiWork s 0x10 = some bs → 65 ≤ m.length → leAt m 32 8 + (m.length - 64) ≤ smiImageMax →
        ∃ t, exec .fwChunk s = .next t ∧ recorded s t 5 stOK ∧ t.smi.staged = s.smi.staged ++ [(leAt m 32 8, m.drop 64)] ∧
          t = { s with mem := t.mem, smi := { s.smi with work := none, outWr := t.smi.outWr, staged := t.smi.staged } }) ∧
      (smiWork s 0x11 = some bs → 192 ≤ m.length → 0 < leAt m 32 4 → leAt m 32 4 ≤ smiImageMax → leAt m 32 4 ≤ coveredTo s.smi.staged →
        (msgSigned m s.smi.keyHash = false → ∃ t, exec .fwCommit s = .next t ∧ recorded s t 5 stSIGN ∧
          t = { s with mem := t.mem, smi := { s.smi with work := none, outWr := t.smi.outWr } }) ∧
        (msgSigned m s.smi.keyHash = true → leAt m 36 4 < s.smi.fwSecurity → ∃ t, exec .fwCommit s = .next t ∧
          recorded s t 5 stVERSION ∧ t = { s with mem := t.mem, smi := { s.smi with work := none, outWr := t.smi.outWr } }) ∧
        (msgSigned m s.smi.keyHash = true → s.smi.fwSecurity ≤ leAt m 36 4 → s.smi.sealed = true → logRoom s ≠ 0 →
          ∃ t, exec .fwCommit s = .next t ∧ recorded s t 5 stSEALED ∧
            t = { s with
              mem := t.mem
              smi := { s.smi with
                work := none, outWr := t.smi.outWr, log := t.smi.log, torn := t.smi.torn, refusals := t.smi.refusals
                refusedAt := t.smi.refusedAt } }) ∧
        (msgSigned m s.smi.keyHash = true → s.smi.fwSecurity ≤ leAt m 36 4 → s.smi.sealed = false → 2 ≤ logRoom s →
          s.smi.keyHash ≠ none → ∃ t d, exec .fwCommit s = .next t ∧ recorded s t 5 stOK ∧ logged s t 1 ∧
            t.smi.event = (s.smi.event + 1) % 2 ^ 32 ∧ t.smi.fwPending = some (d, leAt m 36 4) ∧
            d = beNat (sha256 ((assembled s.smi.staged).take (leAt m 32 4))) ∧ t.smi.keyHash = s.smi.keyHash ∧
            t.smi.st = s.smi.st ∧ t.smi.fwDigest = s.smi.fwDigest ∧ t.smi.params = s.smi.params ∧ t = { s with
                                                                                                               mem := t.mem,
                                                                                                               smi := t.smi,
                                                                                                               flash := t.flash })) ∧
      (smiWork s 0x20 = some bs → m.length = 64 + 60 * leAt m 36 1 + 128 → 0 < leAt m 36 1 → leAt m 36 1 ≤ 16 →
        (∀ x ∈ (calSlotOf m).cameras, x.index ≤ 15) → ((calSlotOf m).cameras.map (fun x => x.index)).Nodup →
        (msgSigned m s.smi.keyHash = false → ∃ t, exec .calInstall s = .next t ∧ recorded s t 5 stSIGN ∧
          t = { s with mem := t.mem, smi := { s.smi with work := none, outWr := t.smi.outWr } }) ∧
        (msgSigned m s.smi.keyHash = true → s.smi.sealed = true → logRoom s ≠ 0 → ∃ t, exec .calInstall s = .next t ∧
          recorded s t 5 stSEALED ∧ activeSlot t = activeSlot s ∧ t.smi.event = s.smi.event ∧ t.smi.slotA = s.smi.slotA ∧
          t.smi.slotB = s.smi.slotB ∧ t.smi.active = s.smi.active ∧ t = { s with mem := t.mem, smi := t.smi }) ∧
        (msgSigned m s.smi.keyHash = true → s.smi.sealed = false → logRoom s ≠ 0 → ∃ t, exec .calInstall s = .next t ∧
          recorded s t 5 stOK ∧ logged s t 3 ∧ activeSlot t = some (calSlotOf m) ∧ t.smi.active = !s.smi.active ∧
          (if s.smi.active then t.smi.slotB = s.smi.slotB else t.smi.slotA = s.smi.slotA) ∧
          t.smi.event = (s.smi.event + 1) % 2 ^ 32 ∧ t.smi.params = s.smi.params ∧ t = { s with mem := t.mem,
                                                                                                smi := t.smi })) ∧
      (∀ p, smiWork s 0x21 = some bs → 192 ≤ m.length → setParam s.smi.params (leAt m 32 4) (slice m 64 (m.length - 192)) = some p →
        (msgSigned m s.smi.keyHash = false → ∃ t, exec .paramSet s = .next t ∧ recorded s t 5 stSIGN ∧
          t = { s with mem := t.mem, smi := { s.smi with work := none, outWr := t.smi.outWr } }) ∧
        (msgSigned m s.smi.keyHash = true → s.smi.sealed = true → logRoom s ≠ 0 → ∃ t, exec .paramSet s = .next t ∧
          recorded s t 5 stSEALED ∧ t.smi.params = s.smi.params ∧ t.smi.event = s.smi.event ∧ t = { s with
                                                                                                           mem := t.mem,
                                                                                                           smi := t.smi }) ∧
        (msgSigned m s.smi.keyHash = true → s.smi.sealed = false → logRoom s ≠ 0 → ∃ t, exec .paramSet s = .next t ∧
          recorded s t 5 stOK ∧ logged s t 4 ∧ t.smi.params = p ∧ t.smi.event = (s.smi.event + 1) % 2 ^ 32 ∧
          activeSlot t = activeSlot s ∧ t = { s with mem := t.mem, smi := t.smi })) ∧
      (smiWork s 0x30 = some bs → s.host.licReply = none → licenceStatus (m.drop 64) s.smi.licKeyHash s.smi.serial = none →
        leAt m 88 4 % 2 = 1 → logRoom s ≠ 0 →
        (s.smi.sealed = true → ∃ t, exec .licence s = .next t ∧ recorded s t 5 stSEALED ∧ t.smi.legal = s.smi.legal ∧
          t.smi.event = s.smi.event ∧ t = { s with mem := t.mem, sent := t.sent, smi := t.smi }) ∧
        (s.smi.sealed = false → ∃ t, exec .licence s = .next t ∧ recorded s t 5 stOK ∧ logged s t 5 ∧ t.smi.legal = true ∧
          t.smi.event = (s.smi.event + 1) % 2 ^ 32 ∧ t = { s with mem := t.mem, sent := t.sent, smi := t.smi })) ∧
      (∀ st, smiWork s 0x30 = some bs → s.host.licReply = none → licenceStatus (m.drop 64) s.smi.licKeyHash s.smi.serial = some st →
        ∃ t, exec .licence s = .next t ∧ recorded s t 5 st ∧
          t = { s with mem := t.mem, smi := { s.smi with work := none, outWr := t.smi.outWr } }) ∧
      (smiWork s 0x40 = some bs → ∃ t, exec .logRead s = .next t ∧ t.smi.outWr = (s.smi.outWr +
          max 1 ((logValid s).filter (fun e => decide (leAt m 32 4 ≤ e.seq) && decide (e.seq ≤ leAt m 36 4))).length) % 2 ^ 32 ∧
        t = { s with mem := t.mem, smi := { s.smi with work := none, outWr := t.smi.outWr } }) ∧
      (smiWork s 0x41 = some bs → ∃ t, exec .keyStatement s = .next t ∧ recorded s t 3 stOK ∧
        t = { s with mem := t.mem, smi := { s.smi with work := none, outWr := t.smi.outWr } }))) ∧
  (∀ (s : State) (d v : Nat), s.smi.fwPending = some (d, v) → smiAwake s = true → flashPortBusy s.flash true = false →
    ∃ t, exec .smiFwDone s = .next t ∧ t.smi.imageDigest = d ∧ t.smi.fwSecurity = v ∧ t.smi.fwPending = none ∧ t.smi.st = .boot ∧
      t.smi.event = s.smi.event ∧ (logRoom s ≠ 0 → logged s t 2) ∧ t.smi.committed = 0 ∧ t = { s with
                                                                                                      regs := t.regs,
                                                                                                      mem := t.mem,
                                                                                                      host := t.host,
                                                                                                      sent := t.sent,
                                                                                                      smi := t.smi,
                                                                                                      flash := t.flash }) ∧
  (∀ s : State, (s.smi.fwPending = none ∨ smiAwake s = false ∨ flashPortBusy s.flash true = true) → exec .smiFwDone s = .next s) ∧
  (∀ (s : State) (c : Instr) (k : Nat), ((c, k) = (.measure, 0x01) ∨ (c, k) = (.fwChunk, 0x10) ∨ (c, k) = (.fwCommit, 0x11) ∨
    (c, k) = (.calInstall, 0x20) ∨ (c, k) = (.paramSet, 0x21) ∨ (c, k) = (.licence, 0x30) ∨ (c, k) = (.logRead, 0x40) ∨
    (c, k) = (.keyStatement, 0x41)) → smiWork s k = none → exec c s = .next s)

/-- ENERGY_SAMPLE and ENERGY_WINDOW (R380 to R386, R392). That issue is withheld from reserved contexts when the limit is exceeded in two
windows running is the model's reading (log 36), and so is that the default budget reaches a context at its next window (log 64). -/
def Obligations.EnergyAccounts : Prop :=
  (∀ (s : State) (mw : List Nat), (∀ c, 64 ≤ c → contextOf s c = none) →
    (∀ c x, contextOf s c = some x → x.charged + ((List.range 52).map (fun p => mw.getD p 0 % 2 ^ 24)).sum < 2 ^ 64) →
    ∃ t, exec (.energySample mw) s = .next t ∧ (∀ p, p < 52 → tget 0 t.power.sensors p = mw.getD p 0 % 2 ^ 24) ∧
      t.power.windowEnergy = s.power.windowEnergy + ((List.range 52).map (fun p => mw.getD p 0 % 2 ^ 24)).sum ∧
      ((List.range 64).map (fun c => ((contextOf t c).map (fun x => x.charged)).getD 0)).sum + t.power.overhead =
        ((List.range 64).map (fun c => ((contextOf s c).map (fun x => x.charged)).getD 0)).sum + s.power.overhead +
          ((List.range 52).map (fun p => mw.getD p 0 % 2 ^ 24)).sum ∧
      (∀ c x, contextOf s c = some x → (∀ n y, streamOf s n = some y → y.ctx = c → y.reserveLeft = 0) → x.balance < 2 ^ 31 →
        ∃ y, contextOf t c = some y ∧ x.charged ≤ y.charged ∧
          (-(2 ^ 31) ≤ x.balance - ((y.charged - x.charged : Nat) : Int) →
            y.balance = x.balance - ((y.charged - x.charged : Nat) : Int))) ∧
      t = { s with free := t.free, regs := t.regs, mem := t.mem, clk := t.clk, bus := t.bus, latches := t.latches,
                   streams := t.streams, tiles := t.tiles, cores := t.cores, chans := t.chans, bru := t.bru,
                   flags := t.flags, waits := t.waits, updates := t.updates, queues := t.queues,
                   granules := t.granules, shm := t.shm, poison := t.poison, fc := t.fc, host := t.host,
                   sent := t.sent, bridge := t.bridge, power := t.power, retire := t.retire }) ∧
  (∀ s : State, (contextList s).Nodup → ∃ t, exec .energyWindow s = .next t ∧
    t.power = { s.power with
      held := decide (wfld s (powerBase + 0x800) 16 0 * 10 < s.power.windowEnergy)
      heldReserved := decide (wfld s (powerBase + 0x800) 16 0 * 10 < s.power.windowEnergy) && s.power.held
      windowEnergy := 0
      windows := s.power.windows + 1 } ∧
    (∀ c x, contextOf s c = some x → x.pendingBudget = none → x.explicit = true → budgetOf t c = budgetOf s c ∧ capOf t c = capOf s c ∧
      contextOf t c = some { x with balance := satS 32 (min (x.balance + ((budgetOf s c : Int) - (x.reserved : Int)) * 1000)
        ((capOf s c * budgetOf s c * 1000 : Nat) : Int)) }) ∧
    (∀ c x, contextOf s c = some x → x.pendingBudget = none → x.explicit = false → s.host.defBudget ≤ 1000 → 1 ≤ s.host.defCap →
      s.host.defCap ≤ 16 → budgetOf t c = s.host.defBudget ∧ capOf t c = s.host.defCap ∧
      contextOf t c = some { x with
        variants := s.host.defVariants
        balance := satS 32 (min (x.balance + ((s.host.defBudget : Int) - (x.reserved : Int)) * 1000)
          ((s.host.defCap * s.host.defBudget * 1000 : Nat) : Int)) }) ∧
    (∀ c x b cap v, contextOf s c = some x → x.pendingBudget = some (b, cap, v) → b ≤ 1000 → 1 ≤ cap → cap ≤ 16 →
      budgetOf t c = b ∧ capOf t c = cap ∧
      contextOf t c = some { x with
        pendingBudget := none
        variants := v
        balance := satS 32 (min (x.balance + ((b : Int) - (x.reserved : Int)) * 1000) ((cap * b * 1000 : Nat) : Int)) }) ∧
    (∀ n, streamOf t n = (streamOf s n).map (fun x => { x with reserveLeft := x.reserved * 1000 })) ∧
    (∀ n, (tileOf t n).st = (tileOf s n).st) ∧ (∀ n, (coreOf t n).st = (coreOf s n).st) ∧
    t = { s with regs := t.regs, streams := t.streams, tiles := t.tiles, cores := t.cores, host := t.host, power := t.power })

/-- PARTITION_ENABLE, DISABLE, POWER_UP_DONE, POWER_DOWN_DONE, IDLE_TIMEOUT, DEVICE_IDLE_ENTRY, PARK_ENTRY, PARK_WAKE, TEMPERATURE_SAMPLE,
THERMAL_CAP_RELEASE (R28, R29, R277, R287, R299, R389 to R394, R398, R436). That a tripped device ignores an enable is in R393. -/
def Obligations.PowerStates : Prop :=
  (∀ (s : State) (src : Src) (p : Nat), p < 48 → meets s src (powerBase + 4 * p) = .here →
    (isApgil src = false → ∀ c, (c = Instr.partitionEnable src p ∨ c = .partitionDisable src p) → ∃ t, exec c s = .next t ∧
      t.fc = collected s 0x104 0 (srcIndex src) (srcCtx s src) (powerBase + 4 * p) ∧ t = { s with fc := t.fc }) ∧
    (isApgil src = true → (fixedPart p = true ∨ s.power.tripped = true) → exec (.partitionEnable src p) s = .next s) ∧
    (isApgil src = true → fixedPart p = false → s.power.tripped = false → ∃ t, exec (.partitionEnable src p) s = .next t ∧
      (partOf t p).st = (match (partOf s p).st with
        | .off => .poweringUp | .poweringUp => .poweringUp | .on => .on | .poweringDown => .enablePending
        | .enablePending => .enablePending) ∧
      ((partOf s p).st = .poweringUp → (partOf t p).disableNext = false) ∧ wbit t (powerBase + 4 * p) 0 = true ∧
      (∀ q, q ≠ p → partOf t q = partOf s q) ∧ (∀ key, key ≠ powerBase + 4 * p → word t key = word s key) ∧
      t = { s with regs := t.regs, power := t.power }) ∧
    (isApgil src = true → frontNeeded s p = true →
      exec (.partitionDisable src p) s = .next { s with bus := some { src := src, status := stBUSY, data := 0 } }) ∧
    (isApgil src = true → frontNeeded s p = false →
      (fixedPart p = true ∨ (partOf s p).st = .off ∨ (partOf s p).st = .poweringDown) → exec (.partitionDisable src p) s = .next s) ∧
    (isApgil src = true → fixedPart p = false → frontNeeded s p = false →
      ((partOf s p).st = .poweringUp ∨ (partOf s p).st = .enablePending) → ∃ t, exec (.partitionDisable src p) s = .next t ∧
      ((partOf s p).st = .poweringUp → (partOf t p).st = .poweringUp ∧ (partOf t p).disableNext = true) ∧
      ((partOf s p).st = .enablePending → (partOf t p).st = .poweringDown) ∧ wbit t (powerBase + 4 * p) 0 = false ∧
      (∀ q, q ≠ p → partOf t q = partOf s q) ∧ t = { s with regs := t.regs, power := t.power }) ∧
    (isApgil src = true → fixedPart p = false → frontNeeded s p = false → (partOf s p).st = .on →
      ∃ t, exec (.partitionDisable src p) s = .next t ∧ (partOf t p).st = .poweringDown ∧ wbit t (powerBase + 4 * p) 0 = false ∧
      (∀ n, p = 18 + n → n < 8 → (coreOf t n).st = .idle) ∧ (∀ k, p = 36 + k → k < 4 → (ddrOf t k).selfRefresh = true) ∧
      (∀ q, q ≠ p → partOf t q = partOf s q) ∧
      t = { s with free := t.free, regs := t.regs, mem := t.mem, clk := t.clk, bus := t.bus, moves := t.moves,
                   leaving := t.leaving, banks := t.banks, plates := t.plates, colours := t.colours,
                   streams := t.streams, tiles := t.tiles, cores := t.cores, chans := t.chans, bru := t.bru,
                   flags := t.flags, waits := t.waits, updates := t.updates, queues := t.queues,
                   granules := t.granules, shm := t.shm, ddr := t.ddr, poison := t.poison, fc := t.fc,
                   host := t.host, sent := t.sent, bridge := t.bridge, power := t.power, retire := t.retire })) ∧
  (∀ (s : State) (p : Nat),
    ((partOf s p).st = .poweringUp → (partOf s p).disableNext = false → ∃ t, exec (.partitionPowerUpDone p) s = .next t ∧
      (partOf t p).st = .on ∧ (partOf t p).cycles = min 0xFFFF ((partOf s p).cycles + 1) ∧
      (s.host.jobs = [] → ∀ q, q ≠ p → partOf t q = partOf s q) ∧
      (s.host.jobs = [] → s.streams = [] → ∀ g ∈ partGranules s p, (granOf t g).st = .dirty ∧ (granOf t g).owner = none) ∧
      t = { s with free := t.free, regs := t.regs, mem := t.mem, clk := t.clk, bus := t.bus, latches := t.latches, moves := t.moves,
                   leaving := t.leaving, banks := t.banks, plates := t.plates, colours := t.colours,
                   streams := t.streams, tiles := t.tiles, cores := t.cores, chans := t.chans, bru := t.bru,
                   flags := t.flags, waits := t.waits, updates := t.updates, queues := t.queues,
                   granules := t.granules, shm := t.shm, ddr := t.ddr, poison := t.poison, fc := t.fc,
                   host := t.host, sent := t.sent, bridge := t.bridge, power := t.power, retire := t.retire }) ∧
    ((partOf s p).st = .poweringUp → (partOf s p).disableNext = true → ∃ t, exec (.partitionPowerUpDone p) s = .next t ∧
      (partOf t p).st = .poweringDown ∧ wbit t (powerBase + 4 * p) 0 = false ∧ (∀ q, q ≠ p → partOf t q = partOf s q) ∧
      t = { s with free := t.free, regs := t.regs, mem := t.mem, clk := t.clk, bus := t.bus, latches := t.latches, moves := t.moves,
                   leaving := t.leaving, banks := t.banks, plates := t.plates, colours := t.colours,
                   streams := t.streams, tiles := t.tiles, cores := t.cores, chans := t.chans, bru := t.bru,
                   flags := t.flags, waits := t.waits, updates := t.updates, queues := t.queues,
                   granules := t.granules, shm := t.shm, ddr := t.ddr, poison := t.poison, fc := t.fc,
                   host := t.host, sent := t.sent, bridge := t.bridge, power := t.power, retire := t.retire }) ∧
    ((partOf s p).st ≠ .poweringUp → exec (.partitionPowerUpDone p) s = .next s) ∧
    (((partOf s p).st = .poweringDown ∨ (partOf s p).st = .enablePending) → ∃ t, exec (.partitionPowerDownDone p) s = .next t ∧
      (partOf t p).st = (if (partOf s p).st = .poweringDown then .off else .poweringUp) ∧
      (∀ q, q ≠ p → partOf t q = partOf s q) ∧ (∀ g ∈ (islandsOf p).flatMap islandGranules, (granOf t g).st = .off) ∧
      (p = 43 → t.flags = [] ∧ t.waits = [] ∧ t.updates = [] ∧ t.queues = []) ∧
      (p = 45 → t.fc = {}) ∧ (∀ k n, p = 36 + k → k < 4 → n ∈ ctlSlices k → shmOf t n = {}) ∧ (p ≠ 43 → t.flags = s.flags ∧ t.waits = s.waits ∧ t.updates = s.updates) ∧
      (∀ n key, p < 18 → n / 4 = p → gtReg n 0 ≤ key → key < gtReg n 0 + 0x10000 → word t key = keyReset key) ∧
      t = { s with regs := t.regs, mem := t.mem, latches := t.latches, slow := t.slow,
                   resetting := t.resetting, ports := t.ports, plPend := t.plPend, plLatch := t.plLatch,
                   clPend := t.clPend, clLatch := t.clLatch, flags := t.flags, waits := t.waits,
                   updates := t.updates, checks := t.checks, queues := t.queues, granules := t.granules,
                   shm := t.shm, inval := t.inval, fc := t.fc, bridge := t.bridge, power := t.power }) ∧
    ((partOf s p).st ≠ .poweringDown → (partOf s p).st ≠ .enablePending → exec (.partitionPowerDownDone p) s = .next s) ∧
    ((decide ((partOf s p).st = .on) && !fixedPart p && !partUsed s p && lasted (partOf s p).idleSince 10000000 s.clk.up &&
        !heldInReset s .mgmt) = true → ∃ t, exec (.partitionIdleTimeout p) s = .next t ∧ (partOf t p).st = .poweringDown ∧
      wbit t (powerBase + 4 * p) 0 = false ∧ (∀ q, q ≠ p → partOf t q = partOf s q) ∧
      t = { s with free := t.free, regs := t.regs, mem := t.mem, clk := t.clk, bus := t.bus, moves := t.moves,
                   leaving := t.leaving, banks := t.banks, plates := t.plates, colours := t.colours,
                   streams := t.streams, tiles := t.tiles, cores := t.cores, chans := t.chans, bru := t.bru,
                   flags := t.flags, waits := t.waits, updates := t.updates, queues := t.queues,
                   granules := t.granules, shm := t.shm, ddr := t.ddr, poison := t.poison, fc := t.fc,
                   host := t.host, sent := t.sent, bridge := t.bridge, power := t.power, retire := t.retire }) ∧
    (((partOf s p).st ≠ .on ∨ fixedPart p = true ∨ partUsed s p = true ∨ lasted (partOf s p).idleSince 10000000 s.clk.up = false ∨
        heldInReset s .mgmt = true) → exec (.partitionIdleTimeout p) s = .next s)) ∧
  (∀ s : State,
    (s.power.state = .active → deviceWorks s = false → lasted s.power.idleSince 10000000 s.clk.up = true → heldInReset s .mgmt = false →
      ∃ t, exec .deviceIdleEntry s = .next t ∧ (∀ k, k < 4 → ddrOf t k = { ddrOf s k with selfRefresh := true }) ∧
        t = { s with ddr := t.ddr, power := { s.power with state := .idle } }) ∧
    ((s.power.state ≠ .active ∨ deviceWorks s = true ∨ lasted s.power.idleSince 10000000 s.clk.up = false ∨ heldInReset s .mgmt = true) →
      exec .deviceIdleEntry s = .next s) ∧
    (s.power.state = .idle → contextList s = [] → deviceWorks s = false → lasted s.power.noContextSince 60000000000 s.clk.up = true →
      s.boot.st = .ready → s.boot.phase = .none → heldInReset s .mgmt = false → apgilPaused s = false →
      ∃ t, exec .parkEntry s = .next t ∧ t.power.state = .parked ∧
        t.boot.park =
          some { host := s.host, streams := s.streams, groups := s.groups, modes := s.shm.map (fun e => (e.1, e.2.mode)) } ∧ (partOf t 45).st = .poweringDown ∧
        (∀ p, p = 43 ∨ p = 46 ∨ p = 47 → partOf t p = partOf s p) ∧
        (∀ p, p < 48 → p ∉ [43, 46, 47] → (partOf s p).st = .on → (partOf t p).st = .poweringDown) ∧ (s.plates = [] → t.flags = s.flags) ∧
        (∀ p, (portOf t p).up = decide (findBelow (fun p => (portOf s p).up) 4 = some p)) ∧
        t = { s with free := t.free, regs := t.regs, mem := t.mem, clk := t.clk, bus := t.bus, moves := t.moves,
                     leaving := t.leaving, ports := t.ports, banks := t.banks, plates := t.plates, colours := t.colours,
                     streams := t.streams, tiles := t.tiles, cores := t.cores, chans := t.chans, bru := t.bru,
                     flags := t.flags, waits := t.waits, updates := t.updates, queues := t.queues,
                     granules := t.granules, shm := t.shm, ddr := t.ddr, poison := t.poison, fc := t.fc,
                     host := t.host, sent := t.sent, bridge := t.bridge, power := t.power, boot := t.boot, retire := t.retire }) ∧
    ((s.power.state ≠ .idle ∨ contextList s ≠ [] ∨ deviceWorks s = true ∨ lasted s.power.noContextSince 60000000000 s.clk.up = false ∨
        s.boot.st ≠ .ready ∨ s.boot.phase ≠ .none ∨ heldInReset s .mgmt = true ∨ apgilPaused s = true) →
      exec .parkEntry s = .next s) ∧
    (∀ f, s.power.state ≠ .parked → exec (.parkWake f) s = .next s) ∧
    (∀ f m, s.power.state = .parked → heldInReset s .network = false → f.port < gradeNets s → f.port ∉ s.retire.netPorts →
      (portOf s f.port).up = true → f.bytes ≤ 9018 + (if f.vlan.isSome then 4 else 0) → (portOf s f.port).macsec = false → s.host.acpSecure = false →
      f.kind = .acp m → s.host.held.length < 16 →
      (∀ r, flashReason s = some r → ∃ t, exec (.parkWake f) s = .next t ∧ t.boot.st = .recovery ∧ t.boot.recovery = r ∧
        t.power.state = .active ∧ (partOf t 45).st = .on ∧ (∀ k, k < 4 → (partOf t (36 + k)).st = .on) ∧
        t.host.held = s.host.held ++ [m] ∧
        t = { s with regs := t.regs, mem := t.mem, latches := t.latches, slow := t.slow, resetting := t.resetting,
                     ports := t.ports, plPend := t.plPend, plLatch := t.plLatch, clPend := t.clPend,
                     clLatch := t.clLatch, flags := t.flags, waits := t.waits, updates := t.updates,
                     checks := t.checks, queues := t.queues, granules := t.granules, shm := t.shm,
                     ddr := t.ddr, inval := t.inval, fc := t.fc, host := t.host, sent := t.sent,
                     bridge := t.bridge, power := t.power, boot := t.boot }) ∧
      (flashReason s = none → ∃ t, exec (.parkWake f) s = .next t ∧ t.boot.park = none ∧ t.power.state = .active ∧
        (partOf t 45).st = .on ∧ (∀ k, k < 4 → (partOf t (36 + k)).st = .on) ∧ t.host.held = [] ∧
        t.flags = s.flags ∧
        t = { s with regs := t.regs, mem := t.mem, latches := t.latches, slow := t.slow, resetting := t.resetting,
                     ports := t.ports, plPend := t.plPend, plLatch := t.plLatch, clPend := t.clPend,
                     clLatch := t.clLatch, flags := t.flags, waits := t.waits, updates := t.updates,
                     checks := t.checks, queues := t.queues, granules := t.granules, shm := t.shm,
                     ddr := t.ddr, inval := t.inval, fc := t.fc, host := t.host, sent := t.sent,
                     bridge := t.bridge, power := t.power, boot := t.boot }))) ∧
  (∀ (s : State) (temps h : List Int) (m : Int),
    h = ((List.range temps.length).filter (fun i => decide (i ∉ s.power.tempOut))).map (fun i => temps.getD i 0) →
    m = h.foldl max (h.headD 0) →
    ((s.power.tripped = true ∨ h = []) → ∃ t, exec (.temperatureSample temps) s = .next t ∧ t.power.level = s.power.level ∧
      t.power.tripped = s.power.tripped ∧ (h = [] → t.ddr = s.ddr) ∧
      t = { s with ddr := t.ddr, power := t.power }) ∧
    (h ≠ [] → m ≤ 1840 → ∃ t, exec (.temperatureSample temps) s = .next t ∧
      ∀ k, k < 4 → ddrOf t k = { ddrOf s k with fast := decide (1360 < m) }) ∧
    (s.power.tripped = false → h ≠ [] → m ≤ 1840 → ∃ t, exec (.temperatureSample temps) s = .next t ∧ t.power.tripped = false ∧
      (∀ i, i < temps.length → tget 0 t.power.temps i = temps.getD i 0) ∧
      t.power.below100 = (if m ≤ 1520 then some (s.power.below100.getD s.clk.up) else none) ∧
      t.power.below105 = (if m ≤ 1600 then some (s.power.below105.getD s.clk.up) else none) ∧
      ((m ≤ 1600 ∨ 2 ≤ s.power.level ∨ (m ≤ 1680 ∧ s.power.level = 1)) → t.power.level = s.power.level ∧ t.fc = s.fc) ∧
      (1600 < m → m ≤ 1680 → s.power.level = 0 → t.power.level = 1 ∧ t.fc = collected s 0x601 0 1127 none (wrapI 16 m)) ∧
      (1680 < m → s.power.level = 1 → t.power.level = 2 ∧ t.fc = collected s 0x602 0 1127 none (wrapI 16 m)) ∧
      (1680 < m → s.power.level = 0 → t.power.level = 2) ∧
      t = { s with ddr := t.ddr, fc := t.fc, power := t.power }) ∧
    (s.power.tripped = false → h ≠ [] → 1840 < m → ∃ t, exec (.temperatureSample temps) s = .next t ∧ t.power.tripped = true ∧
      (∀ p, p ≠ 46 → p ≠ 47 → (partOf t p).st = .off) ∧ partOf t 46 = partOf s 46 ∧ partOf t 47 = partOf s 47 ∧ t.smi = s.smi ∧
      t.boot.st = s.boot.st ∧ t.boot.mgmt = [] ∧ t.flags = [] ∧ t.streams = [] ∧ t.fuses = s.fuses ∧ t.pins = s.pins ∧
      t.pending = s.pending ∧ t.licences = s.licences)) ∧
  (∀ s : State,
    (s.power.tripped = false → (s.power.level = 1 ∨ s.power.level = 2) → lasted s.power.below100 1000000000 s.clk.up = true →
      exec .thermalCapRelease s = .next { s with power := { s.power with level := 0 } }) ∧
    (s.power.tripped = false → s.power.level = 2 → lasted s.power.below100 1000000000 s.clk.up = false →
      lasted s.power.below105 1000000000 s.clk.up = true →
      exec .thermalCapRelease s = .next { s with power := { s.power with level := 1 } }) ∧
    ((s.power.tripped = true ∨ (s.power.level ≠ 1 ∧ s.power.level ≠ 2) ∨ (lasted s.power.below100 1000000000 s.clk.up = false ∧
        (s.power.level ≠ 2 ∨ lasted s.power.below105 1000000000 s.clk.up = false))) → exec .thermalCapRelease s = .next s))

/-- RESET_N_RELEASE, RECOVERY_BROADCAST, RECOVERY_IMAGE_START, BRINGUP_START, READINESS_CHECK, BOOT_WATCHDOG, POWER_CUT,
REFERENCE_CLOCK_LOSS, REFERENCE_CLOCK_RESTORED, AVS_VOLTAGE_SET, JTAG_INSTRUCTION (R25, R346, R395 to R407, R436, R454 to R463). That the count's
record stands at once, and the numbers of the failing checks, are the model's (logs 38, 50). -/
def Obligations.BootStates : Prop :=
  (∀ s : State,
    (s.pins.resetN = true → exec .resetNRelease s = .next s) ∧
    (s.pins.resetN = false → s.pins.refClock = false → ∃ t, exec .resetNRelease s = .next t ∧ t.pins.resetN = true ∧
      t.clk.now = 0 ∧ t = { s with pins := t.pins, clk := t.clk }) ∧
    (s.pins.resetN = false → s.pins.refClock = true → s.power.tripped = false → ∃ t, exec .resetNRelease s = .next t ∧
      t.pins.resetN = true ∧ t.clk.now = 0 ∧ t.clk.up = s.clk.up ∧ (∀ p, p = 36 ∨ p = 43 ∨ p = 45 ∨ p = 47 → (partOf t p).st = .on) ∧
      t.boot.releasedAt = s.clk.up ∧ (tget {} t.boot.mgmt 0).running = true ∧
      (3 ≤ bootCount s → t.boot.st = .recovery ∧ t.boot.recovery = 5 ∧ t.flash = s.flash) ∧
      (bootCount s < 3 → (∃ r, t.flash.home = s.flash.home ++ [r] ∧ r.typ = 0x0001 ∧ r.seq = s.flash.nextSeq ∧
          r.payload = leBytes 4 (bootCount s + 1)) ∧
        (∀ r, flashReason s = some r → t.boot.st = .recovery ∧ t.boot.recovery = r) ∧
        (flashReason s = none → t.boot.st = .bringup ∧ t.boot.image = s.boot.flashImage)) ∧ t = { s with
                                                                                                         clk := t.clk,
                                                                                                         granules := t.granules,
                                                                                                         ddr := t.ddr,
                                                                                                         bridge := t.bridge,
                                                                                                         power := t.power,
                                                                                                         boot := t.boot,
                                                                                                         flash := t.flash,
                                                                                                         pins := t.pins })) ∧
  (∀ s : State,
    (s.boot.st = .recovery → heldInReset s .network = false → heldInReset s .mgmt = false → ∃ t m, exec .recoveryBroadcast s = .next t ∧
      t.sent = s.sent ++ [m] ∧ m.typ = 0x0041 ∧ m.status = recoveryStatus s.boot.recovery ∧ t = { s with sent := t.sent }) ∧
    ((s.boot.st ≠ .recovery ∨ heldInReset s .network = true ∨ heldInReset s .mgmt = true) → exec .recoveryBroadcast s = .next s) ∧
    (∀ i, s.boot.st = .recovery → s.boot.staged = some i → imageReason s i = none → heldInReset s .mgmt = false →
      ∃ t, exec (.recoveryImageStart i) s = .next t ∧ t.boot.st = .bringup ∧ t.boot.image = some i ∧ t.boot.staged = none ∧
        t.boot.fromRecovery = true ∧ t.boot.flashImage = none ∧ t = { s with boot := t.boot, host := t.host }) ∧
    (∀ i, (s.boot.st ≠ .recovery ∨ s.boot.staged ≠ some i ∨ imageReason s i ≠ none ∨ heldInReset s .mgmt = true) →
      exec (.recoveryImageStart i) s = .next s)) ∧
  (∀ (s : State) (f : SelfTest),
    (s.boot.st = .bringup → s.boot.testsDone = false → heldInReset s .mgmt = false → ∃ t, exec (.bringupStart f) s = .next t ∧
      t.boot.st = .bringup ∧ t.boot.testsDone = true ∧ t.boot.serviceFailed = f.service ∧ t.retire.others = failedIslands s f ∧
      t.retire.untested = [] ∧ t.power.tempOut = f.sensorsOut ∧ t.power.railOut = f.railsOut ∧
      t.retire.inService = ((List.range 72).filter (fun n => tilePresent s n && !tileRetired t n)).take (gradeTiles s) ∧
      (∀ n, n < 72 → tilePresent s n = true → n ∉ s.fuses.failedTiles → (tget (false, 0) t.retire.tiles n).2 < 3 →
        (tget (false, 0) t.retire.tiles n).1 = decide (n ∈ f.tiles)) ∧
      (∀ n, n < 2 → (tget {} t.boot.mgmt n).running = decide (n ∉ f.mgmt)) ∧ (∀ k, k < 4 → (partOf t (36 + k)).st = .on) ∧
      s.fuses.otpRollback ≤ t.fuses.otpRollback ∧ t.fuses = { s.fuses with otpRollback := t.fuses.otpRollback } ∧
      (∃ l, t.flash.waiting = l ++ [{ recs := [flashRec 0x0002 0 (retireMap t)], reply := none }]) ∧ t = { s with
                                                                                                                  free := t.free,
                                                                                                                  regs := t.regs,
                                                                                                                  granules := t.granules,
                                                                                                                  ddr := t.ddr,
                                                                                                                  fc := t.fc,
                                                                                                                  host := t.host,
                                                                                                                  bridge := t.bridge,
                                                                                                                  power := t.power,
                                                                                                                  boot := t.boot,
                                                                                                                  retire := t.retire,
                                                                                                                  fuses := t.fuses,
                                                                                                                  flash := t.flash,
                                                                                                                  licences := t.licences,
                                                                                                                  dbgOpen := t.dbgOpen }) ∧
    ((s.boot.st ≠ .bringup ∨ s.boot.testsDone = true ∨ heldInReset s .mgmt = true) → exec (.bringupStart f) s = .next s)) ∧
  (∀ (s : State) (bad : Option Nat), s.boot.st = .bringup → s.boot.testsDone = true → heldInReset s .mgmt = false →
    (∀ k, k < 4 → (linkOf s k).st ≠ .training) →
    bad = (List.range 4).find? (fun k => decide ((linkEntry s k).1 ≠ 0) && !(linkEntry s k).2.1 && linkMissing s k) →
    ∃ t, exec .readinessCheck s = .next t ∧ t.boot.checked = true ∧
      t.flash.waiting = s.flash.waiting ++
        (if bootCount s = 0 then [] else [{ recs := [flashRec 0x0001 0 (leBytes 4 0)], reply := none }]) ∧
      (∀ k, k < 4 → (linkEntry s k).1 ≠ 0 → linkMissing s k = true →
        (linkOf t k).st = (if (linkOf s k).st = .failed then .failed else .down)) ∧
      (s.boot.serviceFailed = true → t.boot.st = .bringup ∧ t.boot.failedCheck = 5) ∧
      (∀ k, s.boot.serviceFailed = false → bad = some k → t.boot.st = .bringup ∧ t.boot.failedCheck = k + 1) ∧
      (s.boot.serviceFailed = false → bad = none → t.boot.st = .ready ∧ t.boot.failedCheck = 0 ∧
        (s.boot.fromRecovery = false → t.boot.phase = s.boot.phase) ∧
        (∀ i, s.boot.fromRecovery = true → s.boot.image = some i → t.boot.phase = .rewrite)) ∧
      t = { s with free := t.free, mem := t.mem, fc := t.fc, host := t.host, sent := t.sent, bridge := t.bridge,
                   boot := t.boot, flash := t.flash }) ∧
  (∀ s : State, (s.boot.st ≠ .bringup ∨ s.boot.testsDone = false ∨ heldInReset s .mgmt = true ∨
    (∃ k, k < 4 ∧ (linkOf s k).st = .training)) → exec .readinessCheck s = .next s) ∧
  (∀ s : State,
    ((s.boot.st = .bootRom ∨ s.boot.st = .bringup) → s.boot.checked = false → s.boot.releasedAt + 30000000000 ≤ s.clk.up →
      heldInReset s .mgmt = false → s.power.tripped = false → ∃ t, exec .bootWatchdog s = .next t ∧ t.boot.reason = .bootWatchdog ∧
      (t.boot.st = .bringup ∨ t.boot.st = .recovery) ∧ t.host.sessions = [] ∧ t.streams = [] ∧ t.flags = [] ∧ t.smi = s.smi ∧
      t.pins = s.pins ∧ t.fuses = s.fuses ∧ t.pending = s.pending ∧ t.clk.now = s.clk.now) ∧
    (((s.boot.st ≠ .bootRom ∧ s.boot.st ≠ .bringup) ∨ s.boot.checked = true ∨ s.clk.up < s.boot.releasedAt + 30000000000 ∨
      heldInReset s .mgmt = true) → exec .bootWatchdog s = .next s)) ∧
  (∀ s : State, ∃ t, exec .powerCut s = .next t ∧ t.boot.st = .reset ∧ t.boot.reason = .powerCut ∧ t.pins.pwrGood = false ∧
    t.pins.resetN = false ∧ t.smi.log = s.smi.log ∧ t.smi.event = s.smi.event ∧ t.smi.keyHash = s.smi.keyHash ∧ t.smi.work = none ∧
    t.fuses = s.fuses ∧ t.licences = s.licences ∧ t.flash.home = s.flash.home ∧ t.flags = [] ∧ t.streams = [] ∧
    t.host.sessions = [] ∧ t.pending = s.pending ∧ (∀ p, p < smiBase ∨ smiBase + 0x300000 ≤ p → byteAt t p = 0)) ∧
  (∀ s : State,
    (s.pins.refClock = true → s.pins.resetN = true → ∃ t, exec .referenceClockLoss s = .next t ∧ t.pins = { s.pins with refClock := false } ∧
      t.boot.reason = .reference ∧ t.boot.st = .reset ∧ t.clk = { s.clk with cancels := [], sync := .holdover } ∧ t.smi = s.smi ∧
      t.fuses = s.fuses ∧ t.streams = [] ∧ t.flags = [] ∧ t.pending = s.pending ∧ t.power.tripped = s.power.tripped ∧
      (∀ p, p ≠ 46 → p ≠ 47 → (partOf t p).st = .off) ∧ partOf t 46 = partOf s 46 ∧ partOf t 47 = partOf s 47) ∧
    (s.pins.refClock = true → s.pins.resetN = false → exec .referenceClockLoss s =
      .next { s with pins := { s.pins with refClock := false }, clk := { s.clk with sync := .holdover } }) ∧
    (s.pins.refClock = false → exec .referenceClockLoss s = .next s) ∧
    (s.pins.refClock = true → exec .referenceClockRestored s = .next s) ∧
    (s.pins.refClock = false → s.pins.resetN = false → exec .referenceClockRestored s =
      .next { s with pins := { s.pins with refClock := true } }) ∧
    (s.pins.refClock = false → s.pins.resetN = true → s.power.tripped = false → ∃ t, exec .referenceClockRestored s = .next t ∧
      t.pins = { s.pins with refClock := true } ∧ (t.boot.st = .bringup ∨ t.boot.st = .recovery) ∧
      (∀ p, p = 36 ∨ p = 43 ∨ p = 45 ∨ p = 47 → (partOf t p).st = .on) ∧ t = { s with granules := t.granules,
                                                                                      ddr := t.ddr,
                                                                                      bridge := t.bridge,
                                                                                      power := t.power,
                                                                                      boot := t.boot,
                                                                                      flash := t.flash,
                                                                                      pins := t.pins })) ∧
  (∀ (s : State) (mv : Nat), (mv % 5 = 0 → 500 ≤ mv → mv ≤ 750 → s.pins.resetN = true →
      exec (.avsVoltageSet mv) s = .next { s with pins := { s.pins with avs := mv } }) ∧
    ((mv % 5 ≠ 0 ∨ mv < 500 ∨ 750 < mv ∨ s.pins.resetN = false) → exec (.avsVoltageSet mv) s = .next s)) ∧
  (∀ (s : State) (j : JtagInstr), exec (.jtagInstruction j) s = .next { s with pins := { s.pins with jtag :=
    if j = .bypass ∨ j = .idcode ∨ (j = .debug ∧ s.dbgOpen = true) ∨
      ((j = .extest ∨ j = .samplePreload ∨ j = .otherScan) ∧ s.pins.resetN = false) then j else .bypass } })

/-- FW_ACTIVATION, FW_HANDOVER_DONE, FW_ROLLBACK, PROBATION_END, FW_REWRITE_DONE, MANAGEMENT_WATCHDOG_FIRE, MANAGEMENT_CORE_RESTART_DONE,
FLASH_TRANSACTION, FLASH_PROGRAM_DONE, RING_BLOCK_RECLAIM (R411 to R432, R444). What a roll-back keeps of objects that have changed, and that
a journal block's reclaim rewrites no record, are the model's (logs 49, 51). -/
def Obligations.UpdatesAndFlash : Prop :=
  (∀ s : State,
    (s.boot.phase = .staged → s.boot.activateAt ≤ s.clk.now → heldInReset s .mgmt = false → apgilPaused s = false →
      exec .fwActivation s = .next { s with boot := { s.boot with
        phase := .handover
        handOver := some { host := s.host, streams := s.streams, groups := s.groups, armed := armedSlots s, enabled := enabledQueues s } } }) ∧
    ((s.boot.phase ≠ .staged ∨ s.clk.now < s.boot.activateAt ∨ heldInReset s .mgmt = true ∨ apgilPaused s = true) →
      exec .fwActivation s = .next s) ∧
    (s.boot.phase = .handover → heldInReset s .mgmt = false → ∃ t, exec .fwHandoverDone s = .next t ∧ t.boot.old = s.boot.image ∧
      t.boot.image = s.boot.staged ∧ t.boot.staged = none ∧ t.boot.phase = .probation ∧
      t.boot.probationEnd = s.clk.up + 10000000000 ∧ (∀ n, n < 2 → (tget {} t.boot.mgmt n).restarting = false) ∧
      t = { s with mem := t.mem, host := t.host, sent := t.sent, boot := t.boot }) ∧
    ((s.boot.phase ≠ .handover ∨ heldInReset s .mgmt = true) → exec .fwHandoverDone s = .next s) ∧
    (∀ b, (s.boot.phase = .handover ∨ s.boot.phase = .probation) → heldInReset s .mgmt = false → s.boot.handOver = some b →
      ∃ t, exec .fwRollback s = .next t ∧ t.boot.phase = .none ∧
        t.boot.image = (if s.boot.phase = .handover then s.boot.image else s.boot.old) ∧ t.boot.staged = none ∧
        t.boot.handOver = none ∧ (∀ n, n < 2 → (tget {} t.boot.mgmt n).restarting = true) ∧
        (∀ p ∈ t.host.packages, p ∈ b.host.packages) ∧ (∀ c, tget none b.host.contexts c = none → contextOf t c = none) ∧
        t = { s with regs := t.regs, mem := t.mem, moves := t.moves, leaving := t.leaving, banks := t.banks,
                     plates := t.plates, plPend := t.plPend, plLatch := t.plLatch, clPend := t.clPend,
                     clLatch := t.clLatch, colours := t.colours, streams := t.streams, tiles := t.tiles,
                     cores := t.cores, chans := t.chans, bru := t.bru, groups := t.groups, waits := t.waits,
                     slots := t.slots, queues := t.queues, granules := t.granules, host := t.host,
                     sent := t.sent, bridge := t.bridge, boot := t.boot, retire := t.retire }) ∧
    (((s.boot.phase ≠ .handover ∧ s.boot.phase ≠ .probation) ∨ heldInReset s .mgmt = true ∨ s.boot.handOver = none) →
      exec .fwRollback s = .next s) ∧
    (∀ i, s.boot.phase = .probation → s.boot.probationEnd ≤ s.clk.up → heldInReset s .mgmt = false → s.boot.image = some i →
      ∃ t, exec .probationEnd s = .next t ∧ t.boot = { s.boot with phase := .rewrite, handOver := none, old := none } ∧
        t.flash = flashSubmit s.flash (imageOps i) ∧ t = { s with boot := t.boot, flash := t.flash }) ∧
    ((s.boot.phase ≠ .probation ∨ s.clk.up < s.boot.probationEnd ∨ heldInReset s .mgmt = true) → exec .probationEnd s = .next s) ∧
    (∀ i, s.boot.phase = .rewrite → rewriteBusy s.flash = false → heldInReset s .mgmt = false → apgilPaused s = false →
      s.boot.image = some i → ∃ t, exec .fwRewriteDone s = .next t ∧
        t.boot = { s.boot with phase := .none, flashImage := some i, fromRecovery := false } ∧
        t.flash.waiting = s.flash.waiting ++
          (if antiRollback s < i.security then [{ recs := [flashRec 0x0006 0 (leBytes 4 i.security)], reply := none }] else []) ∧
        t = { s with mem := t.mem, host := t.host, sent := t.sent, boot := t.boot, flash := t.flash }) ∧
    ((s.boot.phase ≠ .rewrite ∨ rewriteBusy s.flash = true ∨ heldInReset s .mgmt = true ∨ apgilPaused s = true) →
      exec .fwRewriteDone s = .next s)) ∧
  (∀ (s : State) (n : Nat), n < 2 → (tget {} s.boot.mgmt n).running = true → (tget {} s.boot.mgmt n).restarting = false →
    heldInReset s .mgmt = false → (s.boot.st = .bringup ∨ s.boot.st = .ready) → s.boot.phase ≠ .handover →
    (∀ u, (tget {} s.boot.mgmt (1 - n)).firedAt = some u → s.clk.up ≤ u + 1000000000 → s.power.tripped = false →
      ∃ t, exec (.managementWatchdogFire n) s = .next t ∧ t.boot.reason = .watchdogs ∧
        (t.boot.st = .bringup ∨ t.boot.st = .recovery) ∧ t.host.sessions = [] ∧ t.streams = [] ∧ t.smi = s.smi) ∧
    ((∀ u, (tget {} s.boot.mgmt (1 - n)).firedAt = some u → u + 1000000000 < s.clk.up) → s.boot.phase ≠ .probation →
      ∃ t d, exec (.managementWatchdogFire n) s = .next t ∧ (tget {} t.boot.mgmt n).restarting = true ∧
        (tget {} t.boot.mgmt n).firedAt = some s.clk.up ∧ tget {} t.boot.mgmt (1 - n) = tget {} s.boot.mgmt (1 - n) ∧
        t.fc = collected s 0x605 0 (1104 + n) none d ∧ t = { s with free := t.free, fc := t.fc, boot := t.boot }) ∧
    (∀ b, (∀ u, (tget {} s.boot.mgmt (1 - n)).firedAt = some u → u + 1000000000 < s.clk.up) → s.boot.phase = .probation →
      s.boot.handOver = some b → ∃ t, exec (.managementWatchdogFire n) s = .next t ∧ t.boot.phase = .none ∧ t.boot.image = s.boot.old)) ∧
  (∀ (s : State) (n : Nat),
    ((2 ≤ n ∨ (tget {} s.boot.mgmt n).running = false ∨ (tget {} s.boot.mgmt n).restarting = true ∨ heldInReset s .mgmt = true ∨
      (s.boot.st ≠ .bringup ∧ s.boot.st ≠ .ready) ∨ s.boot.phase = .handover) → exec (.managementWatchdogFire n) s = .next s) ∧
    ((tget {} s.boot.mgmt n).restarting = true → s.boot.phase ≠ .handover → heldInReset s .mgmt = false →
      ∃ t, exec (.managementCoreRestartDone n) s = .next t ∧ tget {} t.boot.mgmt n = { tget {} s.boot.mgmt n with restarting := false } ∧
        (∀ m, m ≠ n → tget {} t.boot.mgmt m = tget {} s.boot.mgmt m) ∧ t = { s with mem := t.mem,
                                                                                    host := t.host,
                                                                                    sent := t.sent,
                                                                                    boot := t.boot }) ∧
    (((tget {} s.boot.mgmt n).restarting = false ∨ s.boot.phase = .handover ∨ heldInReset s .mgmt = true) →
      exec (.managementCoreRestartDone n) s = .next s)) ∧
  (∀ s : State, (heldInReset s .mgmt = true ∨ apgilPaused s = true ∨ txBusy s.flash = true) → exec .flashTransaction s = .next s) ∧
  (∀ s : State, heldInReset s .mgmt = false → apgilPaused s = false → txBusy s.flash = false →
    (s.flash.step = 0 → nextTx s = none → exec .flashTransaction s = .next s) ∧
    (∀ x rest, s.flash.step = 0 → nextTx s = some (x, rest) → ∃ t, exec .flashTransaction s = .next t ∧ t.flash.step = 1 ∧
      t.flash.waiting = { x with recs := numbered s.flash.nextSeq s.clk.now x.recs } :: rest ∧
      t.flash.nextSeq = s.flash.nextSeq + x.recs.length + 1 ∧ t.flash.journal = s.flash.journal ∧ t.flash.home = s.flash.home ∧
      t = { s with flash := t.flash }) ∧
    (∀ x rest, s.flash.step = 1 → s.flash.waiting = x :: rest → ∃ t, exec .flashTransaction s = .next t ∧ t.flash.step = 2 ∧
      t.flash.journal = s.flash.journal ++ x.recs ++ [commitRec x.recs s.clk.now] ∧ t.flash.home = s.flash.home ∧
      t.flash.waiting = s.flash.waiting ∧ s.fuses.otpRollback ≤ t.fuses.otpRollback ∧
      t.fuses = { s.fuses with otpRollback := t.fuses.otpRollback } ∧
      (∀ r, x.recs = [r] → r.typ = 0x0020 → t.licences = s.licences ++ [leAt r.payload 24 4]) ∧
      (∀ r, x.recs = [r] → r.typ = 0x0003 → t.bridge.written = some (topoOf r.payload)) ∧ t = { s with
                                                                                                       regs := t.regs,
                                                                                                       mem := t.mem,
                                                                                                       host := t.host,
                                                                                                       sent := t.sent,
                                                                                                       bridge := t.bridge,
                                                                                                       smi := t.smi,
                                                                                                       power := t.power,
                                                                                                       fuses := t.fuses,
                                                                                                       flash := t.flash,
                                                                                                       licences := t.licences,
                                                                                                       dbgOpen := t.dbgOpen }) ∧
    (∀ x rest, s.flash.step = 2 → s.flash.waiting = x :: rest → ∃ t, exec .flashTransaction s = .next t ∧ t.flash.step = 3 ∧
      t.flash.home = s.flash.home ++ x.recs ∧ t.flash.journal = s.flash.journal ∧ t.flash.waiting = s.flash.waiting ∧
      t = { s with flash := t.flash }) ∧
    (∀ x rest, 3 ≤ s.flash.step → s.flash.waiting = x :: rest → ∃ t, exec .flashTransaction s = .next t ∧ t.flash.step = 0 ∧
      t.flash.waiting = rest ∧ t.flash.home = s.flash.home ∧
      (∀ r ∈ t.flash.journal, r.typ = 0x00F0 → x.recs ≠ [] → r.seq = (commitRec x.recs s.clk.now).seq → r.done = true) ∧
      t = { s with flash := t.flash })) ∧
  (∀ s : State, ∃ t, exec .flashProgramDone s = .next t ∧
    (∀ o l, s.flash.opsSmi = o :: l → t.flash = { s.flash with running := some o, opsSmi := l }) ∧
    (∀ o, s.flash.opsSmi = [] → s.flash.suspended = some o → t.flash = { s.flash with running := some o, suspended := none }) ∧
    (∀ o l, s.flash.opsSmi = [] → s.flash.suspended = none → s.flash.opsMain = o :: l →
      t.flash = { s.flash with running := some o, opsMain := l }) ∧
    (s.flash.opsSmi = [] → s.flash.suspended = none → s.flash.opsMain = [] → t.flash = { s.flash with running := none }) ∧
    t = { s with flash := t.flash }) ∧
  (∀ (s : State) (k : Nat) (l : List FlashRec), l = oldestBlock 65536 (ringRecs s.flash k) →
    ((4 ≤ k ∨ heldInReset s .mgmt = true ∨ apgilPaused s = true ∨ l = [] ∨ (k ∈ s.flash.freeing ∧ (s.flash.waiting ≠ [] ∨
        txBusy s.flash = true ∨ ∃ r ∈ l, r.typ = 0x00F0 ∧ r.done = false))) → exec (.ringBlockReclaim k) s = .next s) ∧
    (k < 4 → heldInReset s .mgmt = false → apgilPaused s = false → l ≠ [] → k ∉ s.flash.freeing →
      ∃ t txs, exec (.ringBlockReclaim k) s = .next t ∧ t.flash.freeing = k :: s.flash.freeing ∧
        t.flash.waiting = s.flash.waiting ++ txs ∧ txs ≠ [] ∧ t.flash.home = s.flash.home ∧ t.flash.journal = s.flash.journal ∧
        (∀ r ∈ l, k ≠ 3 → recInForce s.flash r.typ r.inst = some r → r.payload ≠ [] →
          ∃ x ∈ txs, flashRec r.typ r.inst r.payload ∈ x.recs) ∧ t = { s with flash := t.flash }) ∧
    (k < 4 → heldInReset s .mgmt = false → apgilPaused s = false → l ≠ [] → k ∈ s.flash.freeing → s.flash.waiting = [] →
      txBusy s.flash = false → (∀ r ∈ l, r.typ = 0x00F0 → r.done = true) → ∃ t, exec (.ringBlockReclaim k) s = .next t ∧
        k ∉ t.flash.freeing ∧ (k = 3 → t.flash.journal = s.flash.journal.drop l.length ∧ t.flash.home = s.flash.home) ∧
        (k ≠ 3 → t.flash.journal = s.flash.journal ∧ t.flash.home = s.flash.home.filter (fun r => r ∉ l)) ∧
        t.flash.waiting = [] ∧ t = { s with flash := t.flash }))

/-- FAULT_EVENT, the end of its tick, and FAULT_RECORD_HANDLING (R437 to R443). That a tick ends when no command waits is the model's
(log 7). -/
def Obligations.FaultCollector : Prop :=
  (∀ (s : State) (e : FaultEv), ∃ t, exec (.faultEvent e) s = .next t ∧
    tget 0 t.fc.counts (codeIndex e.code) = min (tget 0 s.fc.counts (codeIndex e.code) + 1) 0xFFFFFFFF ∧
    (∀ i, i ≠ codeIndex e.code → tget 0 t.fc.counts i = tget 0 s.fc.counts i) ∧
    t.fc.tick.length = s.fc.tick.length + 1 ∧ (e, s.clk.now, s.clk.up) ∈ t.fc.tick ∧ (∀ x ∈ s.fc.tick, x ∈ t.fc.tick) ∧
    (s.fc.tick.Pairwise (fun a b => evKey a.1 ≤ evKey b.1) → t.fc.tick.Pairwise (fun a b => evKey a.1 ≤ evKey b.1)) ∧
    t = { s with fc := { s.fc with counts := t.fc.counts, tick := t.fc.tick } }) ∧
  (∀ (s : State) (l : List (FaultEv × Nat × Nat)), s.pending = [] → s.host.jobs = [] → s.updates = [] → l = s.fc.held ++ s.fc.tick →
    s.fc.wr < 2 ^ 32 → s.fc.rd < 2 ^ 32 → ∃ t, step s = .next t ∧ t.fc.tick = [] ∧ t.fc.counts = s.fc.counts ∧ t.fc.rd = s.fc.rd ∧
      (∃ a, l = a ++ t.fc.held) ∧ (∃ k, k ≤ 4 ∧ t.fc.wr = (s.fc.wr + k) % 2 ^ 32) ∧ (l = [] → t.fc = s.fc) ∧
      (∀ e now up m, l = [(e, now, up)] → neverMerged e = false → openMerge s.fc up e = some m →
        t.fc = { s.fc with
          held := []
          tick := []
          merges := s.fc.merges.map (fun x => if x = m then { x with count := x.count + 1 } else x) }) ∧
      (∀ e now up, l = [(e, now, up)] → (neverMerged e = true ∨ openMerge s.fc up e = none) →
        ((s.fc.wr + 2 ^ 32 - s.fc.rd) % 2 ^ 32 < (if eventClass e.code = 3 then 4096 else 4032) →
          t.fc.wr = (s.fc.wr + 1) % 2 ^ 32 ∧ t.fc.lost = s.fc.lost ∧ t.fc.held = [] ∧
          (∃ n, tget [] t.fc.ring (s.fc.wr % 4096) = recordWords s.fc.wr now n e ∧
            ((∀ m ∈ s.fc.merges, ¬(m.src = e.src ∧ m.code = e.code)) → n = 0)) ∧
          (∀ i, i ≠ s.fc.wr % 4096 → tget [] t.fc.ring i = tget [] s.fc.ring i)) ∧
        ((if eventClass e.code = 3 then 4096 else 4032) ≤ (s.fc.wr + 2 ^ 32 - s.fc.rd) % 2 ^ 32 →
          t.fc = { s.fc with held := [], tick := [], lost := min (s.fc.lost + 1) 0xFFFFFFFF })) ∧
      ((∀ x ∈ l, neverMerged x.1 = true) → (s.fc.wr + 2 ^ 32 - s.fc.rd) % 2 ^ 32 + 4 ≤ 4032 →
        t.fc.held = l.drop 4 ∧ t.fc.wr = (s.fc.wr + min 4 l.length) % 2 ^ 32 ∧ t.fc.lost = s.fc.lost ∧
        ∀ i x, i < 4 → l[i]? = some x →
          ∃ n, tget [] t.fc.ring ((s.fc.wr + i) % 2 ^ 32 % 4096) = recordWords ((s.fc.wr + i) % 2 ^ 32) x.2.1 n x.1)) ∧
  (∀ s : State, (heldInReset s .mgmt = true ∨ apgilPaused s = true ∨ s.fc.rd = s.fc.wr) → exec .faultRecordHandling s = .next s) ∧
  (∀ (s : State) (ws : List Word), heldInReset s .mgmt = false → apgilPaused s = false → s.fc.rd ≠ s.fc.wr →
    ws = tget [] s.fc.ring (s.fc.rd % 4096) → ∃ t, exec .faultRecordHandling s = .next t ∧
      t.fc = { s.fc with rd := (s.fc.rd + 1) % 2 ^ 32 } ∧ word t (faultBase + 8) = BitVec.ofNat 32 (s.fc.rd + 1) ∧
      (∀ key, key ≠ faultBase + 8 → word t key = word s key) ∧
      (recClass ws = 0 → t = { s with regs := t.regs, fc := t.fc }) ∧
      (∀ x y, recCtx ws < 64 → recClass ws ≠ 0 → recClass ws ≠ 3 → contextOf s (recCtx ws) = some x → sessionOf s x.sess = some y →
        y.open' = true → (ungated ws = true ∨ ∀ g ∈ y.gates, ¬(g.code = recCode ws ∧ g.src = recSrc ws)) →
        ∃ z, sessionOf t x.sess = some z ∧ z.noticeSeq = y.noticeSeq + 1 ∧ (∀ n, n ≠ x.sess → sessionOf t n = sessionOf s n)) ∧
      t = { s with regs := t.regs, mem := t.mem, fc := t.fc, host := t.host, sent := t.sent })

/-- The state after reset (R13, R115, R141, R223, R270, R299, R382, R392, R394, R395). The reset values of registers are those of the
register tables; what the spec leaves open is logs 2 to 6. -/
def Obligations.ResetState : Prop :=
  (∀ key, word State.reset key = keyReset key) ∧ (∀ n, n < 72 → word State.reset (gtReg n 0x10) = 0x7F0000) ∧
  (∀ n, n < 8 → word State.reset (ecReg n 0x10) = 0xF0000) ∧ (∀ c, c < 128 → word State.reset (dmReg c 0x10) = 0) ∧
  (∀ c, c < 64 → budgetOf State.reset c = 1000 ∧ capOf State.reset c = 4) ∧ word State.reset (powerBase + 0x800) = 100000 ∧
  (∀ p, p < 48 → word State.reset (powerBase + 4 * p) = if p = 43 ∨ p = 45 ∨ p = 46 ∨ p = 47 then 1 else 0) ∧
  (∀ f, flagOf State.reset f = 0) ∧ (∀ n, n < 72 → tileCtx State.reset n = none) ∧ (∀ n, n < 8 → coreCtx State.reset n = none) ∧
  (∀ c, c < 128 → chanCtx State.reset c = none) ∧ (∀ p, (partOf State.reset p).st = .off) ∧ State.reset.boot.st = .reset ∧
  State.reset.pins.resetN = false ∧ (∀ c, contextOf State.reset c = none) ∧ (∀ n, sessionOf State.reset n = none) ∧
  (∀ n, streamOf State.reset n = none) ∧ (∀ j, jobOf State.reset j = none) ∧ State.reset.pending = [] ∧
  canonical State.reset

/-- Equal contents of memory, registers and flags stay equal data: an invariant of every step, from every state that has it; and every
state has a step, since no command ends in a fault or a refusal. -/
def Obligations.StepKeepsForm : Prop :=
  (∀ s : State, ∃ t, step s = .next t) ∧ (∀ s t : State, canonical s → step s = .next t → canonical t)

/-- What only goes one way (R371, R377, R406, R432, R433): over every command and every state, each of which answers a next state. -/
def Obligations.OneWayState : Prop :=
  ∀ (s : State) (c : Instr), ∃ t, exec c s = .next t ∧ (∃ l, t.smi.log = s.smi.log ++ l) ∧ s.fuses.otpRollback ≤ t.fuses.otpRollback ∧
    s.smi.otpEvents ≤ t.smi.otpEvents ∧ (∀ h, s.smi.keyHash = some h → t.smi.keyHash = some h) ∧
    t.fuses = { s.fuses with otpRollback := t.fuses.otpRollback } ∧ t.smi.licKeyHash = s.smi.licKeyHash ∧
    t.smi.serial = s.smi.serial ∧ t.pending = s.pending
end

