-- ==== Sys2Proof/Laws/Tbl.lean ====
section
/-!
SUPPORT. Sys2Proof/Laws/Tbl.lean: reading and writing sparse tables, and that a write keeps their canonical form.
-/
namespace Sys2Proof.Laws
open Sys2Proof.Machine

theorem tget_tset_same {α : Type} [DecidableEq α] (d : α) (t : Tbl α) (k : Nat) (v : α) : tget d (tset d t k v) k = v := by
  induction t with
  | nil => by_cases h : v = d <;> simp [tset, tget, h]
  | cons p t ih =>
    obtain ⟨a, w⟩ := p
    simp only [tset]
    split
    · rename_i h; subst h
      split
      · rename_i hv; subst hv; exact ih
      · simp [tget]
    · rename_i h
      split
      · rename_i hv; subst hv; simp [tget, h, ih]
      · split
        · simp [tget]
        · simp [tget, h, ih]

/-- A key that was not written reads as before, whatever default it has. -/
theorem tget_tset_other {α : Type} [DecidableEq α] (d d' : α) (t : Tbl α) (k j : Nat) (v : α) (h : j ≠ k) :
    tget d' (tset d t k v) j = tget d' t j := by
  induction t with
  | nil => by_cases hv : v = d <;> simp [tset, tget, hv, h]
  | cons p t ih =>
    obtain ⟨a, w⟩ := p
    simp only [tset]
    split
    · rename_i hk; subst hk
      split
      · rename_i hv; subst hv; simp [tget, h, ih]
      · simp [tget, h]
    · rename_i hk
      split
      · rename_i hv; subst hv
        by_cases hj : j = a <;> simp [tget, hj, ih]
      · split
        · simp [tget, h]
        · by_cases hj : j = a <;> simp [tget, hj, ih]

theorem tget_tset {α : Type} [DecidableEq α] (d : α) (t : Tbl α) (k j : Nat) (v : α) :
    tget d (tset d t k v) j = if j = k then v else tget d t j := by
  split
  · rename_i h; rw [h, tget_tset_same]
  · rename_i h; exact tget_tset_other d d t k j v h

theorem twfFrom_le {α : Type} [DecidableEq α] (d : Nat → α) {lo lo' : Nat} (t : Tbl α) (h : lo' ≤ lo)
    (w : twfFrom d lo t = true) : twfFrom d lo' t = true := by
  cases t with
  | nil => rfl
  | cons p t =>
    obtain ⟨a, v⟩ := p
    simp only [twfFrom, Bool.and_eq_true, decide_eq_true_eq] at w ⊢
    exact ⟨⟨by omega, w.1.2⟩, w.2⟩

theorem tset_default_above {α : Type} [DecidableEq α] (d : Nat → α) (t : Tbl α) (k lo : Nat) (h : k < lo)
    (w : twfFrom d lo t = true) : tset (d k) t k (d k) = t := by
  induction t generalizing lo with
  | nil => simp [tset]
  | cons p t ih =>
    obtain ⟨a, v⟩ := p
    simp only [twfFrom, Bool.and_eq_true, decide_eq_true_eq] at w
    rw [tset, if_neg (by omega), if_pos rfl, ih (a + 1) (by omega) w.2]

theorem twfFrom_tset {α : Type} [DecidableEq α] (d : Nat → α) (t : Tbl α) (k lo : Nat) (v : α) (hk : lo ≤ k)
    (w : twfFrom d lo t = true) : twfFrom d lo (tset (d k) t k v) = true := by
  induction t generalizing lo with
  | nil =>
    simp only [tset]
    split
    · rfl
    · rename_i hv; simp [twfFrom, hk, hv]
  | cons p t ih =>
    obtain ⟨a, x⟩ := p
    have w' := w
    simp only [twfFrom, Bool.and_eq_true, decide_eq_true_eq] at w
    obtain ⟨⟨w1, w2⟩, w3⟩ := w
    simp only [tset]
    split
    · rename_i h; subst h
      split
      · rw [tset_default_above d t k (k + 1) (by omega) w3]; exact twfFrom_le d t (by omega) w3
      · rename_i hv; simp [twfFrom, w1, hv, w3]
    · rename_i h
      split
      · rename_i hv
        by_cases hlt : k < a
        · rw [tset_default_above d t k (a + 1) (by omega) w3]; exact w'
        · simp only [twfFrom, Bool.and_eq_true, decide_eq_true_eq]
          have := ih (a + 1) (by omega) w3
          rw [hv] at this
          exact ⟨⟨w1, w2⟩, this⟩
      · rename_i hv
        split
        · rename_i hlt
          simp only [twfFrom, Bool.and_eq_true, decide_eq_true_eq]
          exact ⟨⟨hk, hv⟩, ⟨by omega, w2⟩, w3⟩
        · simp only [twfFrom, Bool.and_eq_true, decide_eq_true_eq]
          exact ⟨⟨w1, w2⟩, ih (a + 1) (by omega) w3⟩

/-- A write keeps the canonical form. -/
theorem twf_tset {α : Type} [DecidableEq α] (d : Nat → α) (t : Tbl α) (k : Nat) (v : α)
    (w : twf d t = true) : twf d (tset (d k) t k v) = true := twfFrom_tset d t k 0 v (Nat.zero_le _) w

theorem twfFrom_filter {α : Type} [DecidableEq α] (d : Nat → α) (f : Nat × α → Bool) (t : Tbl α) (lo : Nat)
    (w : twfFrom d lo t = true) : twfFrom d lo (t.filter f) = true := by
  induction t generalizing lo with
  | nil => rfl
  | cons p t ih =>
    obtain ⟨a, v⟩ := p
    simp only [twfFrom, Bool.and_eq_true, decide_eq_true_eq] at w
    rw [List.filter_cons]
    split
    · simp only [twfFrom, Bool.and_eq_true, decide_eq_true_eq]; exact ⟨w.1, ih (a + 1) w.2⟩
    · exact twfFrom_le d _ (by omega) (ih (a + 1) w.2)

/-- Entries taken out keep the canonical form. -/
theorem twf_filter {α : Type} [DecidableEq α] (d : Nat → α) (f : Nat × α → Bool) (t : Tbl α)
    (w : twf d t = true) : twf d (t.filter f) = true := twfFrom_filter d f t 0 w

/-- Every key of a canonical table from `lo` on is at least `lo`. -/
theorem twfFrom_ge {α : Type} [DecidableEq α] (d : Nat → α) (t : Tbl α) (lo : Nat) (w : twfFrom d lo t = true) :
    ∀ p ∈ t, lo ≤ p.1 := by
  induction t generalizing lo with
  | nil => simp
  | cons q t ih =>
    obtain ⟨a, v⟩ := q
    simp only [twfFrom, Bool.and_eq_true, decide_eq_true_eq] at w
    intro p hp
    rcases List.mem_cons.mp hp with rfl | hp
    · exact w.1.1
    · have := ih (a + 1) w.2 p hp; omega

/-- Canonical tables whose keys lie apart join to a canonical table. -/
theorem twfFrom_append {α : Type} [DecidableEq α] (d : Nat → α) (t u : Tbl α) (lo mid : Nat) (h : lo ≤ mid)
    (ht : twfFrom d lo t = true) (hlt : ∀ p ∈ t, p.1 < mid) (hu : twfFrom d mid u = true) :
    twfFrom d lo (t ++ u) = true := by
  induction t generalizing lo with
  | nil => exact twfFrom_le d u h hu
  | cons q t ih =>
    obtain ⟨a, v⟩ := q
    simp only [List.cons_append, twfFrom, Bool.and_eq_true, decide_eq_true_eq] at ht ⊢
    have ha : a < mid := hlt (a, v) (by simp)
    exact ⟨ht.1, ih (a + 1) (by omega) ht.2 (fun p hp => hlt p (by simp [hp]))⟩

end Sys2Proof.Laws
end

