-- ==== Sys2Proof/Laws/Mem.lean ====
section
/-!
SUPPORT. Sys2Proof/Laws/Mem.lean: every operation over the bytes of the memories keeps the canonical form, and what a byte reads
as after it.
-/
namespace Sys2Proof.Laws
open Sys2Proof.Machine

theorem memByte_memPut (m : Memory) (a j : Nat) (b : Byte) : memByte (memPut m a b) j = if j = a then b else memByte m j :=
  tget_tset 0 m a j b

theorem wf_memPut (m : Memory) (a : Nat) (b : Byte) (h : Memory.wf m = true) : Memory.wf (memPut m a b) = true :=
  twf_tset (fun _ => 0) m a b h

theorem wf_memClear (m : Memory) (a n : Nat) (h : Memory.wf m = true) : Memory.wf (memClear m a n) = true :=
  twf_filter _ _ m h

theorem wf_memCells (a : Nat) (bs : List Byte) : twfFrom (fun _ => (0 : BitVec 8)) a (memCells a bs) = true := by
  induction bs generalizing a with
  | nil => rfl
  | cons b t ih =>
    simp only [memCells]
    split
    · exact twfFrom_le _ _ (by omega) (ih (a + 1))
    · rename_i h; simp only [twfFrom, Bool.and_eq_true, decide_eq_true_eq]; exact ⟨⟨by omega, h⟩, ih (a + 1)⟩

theorem memCells_lt (a : Nat) (bs : List Byte) : ∀ p ∈ memCells a bs, p.1 < a + bs.length := by
  induction bs generalizing a with
  | nil => simp [memCells]
  | cons b t ih =>
    intro p hp
    simp only [memCells] at hp
    simp only [List.length_cons]
    split at hp
    · have := ih (a + 1) p hp; omega
    · rcases List.mem_cons.mp hp with rfl | hp
      · simp
      · have := ih (a + 1) p hp; omega

theorem wf_filter_ge (m : Memory) (lo b : Nat) (h : twfFrom (fun _ => (0 : BitVec 8)) lo m = true) :
    twfFrom (fun _ => (0 : BitVec 8)) b (m.filter (fun c => b ≤ c.1)) = true := by
  induction m generalizing lo with
  | nil => rfl
  | cons q t ih =>
    obtain ⟨a, v⟩ := q
    simp only [twfFrom, Bool.and_eq_true, decide_eq_true_eq] at h
    rw [List.filter_cons]
    split
    · rename_i hb
      simp only [decide_eq_true_eq] at hb
      have : twfFrom (fun _ => (0 : BitVec 8)) (a + 1) (t.filter (fun c => b ≤ c.1)) = true := twfFrom_filter _ _ t _ h.2
      simp only [twfFrom, Bool.and_eq_true, decide_eq_true_eq]
      exact ⟨⟨hb, h.1.2⟩, this⟩
    · exact ih (a + 1) h.2

theorem wf_memStore (m : Memory) (a : Nat) (bs : List Byte) (h : Memory.wf m = true) : Memory.wf (memStore m a bs) = true := by
  unfold memStore
  rw [List.append_assoc]
  refine twfFrom_append _ _ _ 0 a (Nat.zero_le _) (twf_filter _ _ m h) (by simp) ?_
  exact twfFrom_append _ _ _ a (a + bs.length) (by omega) (wf_memCells a bs) (memCells_lt a bs) (wf_filter_ge m 0 _ h)

theorem wf_memScatter (ws : List (Nat × List Byte)) (m : Memory) (h : Memory.wf m = true) :
    Memory.wf (memScatter m ws) = true := by
  induction ws generalizing m with
  | nil => exact h
  | cons p t ih => exact ih _ (wf_memStore m p.1 p.2 h)

theorem tget_append {α : Type} (d : α) (t u : Tbl α) (k : Nat) (h : ∀ p ∈ t, p.1 ≠ k) : tget d (t ++ u) k = tget d u k := by
  induction t with
  | nil => rfl
  | cons q t ih =>
    obtain ⟨a, v⟩ := q
    have : k ≠ a := fun e => h (a, v) (by simp) e.symm
    simp only [List.cons_append, tget, if_neg this]
    exact ih (fun p hp => h p (by simp [hp]))

theorem tget_append_left {α : Type} (d : α) (t u : Tbl α) (k : Nat) (h : ∀ p ∈ u, p.1 ≠ k) : tget d (t ++ u) k = tget d t k := by
  induction t with
  | nil =>
    induction u with
    | nil => rfl
    | cons q u ihu =>
      obtain ⟨a, v⟩ := q
      have : k ≠ a := fun e => h (a, v) (by simp) e.symm
      simpa [tget, this] using ihu (fun p hp => h p (by simp [hp]))
  | cons q t ih => obtain ⟨a, v⟩ := q; simp only [List.cons_append, tget, ih]

theorem tget_filter {α : Type} (d : α) (f : Nat × α → Bool) (t : Tbl α) (k : Nat) (h : ∀ p : Nat × α, p.1 = k → f p = true) :
    tget d (t.filter f) k = tget d t k := by
  induction t with
  | nil => rfl
  | cons q t ih =>
    obtain ⟨a, v⟩ := q
    rw [List.filter_cons]
    by_cases hk : k = a
    · rw [if_pos (h (a, v) hk.symm)]; simp [tget, hk]
    · split <;> simp [tget, hk, ih]

theorem tget_memCells (a : Nat) (bs : List Byte) (i : Nat) (h : i < bs.length) :
    tget (0 : BitVec 8) (memCells a bs) (a + i) = bs[i] := by
  induction bs generalizing a i with
  | nil => simp at h
  | cons b t ih =>
    simp only [memCells]
    cases i with
    | zero =>
      split
      · rename_i hb
        have hlt : ∀ p ∈ memCells (a + 1) t, p.1 ≠ a := by
          intro p hp
          have := twfFrom_ge _ _ _ (wf_memCells (a + 1) t) p hp; omega
        have := tget_append (0 : BitVec 8) (memCells (a + 1) t) [] a hlt
        simpa [tget, hb] using this
      · simp [tget]
    | succ j =>
      have hj : j < t.length := by simpa using h
      have := ih (a + 1) j hj
      rw [show a + 1 + j = a + (j + 1) by omega] at this
      split
      · simpa using this
      · simp only [tget]; rw [if_neg (by omega)]; simpa using this

/-- The bytes stored read back. -/
theorem memByte_memStore_in (m : Memory) (a : Nat) (bs : List Byte) (i : Nat) (h : i < bs.length) :
    memByte (memStore m a bs) (a + i) = bs[i] := by
  unfold memStore memByte
  rw [List.append_assoc, tget_append _ _ _ _ (by intro p hp; simp at hp; omega),
    tget_append_left _ _ _ _ (by intro p hp; simp at hp; omega), tget_memCells a bs i h]

/-- Every other byte reads as before. -/
theorem memByte_memStore_out (m : Memory) (a : Nat) (bs : List Byte) (j : Nat) (h : j < a ∨ a + bs.length ≤ j) :
    memByte (memStore m a bs) j = memByte m j := by
  have hc : ∀ p ∈ memCells a bs, p.1 ≠ j := by
    intro p hp
    have := memCells_lt a bs p hp
    have := twfFrom_ge _ _ _ (wf_memCells a bs) p hp
    omega
  unfold memStore memByte
  rcases h with h | h
  · rw [tget_append_left _ _ _ _ (by intro p hp; simp at hp; omega), tget_append_left _ _ _ _ hc,
      tget_filter _ _ _ _ (by intro p hp; simp [hp]; omega)]
  · rw [List.append_assoc, tget_append _ _ _ _ (by intro p hp; simp at hp; omega), tget_append _ _ _ _ hc,
      tget_filter _ _ _ _ (by intro p hp; simp [hp]; omega)]

/-- Cleared bytes read 0, the others as before. -/
theorem memByte_memClear (m : Memory) (a n j : Nat) :
    memByte (memClear m a n) j = if a ≤ j ∧ j < a + n then 0 else memByte m j := by
  unfold memClear memByte
  split
  · rename_i h
    have h0 : ∀ t : Memory, tget (0 : BitVec 8) (t.filter (fun c => c.1 < a || a + n ≤ c.1)) j = 0 := by
      intro t
      have := tget_append (0 : BitVec 8) (t.filter (fun c => c.1 < a || a + n ≤ c.1)) [] j
        (by intro p hp; simp at hp; omega)
      simpa [tget] using this
    exact h0 m
  · rename_i h
    exact tget_filter _ _ _ _ (by intro p hp; simp [hp]; omega)

end Sys2Proof.Laws
end

