-- ==== Sys2Proof/Laws/State.lean ====
section
/-!
SUPPORT. Sys2Proof/Laws/State.lean: for every update of the state, what each component reads as after it.
-/
namespace Sys2Proof.Laws
open Sys2Proof.Machine

/-! ### The object written reads back, the others as before -/

@[simp] theorem word_setWord (s : State) (k : Nat) (v : Word) (j' : Nat) :
    word (setWord s k v) j' = if j' = k then v else word s j' := by
  simp only [word, setWord]
  by_cases h : j' = k
  · subst h; simp [tget_tset_same]
  · simp [h, tget_tset_other _ _ _ _ _ _ h]

@[simp] theorem tileOf_setTile (s : State) (n : Nat) (x : Tile) (j' : Nat) :
    tileOf (setTile s n x) j' = if j' = n then x else tileOf s j' := by
  simp only [tileOf, setTile]
  exact tget_tset _ _ _ _ _

@[simp] theorem coreOf_setCore (s : State) (n : Nat) (x : Core) (j' : Nat) :
    coreOf (setCore s n x) j' = if j' = n then x else coreOf s j' := by
  simp only [coreOf, setCore]
  exact tget_tset _ _ _ _ _

@[simp] theorem chanOf_setChan (s : State) (n : Nat) (x : Chan) (j' : Nat) :
    chanOf (setChan s n x) j' = if j' = n then x else chanOf s j' := by
  simp only [chanOf, setChan]
  exact tget_tset _ _ _ _ _

@[simp] theorem streamOf_setStream (s : State) (n : Nat) (x : Option Stream) (j' : Nat) :
    streamOf (setStream s n x) j' = if j' = n then x else streamOf s j' := by
  simp only [streamOf, setStream]
  exact tget_tset _ _ _ _ _

@[simp] theorem bruSlotOf_setBruSlot (s : State) (j : Nat) (x : BruSlot) (j' : Nat) :
    bruSlotOf (setBruSlot s j x) j' = if j' = j then x else bruSlotOf s j' := by
  simp only [bruSlotOf, setBruSlot]
  exact tget_tset _ _ _ _ _

@[simp] theorem queueOf_setQueue (s : State) (q : Nat) (x : Queue) (j' : Nat) :
    queueOf (setQueue s q x) j' = if j' = q then x else queueOf s j' := by
  simp only [queueOf, setQueue]
  exact tget_tset _ _ _ _ _

@[simp] theorem slotOf_setSlot (s : State) (i : Nat) (x : Slot) (j' : Nat) :
    slotOf (setSlot s i x) j' = if j' = i then x else slotOf s j' := by
  simp only [slotOf, setSlot]
  exact tget_tset _ _ _ _ _

@[simp] theorem groupOf_setGroup (s : State) (g : Nat) (x : Group) (j' : Nat) :
    groupOf (setGroup s g x) j' = if j' = g then x else groupOf s j' := by
  simp only [groupOf, setGroup]
  exact tget_tset _ _ _ _ _

@[simp] theorem granOf_setGran (s : State) (g : Nat) (x : Granule) (j' : Nat) :
    granOf (setGran s g x) j' = if j' = g then x else granOf s j' := by
  simp only [granOf, setGran]
  exact tget_tset _ _ _ _ _

@[simp] theorem shmOf_setShm (s : State) (n : Nat) (x : ShmSlice) (j' : Nat) :
    shmOf (setShm s n x) j' = if j' = n then x else shmOf s j' := by
  simp only [shmOf, setShm]
  exact tget_tset _ _ _ _ _

@[simp] theorem ddrOf_setDdr (s : State) (k : Nat) (x : DdrChan) (j' : Nat) :
    ddrOf (setDdr s k x) j' = if j' = k then x else ddrOf s j' := by
  simp only [ddrOf, setDdr]
  exact tget_tset _ _ _ _ _

@[simp] theorem partOf_setPart (s : State) (p : Nat) (x : Partition) (j' : Nat) :
    partOf (setPart s p x) j' = if j' = p then x else partOf s j' := by
  simp only [partOf, setPart]
  exact tget_tset _ _ _ _ _

@[simp] theorem linkOf_setLink (s : State) (k : Nat) (x : Link) (j' : Nat) :
    linkOf (setLink s k x) j' = if j' = k then x else linkOf s j' := by
  simp only [linkOf, setLink]
  exact tget_tset _ _ _ _ _

@[simp] theorem windowOf_setWindow (s : State) (w : Nat) (x : Window) (j' : Nat) :
    windowOf (setWindow s w x) j' = if j' = w then x else windowOf s j' := by
  simp only [windowOf, setWindow]
  exact tget_tset _ _ _ _ _

@[simp] theorem sessionOf_setSession (s : State) (n : Nat) (x : Option Session) (j' : Nat) :
    sessionOf (setSession s n x) j' = if j' = n then x else sessionOf s j' := by
  simp only [sessionOf, setSession]
  exact tget_tset _ _ _ _ _

@[simp] theorem contextOf_setContext (s : State) (c : Nat) (x : Option Context) (j' : Nat) :
    contextOf (setContext s c x) j' = if j' = c then x else contextOf s j' := by
  simp only [contextOf, setContext]
  exact tget_tset _ _ _ _ _

@[simp] theorem jobOf_setJob (s : State) (j : Nat) (x : Option Job) (j' : Nat) :
    jobOf (setJob s j x) j' = if j' = j then x else jobOf s j' := by
  simp only [jobOf, setJob]
  exact tget_tset _ _ _ _ _

@[simp] theorem mboxOf_setMbox (s : State) (c : Nat) (x : Mailbox) (j' : Nat) :
    mboxOf (setMbox s c x) j' = if j' = c then x else mboxOf s j' := by
  simp only [mboxOf, setMbox]
  exact tget_tset _ _ _ _ _

@[simp] theorem portOf_setPort (s : State) (p : Nat) (x : NetPort) (j' : Nat) :
    portOf (setPort s p x) j' = if j' = p then x else portOf s j' := by
  simp only [portOf, setPort]
  exact tget_tset _ _ _ _ _

@[simp] theorem flagOf_setFlag (s : State) (f : Nat) (v : Word) (j' : Nat) :
    flagOf (setFlag s f v) j' = if j' = f then v else flagOf s j' := by
  simp only [flagOf, setFlag]
  exact tget_tset _ _ _ _ _

@[simp] theorem bankOf_setBank (s : State) (p k : Nat) (x : Bank) : bankOf (setBank s p k x) p k = x :=
  tget_tset_same _ _ _ _

/-! ### The bytes -/

@[simp] theorem byteAt_clearMem (s : State) (a n j : Nat) :
    byteAt (clearMem s a n) j = if a ≤ j ∧ j < a + n then 0 else byteAt s j := memByte_memClear s.mem a n j

theorem byteAt_store_in (s : State) (a : Nat) (bs : List Byte) (i : Nat) (h : i < bs.length) :
    byteAt (store s a bs) (a + i) = bs[i] := memByte_memStore_in s.mem a bs i h

theorem byteAt_store_out (s : State) (a : Nat) (bs : List Byte) (j : Nat) (h : j < a ∨ a + bs.length ≤ j) :
    byteAt (store s a bs) j = byteAt s j := memByte_memStore_out s.mem a bs j h

/-! ### Components an update leaves alone -/

@[simp] theorem setWord_pending (s : State) (k : Nat) (v : Word) : (setWord s k v).pending = s.pending := rfl
@[simp] theorem setWord_free (s : State) (k : Nat) (v : Word) : (setWord s k v).free = s.free := rfl
@[simp] theorem setWord_mem (s : State) (k : Nat) (v : Word) : (setWord s k v).mem = s.mem := rfl
@[simp] theorem setWord_ddrBytes (s : State) (k : Nat) (v : Word) : (setWord s k v).ddrBytes = s.ddrBytes := rfl
@[simp] theorem setWord_clk (s : State) (k : Nat) (v : Word) : (setWord s k v).clk = s.clk := rfl
@[simp] theorem setWord_bus (s : State) (k : Nat) (v : Word) : (setWord s k v).bus = s.bus := rfl
@[simp] theorem setWord_latches (s : State) (k : Nat) (v : Word) : (setWord s k v).latches = s.latches := rfl
@[simp] theorem setWord_slow (s : State) (k : Nat) (v : Word) : (setWord s k v).slow = s.slow := rfl
@[simp] theorem setWord_resetting (s : State) (k : Nat) (v : Word) : (setWord s k v).resetting = s.resetting := rfl
@[simp] theorem setWord_moves (s : State) (k : Nat) (v : Word) : (setWord s k v).moves = s.moves := rfl
@[simp] theorem setWord_leaving (s : State) (k : Nat) (v : Word) : (setWord s k v).leaving = s.leaving := rfl
@[simp] theorem setWord_endsTaken (s : State) (k : Nat) (v : Word) : (setWord s k v).endsTaken = s.endsTaken := rfl
@[simp] theorem setWord_buses (s : State) (k : Nat) (v : Word) : (setWord s k v).buses = s.buses := rfl
@[simp] theorem setWord_ports (s : State) (k : Nat) (v : Word) : (setWord s k v).ports = s.ports := rfl
@[simp] theorem setWord_banks (s : State) (k : Nat) (v : Word) : (setWord s k v).banks = s.banks := rfl
@[simp] theorem setWord_plates (s : State) (k : Nat) (v : Word) : (setWord s k v).plates = s.plates := rfl
@[simp] theorem setWord_plPend (s : State) (k : Nat) (v : Word) : (setWord s k v).plPend = s.plPend := rfl
@[simp] theorem setWord_plLatch (s : State) (k : Nat) (v : Word) : (setWord s k v).plLatch = s.plLatch := rfl
@[simp] theorem setWord_clPend (s : State) (k : Nat) (v : Word) : (setWord s k v).clPend = s.clPend := rfl
@[simp] theorem setWord_clLatch (s : State) (k : Nat) (v : Word) : (setWord s k v).clLatch = s.clLatch := rfl
@[simp] theorem setWord_colours (s : State) (k : Nat) (v : Word) : (setWord s k v).colours = s.colours := rfl
@[simp] theorem setWord_streams (s : State) (k : Nat) (v : Word) : (setWord s k v).streams = s.streams := rfl
@[simp] theorem setWord_tiles (s : State) (k : Nat) (v : Word) : (setWord s k v).tiles = s.tiles := rfl
@[simp] theorem setWord_cores (s : State) (k : Nat) (v : Word) : (setWord s k v).cores = s.cores := rfl
@[simp] theorem setWord_chans (s : State) (k : Nat) (v : Word) : (setWord s k v).chans = s.chans := rfl
@[simp] theorem setWord_turn (s : State) (k : Nat) (v : Word) : (setWord s k v).turn = s.turn := rfl
@[simp] theorem setWord_pulses (s : State) (k : Nat) (v : Word) : (setWord s k v).pulses = s.pulses := rfl
@[simp] theorem setWord_bru (s : State) (k : Nat) (v : Word) : (setWord s k v).bru = s.bru := rfl
@[simp] theorem setWord_flags (s : State) (k : Nat) (v : Word) : (setWord s k v).flags = s.flags := rfl
@[simp] theorem setWord_groups (s : State) (k : Nat) (v : Word) : (setWord s k v).groups = s.groups := rfl
@[simp] theorem setWord_waits (s : State) (k : Nat) (v : Word) : (setWord s k v).waits = s.waits := rfl
@[simp] theorem setWord_updates (s : State) (k : Nat) (v : Word) : (setWord s k v).updates = s.updates := rfl
@[simp] theorem setWord_checks (s : State) (k : Nat) (v : Word) : (setWord s k v).checks = s.checks := rfl
@[simp] theorem setWord_slots (s : State) (k : Nat) (v : Word) : (setWord s k v).slots = s.slots := rfl
@[simp] theorem setWord_queues (s : State) (k : Nat) (v : Word) : (setWord s k v).queues = s.queues := rfl
@[simp] theorem setWord_granules (s : State) (k : Nat) (v : Word) : (setWord s k v).granules = s.granules := rfl
@[simp] theorem setWord_shm (s : State) (k : Nat) (v : Word) : (setWord s k v).shm = s.shm := rfl
@[simp] theorem setWord_ddr (s : State) (k : Nat) (v : Word) : (setWord s k v).ddr = s.ddr := rfl
@[simp] theorem setWord_poison (s : State) (k : Nat) (v : Word) : (setWord s k v).poison = s.poison := rfl
@[simp] theorem setWord_shmOff (s : State) (k : Nat) (v : Word) : (setWord s k v).shmOff = s.shmOff := rfl
@[simp] theorem setWord_inval (s : State) (k : Nat) (v : Word) : (setWord s k v).inval = s.inval := rfl
@[simp] theorem setWord_fc (s : State) (k : Nat) (v : Word) : (setWord s k v).fc = s.fc := rfl
@[simp] theorem setWord_host (s : State) (k : Nat) (v : Word) : (setWord s k v).host = s.host := rfl
@[simp] theorem setWord_sent (s : State) (k : Nat) (v : Word) : (setWord s k v).sent = s.sent := rfl
@[simp] theorem setWord_bridge (s : State) (k : Nat) (v : Word) : (setWord s k v).bridge = s.bridge := rfl
@[simp] theorem setWord_smi (s : State) (k : Nat) (v : Word) : (setWord s k v).smi = s.smi := rfl
@[simp] theorem setWord_power (s : State) (k : Nat) (v : Word) : (setWord s k v).power = s.power := rfl
@[simp] theorem setWord_boot (s : State) (k : Nat) (v : Word) : (setWord s k v).boot = s.boot := rfl
@[simp] theorem setWord_retire (s : State) (k : Nat) (v : Word) : (setWord s k v).retire = s.retire := rfl
@[simp] theorem setWord_fuses (s : State) (k : Nat) (v : Word) : (setWord s k v).fuses = s.fuses := rfl
@[simp] theorem setWord_flash (s : State) (k : Nat) (v : Word) : (setWord s k v).flash = s.flash := rfl
@[simp] theorem setWord_pins (s : State) (k : Nat) (v : Word) : (setWord s k v).pins = s.pins := rfl
@[simp] theorem setWord_licences (s : State) (k : Nat) (v : Word) : (setWord s k v).licences = s.licences := rfl
@[simp] theorem setWord_dbgOpen (s : State) (k : Nat) (v : Word) : (setWord s k v).dbgOpen = s.dbgOpen := rfl

@[simp] theorem clearRegs_pending (s : State) (lo n : Nat) : (clearRegs s lo n).pending = s.pending := rfl
@[simp] theorem clearRegs_free (s : State) (lo n : Nat) : (clearRegs s lo n).free = s.free := rfl
@[simp] theorem clearRegs_mem (s : State) (lo n : Nat) : (clearRegs s lo n).mem = s.mem := rfl
@[simp] theorem clearRegs_ddrBytes (s : State) (lo n : Nat) : (clearRegs s lo n).ddrBytes = s.ddrBytes := rfl
@[simp] theorem clearRegs_clk (s : State) (lo n : Nat) : (clearRegs s lo n).clk = s.clk := rfl
@[simp] theorem clearRegs_bus (s : State) (lo n : Nat) : (clearRegs s lo n).bus = s.bus := rfl
@[simp] theorem clearRegs_latches (s : State) (lo n : Nat) : (clearRegs s lo n).latches = s.latches := rfl
@[simp] theorem clearRegs_slow (s : State) (lo n : Nat) : (clearRegs s lo n).slow = s.slow := rfl
@[simp] theorem clearRegs_resetting (s : State) (lo n : Nat) : (clearRegs s lo n).resetting = s.resetting := rfl
@[simp] theorem clearRegs_moves (s : State) (lo n : Nat) : (clearRegs s lo n).moves = s.moves := rfl
@[simp] theorem clearRegs_leaving (s : State) (lo n : Nat) : (clearRegs s lo n).leaving = s.leaving := rfl
@[simp] theorem clearRegs_endsTaken (s : State) (lo n : Nat) : (clearRegs s lo n).endsTaken = s.endsTaken := rfl
@[simp] theorem clearRegs_buses (s : State) (lo n : Nat) : (clearRegs s lo n).buses = s.buses := rfl
@[simp] theorem clearRegs_ports (s : State) (lo n : Nat) : (clearRegs s lo n).ports = s.ports := rfl
@[simp] theorem clearRegs_banks (s : State) (lo n : Nat) : (clearRegs s lo n).banks = s.banks := rfl
@[simp] theorem clearRegs_plates (s : State) (lo n : Nat) : (clearRegs s lo n).plates = s.plates := rfl
@[simp] theorem clearRegs_plPend (s : State) (lo n : Nat) : (clearRegs s lo n).plPend = s.plPend := rfl
@[simp] theorem clearRegs_plLatch (s : State) (lo n : Nat) : (clearRegs s lo n).plLatch = s.plLatch := rfl
@[simp] theorem clearRegs_clPend (s : State) (lo n : Nat) : (clearRegs s lo n).clPend = s.clPend := rfl
@[simp] theorem clearRegs_clLatch (s : State) (lo n : Nat) : (clearRegs s lo n).clLatch = s.clLatch := rfl
@[simp] theorem clearRegs_colours (s : State) (lo n : Nat) : (clearRegs s lo n).colours = s.colours := rfl
@[simp] theorem clearRegs_streams (s : State) (lo n : Nat) : (clearRegs s lo n).streams = s.streams := rfl
@[simp] theorem clearRegs_tiles (s : State) (lo n : Nat) : (clearRegs s lo n).tiles = s.tiles := rfl
@[simp] theorem clearRegs_cores (s : State) (lo n : Nat) : (clearRegs s lo n).cores = s.cores := rfl
@[simp] theorem clearRegs_chans (s : State) (lo n : Nat) : (clearRegs s lo n).chans = s.chans := rfl
@[simp] theorem clearRegs_turn (s : State) (lo n : Nat) : (clearRegs s lo n).turn = s.turn := rfl
@[simp] theorem clearRegs_pulses (s : State) (lo n : Nat) : (clearRegs s lo n).pulses = s.pulses := rfl
@[simp] theorem clearRegs_bru (s : State) (lo n : Nat) : (clearRegs s lo n).bru = s.bru := rfl
@[simp] theorem clearRegs_flags (s : State) (lo n : Nat) : (clearRegs s lo n).flags = s.flags := rfl
@[simp] theorem clearRegs_groups (s : State) (lo n : Nat) : (clearRegs s lo n).groups = s.groups := rfl
@[simp] theorem clearRegs_waits (s : State) (lo n : Nat) : (clearRegs s lo n).waits = s.waits := rfl
@[simp] theorem clearRegs_updates (s : State) (lo n : Nat) : (clearRegs s lo n).updates = s.updates := rfl
@[simp] theorem clearRegs_checks (s : State) (lo n : Nat) : (clearRegs s lo n).checks = s.checks := rfl
@[simp] theorem clearRegs_slots (s : State) (lo n : Nat) : (clearRegs s lo n).slots = s.slots := rfl
@[simp] theorem clearRegs_queues (s : State) (lo n : Nat) : (clearRegs s lo n).queues = s.queues := rfl
@[simp] theorem clearRegs_granules (s : State) (lo n : Nat) : (clearRegs s lo n).granules = s.granules := rfl
@[simp] theorem clearRegs_shm (s : State) (lo n : Nat) : (clearRegs s lo n).shm = s.shm := rfl
@[simp] theorem clearRegs_ddr (s : State) (lo n : Nat) : (clearRegs s lo n).ddr = s.ddr := rfl
@[simp] theorem clearRegs_poison (s : State) (lo n : Nat) : (clearRegs s lo n).poison = s.poison := rfl
@[simp] theorem clearRegs_shmOff (s : State) (lo n : Nat) : (clearRegs s lo n).shmOff = s.shmOff := rfl
@[simp] theorem clearRegs_inval (s : State) (lo n : Nat) : (clearRegs s lo n).inval = s.inval := rfl
@[simp] theorem clearRegs_fc (s : State) (lo n : Nat) : (clearRegs s lo n).fc = s.fc := rfl
@[simp] theorem clearRegs_host (s : State) (lo n : Nat) : (clearRegs s lo n).host = s.host := rfl
@[simp] theorem clearRegs_sent (s : State) (lo n : Nat) : (clearRegs s lo n).sent = s.sent := rfl
@[simp] theorem clearRegs_bridge (s : State) (lo n : Nat) : (clearRegs s lo n).bridge = s.bridge := rfl
@[simp] theorem clearRegs_smi (s : State) (lo n : Nat) : (clearRegs s lo n).smi = s.smi := rfl
@[simp] theorem clearRegs_power (s : State) (lo n : Nat) : (clearRegs s lo n).power = s.power := rfl
@[simp] theorem clearRegs_boot (s : State) (lo n : Nat) : (clearRegs s lo n).boot = s.boot := rfl
@[simp] theorem clearRegs_retire (s : State) (lo n : Nat) : (clearRegs s lo n).retire = s.retire := rfl
@[simp] theorem clearRegs_fuses (s : State) (lo n : Nat) : (clearRegs s lo n).fuses = s.fuses := rfl
@[simp] theorem clearRegs_flash (s : State) (lo n : Nat) : (clearRegs s lo n).flash = s.flash := rfl
@[simp] theorem clearRegs_pins (s : State) (lo n : Nat) : (clearRegs s lo n).pins = s.pins := rfl
@[simp] theorem clearRegs_licences (s : State) (lo n : Nat) : (clearRegs s lo n).licences = s.licences := rfl
@[simp] theorem clearRegs_dbgOpen (s : State) (lo n : Nat) : (clearRegs s lo n).dbgOpen = s.dbgOpen := rfl

@[simp] theorem store_pending (s : State) (a : Nat) (bs : List Byte) : (store s a bs).pending = s.pending := rfl
@[simp] theorem store_free (s : State) (a : Nat) (bs : List Byte) : (store s a bs).free = s.free := rfl
@[simp] theorem store_regs (s : State) (a : Nat) (bs : List Byte) : (store s a bs).regs = s.regs := rfl
@[simp] theorem store_ddrBytes (s : State) (a : Nat) (bs : List Byte) : (store s a bs).ddrBytes = s.ddrBytes := rfl
@[simp] theorem store_clk (s : State) (a : Nat) (bs : List Byte) : (store s a bs).clk = s.clk := rfl
@[simp] theorem store_bus (s : State) (a : Nat) (bs : List Byte) : (store s a bs).bus = s.bus := rfl
@[simp] theorem store_latches (s : State) (a : Nat) (bs : List Byte) : (store s a bs).latches = s.latches := rfl
@[simp] theorem store_slow (s : State) (a : Nat) (bs : List Byte) : (store s a bs).slow = s.slow := rfl
@[simp] theorem store_resetting (s : State) (a : Nat) (bs : List Byte) : (store s a bs).resetting = s.resetting := rfl
@[simp] theorem store_moves (s : State) (a : Nat) (bs : List Byte) : (store s a bs).moves = s.moves := rfl
@[simp] theorem store_leaving (s : State) (a : Nat) (bs : List Byte) : (store s a bs).leaving = s.leaving := rfl
@[simp] theorem store_endsTaken (s : State) (a : Nat) (bs : List Byte) : (store s a bs).endsTaken = s.endsTaken := rfl
@[simp] theorem store_buses (s : State) (a : Nat) (bs : List Byte) : (store s a bs).buses = s.buses := rfl
@[simp] theorem store_ports (s : State) (a : Nat) (bs : List Byte) : (store s a bs).ports = s.ports := rfl
@[simp] theorem store_banks (s : State) (a : Nat) (bs : List Byte) : (store s a bs).banks = s.banks := rfl
@[simp] theorem store_plates (s : State) (a : Nat) (bs : List Byte) : (store s a bs).plates = s.plates := rfl
@[simp] theorem store_plPend (s : State) (a : Nat) (bs : List Byte) : (store s a bs).plPend = s.plPend := rfl
@[simp] theorem store_plLatch (s : State) (a : Nat) (bs : List Byte) : (store s a bs).plLatch = s.plLatch := rfl
@[simp] theorem store_clPend (s : State) (a : Nat) (bs : List Byte) : (store s a bs).clPend = s.clPend := rfl
@[simp] theorem store_clLatch (s : State) (a : Nat) (bs : List Byte) : (store s a bs).clLatch = s.clLatch := rfl
@[simp] theorem store_colours (s : State) (a : Nat) (bs : List Byte) : (store s a bs).colours = s.colours := rfl
@[simp] theorem store_streams (s : State) (a : Nat) (bs : List Byte) : (store s a bs).streams = s.streams := rfl
@[simp] theorem store_tiles (s : State) (a : Nat) (bs : List Byte) : (store s a bs).tiles = s.tiles := rfl
@[simp] theorem store_cores (s : State) (a : Nat) (bs : List Byte) : (store s a bs).cores = s.cores := rfl
@[simp] theorem store_chans (s : State) (a : Nat) (bs : List Byte) : (store s a bs).chans = s.chans := rfl
@[simp] theorem store_turn (s : State) (a : Nat) (bs : List Byte) : (store s a bs).turn = s.turn := rfl
@[simp] theorem store_pulses (s : State) (a : Nat) (bs : List Byte) : (store s a bs).pulses = s.pulses := rfl
@[simp] theorem store_bru (s : State) (a : Nat) (bs : List Byte) : (store s a bs).bru = s.bru := rfl
@[simp] theorem store_flags (s : State) (a : Nat) (bs : List Byte) : (store s a bs).flags = s.flags := rfl
@[simp] theorem store_groups (s : State) (a : Nat) (bs : List Byte) : (store s a bs).groups = s.groups := rfl
@[simp] theorem store_waits (s : State) (a : Nat) (bs : List Byte) : (store s a bs).waits = s.waits := rfl
@[simp] theorem store_updates (s : State) (a : Nat) (bs : List Byte) : (store s a bs).updates = s.updates := rfl
@[simp] theorem store_checks (s : State) (a : Nat) (bs : List Byte) : (store s a bs).checks = s.checks := rfl
@[simp] theorem store_slots (s : State) (a : Nat) (bs : List Byte) : (store s a bs).slots = s.slots := rfl
@[simp] theorem store_queues (s : State) (a : Nat) (bs : List Byte) : (store s a bs).queues = s.queues := rfl
@[simp] theorem store_granules (s : State) (a : Nat) (bs : List Byte) : (store s a bs).granules = s.granules := rfl
@[simp] theorem store_shm (s : State) (a : Nat) (bs : List Byte) : (store s a bs).shm = s.shm := rfl
@[simp] theorem store_ddr (s : State) (a : Nat) (bs : List Byte) : (store s a bs).ddr = s.ddr := rfl
@[simp] theorem store_poison (s : State) (a : Nat) (bs : List Byte) : (store s a bs).poison = s.poison := rfl
@[simp] theorem store_shmOff (s : State) (a : Nat) (bs : List Byte) : (store s a bs).shmOff = s.shmOff := rfl
@[simp] theorem store_inval (s : State) (a : Nat) (bs : List Byte) : (store s a bs).inval = s.inval := rfl
@[simp] theorem store_fc (s : State) (a : Nat) (bs : List Byte) : (store s a bs).fc = s.fc := rfl
@[simp] theorem store_host (s : State) (a : Nat) (bs : List Byte) : (store s a bs).host = s.host := rfl
@[simp] theorem store_sent (s : State) (a : Nat) (bs : List Byte) : (store s a bs).sent = s.sent := rfl
@[simp] theorem store_bridge (s : State) (a : Nat) (bs : List Byte) : (store s a bs).bridge = s.bridge := rfl
@[simp] theorem store_smi (s : State) (a : Nat) (bs : List Byte) : (store s a bs).smi = s.smi := rfl
@[simp] theorem store_power (s : State) (a : Nat) (bs : List Byte) : (store s a bs).power = s.power := rfl
@[simp] theorem store_boot (s : State) (a : Nat) (bs : List Byte) : (store s a bs).boot = s.boot := rfl
@[simp] theorem store_retire (s : State) (a : Nat) (bs : List Byte) : (store s a bs).retire = s.retire := rfl
@[simp] theorem store_fuses (s : State) (a : Nat) (bs : List Byte) : (store s a bs).fuses = s.fuses := rfl
@[simp] theorem store_flash (s : State) (a : Nat) (bs : List Byte) : (store s a bs).flash = s.flash := rfl
@[simp] theorem store_pins (s : State) (a : Nat) (bs : List Byte) : (store s a bs).pins = s.pins := rfl
@[simp] theorem store_licences (s : State) (a : Nat) (bs : List Byte) : (store s a bs).licences = s.licences := rfl
@[simp] theorem store_dbgOpen (s : State) (a : Nat) (bs : List Byte) : (store s a bs).dbgOpen = s.dbgOpen := rfl

@[simp] theorem clearMem_pending (s : State) (a n : Nat) : (clearMem s a n).pending = s.pending := rfl
@[simp] theorem clearMem_free (s : State) (a n : Nat) : (clearMem s a n).free = s.free := rfl
@[simp] theorem clearMem_regs (s : State) (a n : Nat) : (clearMem s a n).regs = s.regs := rfl
@[simp] theorem clearMem_ddrBytes (s : State) (a n : Nat) : (clearMem s a n).ddrBytes = s.ddrBytes := rfl
@[simp] theorem clearMem_clk (s : State) (a n : Nat) : (clearMem s a n).clk = s.clk := rfl
@[simp] theorem clearMem_bus (s : State) (a n : Nat) : (clearMem s a n).bus = s.bus := rfl
@[simp] theorem clearMem_latches (s : State) (a n : Nat) : (clearMem s a n).latches = s.latches := rfl
@[simp] theorem clearMem_slow (s : State) (a n : Nat) : (clearMem s a n).slow = s.slow := rfl
@[simp] theorem clearMem_resetting (s : State) (a n : Nat) : (clearMem s a n).resetting = s.resetting := rfl
@[simp] theorem clearMem_moves (s : State) (a n : Nat) : (clearMem s a n).moves = s.moves := rfl
@[simp] theorem clearMem_leaving (s : State) (a n : Nat) : (clearMem s a n).leaving = s.leaving := rfl
@[simp] theorem clearMem_endsTaken (s : State) (a n : Nat) : (clearMem s a n).endsTaken = s.endsTaken := rfl
@[simp] theorem clearMem_buses (s : State) (a n : Nat) : (clearMem s a n).buses = s.buses := rfl
@[simp] theorem clearMem_ports (s : State) (a n : Nat) : (clearMem s a n).ports = s.ports := rfl
@[simp] theorem clearMem_banks (s : State) (a n : Nat) : (clearMem s a n).banks = s.banks := rfl
@[simp] theorem clearMem_plates (s : State) (a n : Nat) : (clearMem s a n).plates = s.plates := rfl
@[simp] theorem clearMem_plPend (s : State) (a n : Nat) : (clearMem s a n).plPend = s.plPend := rfl
@[simp] theorem clearMem_plLatch (s : State) (a n : Nat) : (clearMem s a n).plLatch = s.plLatch := rfl
@[simp] theorem clearMem_clPend (s : State) (a n : Nat) : (clearMem s a n).clPend = s.clPend := rfl
@[simp] theorem clearMem_clLatch (s : State) (a n : Nat) : (clearMem s a n).clLatch = s.clLatch := rfl
@[simp] theorem clearMem_colours (s : State) (a n : Nat) : (clearMem s a n).colours = s.colours := rfl
@[simp] theorem clearMem_streams (s : State) (a n : Nat) : (clearMem s a n).streams = s.streams := rfl
@[simp] theorem clearMem_tiles (s : State) (a n : Nat) : (clearMem s a n).tiles = s.tiles := rfl
@[simp] theorem clearMem_cores (s : State) (a n : Nat) : (clearMem s a n).cores = s.cores := rfl
@[simp] theorem clearMem_chans (s : State) (a n : Nat) : (clearMem s a n).chans = s.chans := rfl
@[simp] theorem clearMem_turn (s : State) (a n : Nat) : (clearMem s a n).turn = s.turn := rfl
@[simp] theorem clearMem_pulses (s : State) (a n : Nat) : (clearMem s a n).pulses = s.pulses := rfl
@[simp] theorem clearMem_bru (s : State) (a n : Nat) : (clearMem s a n).bru = s.bru := rfl
@[simp] theorem clearMem_flags (s : State) (a n : Nat) : (clearMem s a n).flags = s.flags := rfl
@[simp] theorem clearMem_groups (s : State) (a n : Nat) : (clearMem s a n).groups = s.groups := rfl
@[simp] theorem clearMem_waits (s : State) (a n : Nat) : (clearMem s a n).waits = s.waits := rfl
@[simp] theorem clearMem_updates (s : State) (a n : Nat) : (clearMem s a n).updates = s.updates := rfl
@[simp] theorem clearMem_checks (s : State) (a n : Nat) : (clearMem s a n).checks = s.checks := rfl
@[simp] theorem clearMem_slots (s : State) (a n : Nat) : (clearMem s a n).slots = s.slots := rfl
@[simp] theorem clearMem_queues (s : State) (a n : Nat) : (clearMem s a n).queues = s.queues := rfl
@[simp] theorem clearMem_granules (s : State) (a n : Nat) : (clearMem s a n).granules = s.granules := rfl
@[simp] theorem clearMem_shm (s : State) (a n : Nat) : (clearMem s a n).shm = s.shm := rfl
@[simp] theorem clearMem_ddr (s : State) (a n : Nat) : (clearMem s a n).ddr = s.ddr := rfl
@[simp] theorem clearMem_poison (s : State) (a n : Nat) : (clearMem s a n).poison = s.poison := rfl
@[simp] theorem clearMem_shmOff (s : State) (a n : Nat) : (clearMem s a n).shmOff = s.shmOff := rfl
@[simp] theorem clearMem_inval (s : State) (a n : Nat) : (clearMem s a n).inval = s.inval := rfl
@[simp] theorem clearMem_fc (s : State) (a n : Nat) : (clearMem s a n).fc = s.fc := rfl
@[simp] theorem clearMem_host (s : State) (a n : Nat) : (clearMem s a n).host = s.host := rfl
@[simp] theorem clearMem_sent (s : State) (a n : Nat) : (clearMem s a n).sent = s.sent := rfl
@[simp] theorem clearMem_bridge (s : State) (a n : Nat) : (clearMem s a n).bridge = s.bridge := rfl
@[simp] theorem clearMem_smi (s : State) (a n : Nat) : (clearMem s a n).smi = s.smi := rfl
@[simp] theorem clearMem_power (s : State) (a n : Nat) : (clearMem s a n).power = s.power := rfl
@[simp] theorem clearMem_boot (s : State) (a n : Nat) : (clearMem s a n).boot = s.boot := rfl
@[simp] theorem clearMem_retire (s : State) (a n : Nat) : (clearMem s a n).retire = s.retire := rfl
@[simp] theorem clearMem_fuses (s : State) (a n : Nat) : (clearMem s a n).fuses = s.fuses := rfl
@[simp] theorem clearMem_flash (s : State) (a n : Nat) : (clearMem s a n).flash = s.flash := rfl
@[simp] theorem clearMem_pins (s : State) (a n : Nat) : (clearMem s a n).pins = s.pins := rfl
@[simp] theorem clearMem_licences (s : State) (a n : Nat) : (clearMem s a n).licences = s.licences := rfl
@[simp] theorem clearMem_dbgOpen (s : State) (a n : Nat) : (clearMem s a n).dbgOpen = s.dbgOpen := rfl

@[simp] theorem setTile_pending (s : State) (n : Nat) (x : Tile) : (setTile s n x).pending = s.pending := rfl
@[simp] theorem setTile_free (s : State) (n : Nat) (x : Tile) : (setTile s n x).free = s.free := rfl
@[simp] theorem setTile_regs (s : State) (n : Nat) (x : Tile) : (setTile s n x).regs = s.regs := rfl
@[simp] theorem setTile_mem (s : State) (n : Nat) (x : Tile) : (setTile s n x).mem = s.mem := rfl
@[simp] theorem setTile_ddrBytes (s : State) (n : Nat) (x : Tile) : (setTile s n x).ddrBytes = s.ddrBytes := rfl
@[simp] theorem setTile_clk (s : State) (n : Nat) (x : Tile) : (setTile s n x).clk = s.clk := rfl
@[simp] theorem setTile_bus (s : State) (n : Nat) (x : Tile) : (setTile s n x).bus = s.bus := rfl
@[simp] theorem setTile_latches (s : State) (n : Nat) (x : Tile) : (setTile s n x).latches = s.latches := rfl
@[simp] theorem setTile_slow (s : State) (n : Nat) (x : Tile) : (setTile s n x).slow = s.slow := rfl
@[simp] theorem setTile_resetting (s : State) (n : Nat) (x : Tile) : (setTile s n x).resetting = s.resetting := rfl
@[simp] theorem setTile_moves (s : State) (n : Nat) (x : Tile) : (setTile s n x).moves = s.moves := rfl
@[simp] theorem setTile_leaving (s : State) (n : Nat) (x : Tile) : (setTile s n x).leaving = s.leaving := rfl
@[simp] theorem setTile_endsTaken (s : State) (n : Nat) (x : Tile) : (setTile s n x).endsTaken = s.endsTaken := rfl
@[simp] theorem setTile_buses (s : State) (n : Nat) (x : Tile) : (setTile s n x).buses = s.buses := rfl
@[simp] theorem setTile_ports (s : State) (n : Nat) (x : Tile) : (setTile s n x).ports = s.ports := rfl
@[simp] theorem setTile_banks (s : State) (n : Nat) (x : Tile) : (setTile s n x).banks = s.banks := rfl
@[simp] theorem setTile_plates (s : State) (n : Nat) (x : Tile) : (setTile s n x).plates = s.plates := rfl
@[simp] theorem setTile_plPend (s : State) (n : Nat) (x : Tile) : (setTile s n x).plPend = s.plPend := rfl
@[simp] theorem setTile_plLatch (s : State) (n : Nat) (x : Tile) : (setTile s n x).plLatch = s.plLatch := rfl
@[simp] theorem setTile_clPend (s : State) (n : Nat) (x : Tile) : (setTile s n x).clPend = s.clPend := rfl
@[simp] theorem setTile_clLatch (s : State) (n : Nat) (x : Tile) : (setTile s n x).clLatch = s.clLatch := rfl
@[simp] theorem setTile_colours (s : State) (n : Nat) (x : Tile) : (setTile s n x).colours = s.colours := rfl
@[simp] theorem setTile_streams (s : State) (n : Nat) (x : Tile) : (setTile s n x).streams = s.streams := rfl
@[simp] theorem setTile_cores (s : State) (n : Nat) (x : Tile) : (setTile s n x).cores = s.cores := rfl
@[simp] theorem setTile_chans (s : State) (n : Nat) (x : Tile) : (setTile s n x).chans = s.chans := rfl
@[simp] theorem setTile_turn (s : State) (n : Nat) (x : Tile) : (setTile s n x).turn = s.turn := rfl
@[simp] theorem setTile_pulses (s : State) (n : Nat) (x : Tile) : (setTile s n x).pulses = s.pulses := rfl
@[simp] theorem setTile_bru (s : State) (n : Nat) (x : Tile) : (setTile s n x).bru = s.bru := rfl
@[simp] theorem setTile_flags (s : State) (n : Nat) (x : Tile) : (setTile s n x).flags = s.flags := rfl
@[simp] theorem setTile_groups (s : State) (n : Nat) (x : Tile) : (setTile s n x).groups = s.groups := rfl
@[simp] theorem setTile_waits (s : State) (n : Nat) (x : Tile) : (setTile s n x).waits = s.waits := rfl
@[simp] theorem setTile_updates (s : State) (n : Nat) (x : Tile) : (setTile s n x).updates = s.updates := rfl
@[simp] theorem setTile_checks (s : State) (n : Nat) (x : Tile) : (setTile s n x).checks = s.checks := rfl
@[simp] theorem setTile_slots (s : State) (n : Nat) (x : Tile) : (setTile s n x).slots = s.slots := rfl
@[simp] theorem setTile_queues (s : State) (n : Nat) (x : Tile) : (setTile s n x).queues = s.queues := rfl
@[simp] theorem setTile_granules (s : State) (n : Nat) (x : Tile) : (setTile s n x).granules = s.granules := rfl
@[simp] theorem setTile_shm (s : State) (n : Nat) (x : Tile) : (setTile s n x).shm = s.shm := rfl
@[simp] theorem setTile_ddr (s : State) (n : Nat) (x : Tile) : (setTile s n x).ddr = s.ddr := rfl
@[simp] theorem setTile_poison (s : State) (n : Nat) (x : Tile) : (setTile s n x).poison = s.poison := rfl
@[simp] theorem setTile_shmOff (s : State) (n : Nat) (x : Tile) : (setTile s n x).shmOff = s.shmOff := rfl
@[simp] theorem setTile_inval (s : State) (n : Nat) (x : Tile) : (setTile s n x).inval = s.inval := rfl
@[simp] theorem setTile_fc (s : State) (n : Nat) (x : Tile) : (setTile s n x).fc = s.fc := rfl
@[simp] theorem setTile_host (s : State) (n : Nat) (x : Tile) : (setTile s n x).host = s.host := rfl
@[simp] theorem setTile_sent (s : State) (n : Nat) (x : Tile) : (setTile s n x).sent = s.sent := rfl
@[simp] theorem setTile_bridge (s : State) (n : Nat) (x : Tile) : (setTile s n x).bridge = s.bridge := rfl
@[simp] theorem setTile_smi (s : State) (n : Nat) (x : Tile) : (setTile s n x).smi = s.smi := rfl
@[simp] theorem setTile_power (s : State) (n : Nat) (x : Tile) : (setTile s n x).power = s.power := rfl
@[simp] theorem setTile_boot (s : State) (n : Nat) (x : Tile) : (setTile s n x).boot = s.boot := rfl
@[simp] theorem setTile_retire (s : State) (n : Nat) (x : Tile) : (setTile s n x).retire = s.retire := rfl
@[simp] theorem setTile_fuses (s : State) (n : Nat) (x : Tile) : (setTile s n x).fuses = s.fuses := rfl
@[simp] theorem setTile_flash (s : State) (n : Nat) (x : Tile) : (setTile s n x).flash = s.flash := rfl
@[simp] theorem setTile_pins (s : State) (n : Nat) (x : Tile) : (setTile s n x).pins = s.pins := rfl
@[simp] theorem setTile_licences (s : State) (n : Nat) (x : Tile) : (setTile s n x).licences = s.licences := rfl
@[simp] theorem setTile_dbgOpen (s : State) (n : Nat) (x : Tile) : (setTile s n x).dbgOpen = s.dbgOpen := rfl

@[simp] theorem setCore_pending (s : State) (n : Nat) (x : Core) : (setCore s n x).pending = s.pending := rfl
@[simp] theorem setCore_free (s : State) (n : Nat) (x : Core) : (setCore s n x).free = s.free := rfl
@[simp] theorem setCore_regs (s : State) (n : Nat) (x : Core) : (setCore s n x).regs = s.regs := rfl
@[simp] theorem setCore_mem (s : State) (n : Nat) (x : Core) : (setCore s n x).mem = s.mem := rfl
@[simp] theorem setCore_ddrBytes (s : State) (n : Nat) (x : Core) : (setCore s n x).ddrBytes = s.ddrBytes := rfl
@[simp] theorem setCore_clk (s : State) (n : Nat) (x : Core) : (setCore s n x).clk = s.clk := rfl
@[simp] theorem setCore_bus (s : State) (n : Nat) (x : Core) : (setCore s n x).bus = s.bus := rfl
@[simp] theorem setCore_latches (s : State) (n : Nat) (x : Core) : (setCore s n x).latches = s.latches := rfl
@[simp] theorem setCore_slow (s : State) (n : Nat) (x : Core) : (setCore s n x).slow = s.slow := rfl
@[simp] theorem setCore_resetting (s : State) (n : Nat) (x : Core) : (setCore s n x).resetting = s.resetting := rfl
@[simp] theorem setCore_moves (s : State) (n : Nat) (x : Core) : (setCore s n x).moves = s.moves := rfl
@[simp] theorem setCore_leaving (s : State) (n : Nat) (x : Core) : (setCore s n x).leaving = s.leaving := rfl
@[simp] theorem setCore_endsTaken (s : State) (n : Nat) (x : Core) : (setCore s n x).endsTaken = s.endsTaken := rfl
@[simp] theorem setCore_buses (s : State) (n : Nat) (x : Core) : (setCore s n x).buses = s.buses := rfl
@[simp] theorem setCore_ports (s : State) (n : Nat) (x : Core) : (setCore s n x).ports = s.ports := rfl
@[simp] theorem setCore_banks (s : State) (n : Nat) (x : Core) : (setCore s n x).banks = s.banks := rfl
@[simp] theorem setCore_plates (s : State) (n : Nat) (x : Core) : (setCore s n x).plates = s.plates := rfl
@[simp] theorem setCore_plPend (s : State) (n : Nat) (x : Core) : (setCore s n x).plPend = s.plPend := rfl
@[simp] theorem setCore_plLatch (s : State) (n : Nat) (x : Core) : (setCore s n x).plLatch = s.plLatch := rfl
@[simp] theorem setCore_clPend (s : State) (n : Nat) (x : Core) : (setCore s n x).clPend = s.clPend := rfl
@[simp] theorem setCore_clLatch (s : State) (n : Nat) (x : Core) : (setCore s n x).clLatch = s.clLatch := rfl
@[simp] theorem setCore_colours (s : State) (n : Nat) (x : Core) : (setCore s n x).colours = s.colours := rfl
@[simp] theorem setCore_streams (s : State) (n : Nat) (x : Core) : (setCore s n x).streams = s.streams := rfl
@[simp] theorem setCore_tiles (s : State) (n : Nat) (x : Core) : (setCore s n x).tiles = s.tiles := rfl
@[simp] theorem setCore_chans (s : State) (n : Nat) (x : Core) : (setCore s n x).chans = s.chans := rfl
@[simp] theorem setCore_turn (s : State) (n : Nat) (x : Core) : (setCore s n x).turn = s.turn := rfl
@[simp] theorem setCore_pulses (s : State) (n : Nat) (x : Core) : (setCore s n x).pulses = s.pulses := rfl
@[simp] theorem setCore_bru (s : State) (n : Nat) (x : Core) : (setCore s n x).bru = s.bru := rfl
@[simp] theorem setCore_flags (s : State) (n : Nat) (x : Core) : (setCore s n x).flags = s.flags := rfl
@[simp] theorem setCore_groups (s : State) (n : Nat) (x : Core) : (setCore s n x).groups = s.groups := rfl
@[simp] theorem setCore_waits (s : State) (n : Nat) (x : Core) : (setCore s n x).waits = s.waits := rfl
@[simp] theorem setCore_updates (s : State) (n : Nat) (x : Core) : (setCore s n x).updates = s.updates := rfl
@[simp] theorem setCore_checks (s : State) (n : Nat) (x : Core) : (setCore s n x).checks = s.checks := rfl
@[simp] theorem setCore_slots (s : State) (n : Nat) (x : Core) : (setCore s n x).slots = s.slots := rfl
@[simp] theorem setCore_queues (s : State) (n : Nat) (x : Core) : (setCore s n x).queues = s.queues := rfl
@[simp] theorem setCore_granules (s : State) (n : Nat) (x : Core) : (setCore s n x).granules = s.granules := rfl
@[simp] theorem setCore_shm (s : State) (n : Nat) (x : Core) : (setCore s n x).shm = s.shm := rfl
@[simp] theorem setCore_ddr (s : State) (n : Nat) (x : Core) : (setCore s n x).ddr = s.ddr := rfl
@[simp] theorem setCore_poison (s : State) (n : Nat) (x : Core) : (setCore s n x).poison = s.poison := rfl
@[simp] theorem setCore_shmOff (s : State) (n : Nat) (x : Core) : (setCore s n x).shmOff = s.shmOff := rfl
@[simp] theorem setCore_inval (s : State) (n : Nat) (x : Core) : (setCore s n x).inval = s.inval := rfl
@[simp] theorem setCore_fc (s : State) (n : Nat) (x : Core) : (setCore s n x).fc = s.fc := rfl
@[simp] theorem setCore_host (s : State) (n : Nat) (x : Core) : (setCore s n x).host = s.host := rfl
@[simp] theorem setCore_sent (s : State) (n : Nat) (x : Core) : (setCore s n x).sent = s.sent := rfl
@[simp] theorem setCore_bridge (s : State) (n : Nat) (x : Core) : (setCore s n x).bridge = s.bridge := rfl
@[simp] theorem setCore_smi (s : State) (n : Nat) (x : Core) : (setCore s n x).smi = s.smi := rfl
@[simp] theorem setCore_power (s : State) (n : Nat) (x : Core) : (setCore s n x).power = s.power := rfl
@[simp] theorem setCore_boot (s : State) (n : Nat) (x : Core) : (setCore s n x).boot = s.boot := rfl
@[simp] theorem setCore_retire (s : State) (n : Nat) (x : Core) : (setCore s n x).retire = s.retire := rfl
@[simp] theorem setCore_fuses (s : State) (n : Nat) (x : Core) : (setCore s n x).fuses = s.fuses := rfl
@[simp] theorem setCore_flash (s : State) (n : Nat) (x : Core) : (setCore s n x).flash = s.flash := rfl
@[simp] theorem setCore_pins (s : State) (n : Nat) (x : Core) : (setCore s n x).pins = s.pins := rfl
@[simp] theorem setCore_licences (s : State) (n : Nat) (x : Core) : (setCore s n x).licences = s.licences := rfl
@[simp] theorem setCore_dbgOpen (s : State) (n : Nat) (x : Core) : (setCore s n x).dbgOpen = s.dbgOpen := rfl

@[simp] theorem setChan_pending (s : State) (n : Nat) (x : Chan) : (setChan s n x).pending = s.pending := rfl
@[simp] theorem setChan_free (s : State) (n : Nat) (x : Chan) : (setChan s n x).free = s.free := rfl
@[simp] theorem setChan_regs (s : State) (n : Nat) (x : Chan) : (setChan s n x).regs = s.regs := rfl
@[simp] theorem setChan_mem (s : State) (n : Nat) (x : Chan) : (setChan s n x).mem = s.mem := rfl
@[simp] theorem setChan_ddrBytes (s : State) (n : Nat) (x : Chan) : (setChan s n x).ddrBytes = s.ddrBytes := rfl
@[simp] theorem setChan_clk (s : State) (n : Nat) (x : Chan) : (setChan s n x).clk = s.clk := rfl
@[simp] theorem setChan_bus (s : State) (n : Nat) (x : Chan) : (setChan s n x).bus = s.bus := rfl
@[simp] theorem setChan_latches (s : State) (n : Nat) (x : Chan) : (setChan s n x).latches = s.latches := rfl
@[simp] theorem setChan_slow (s : State) (n : Nat) (x : Chan) : (setChan s n x).slow = s.slow := rfl
@[simp] theorem setChan_resetting (s : State) (n : Nat) (x : Chan) : (setChan s n x).resetting = s.resetting := rfl
@[simp] theorem setChan_moves (s : State) (n : Nat) (x : Chan) : (setChan s n x).moves = s.moves := rfl
@[simp] theorem setChan_leaving (s : State) (n : Nat) (x : Chan) : (setChan s n x).leaving = s.leaving := rfl
@[simp] theorem setChan_endsTaken (s : State) (n : Nat) (x : Chan) : (setChan s n x).endsTaken = s.endsTaken := rfl
@[simp] theorem setChan_buses (s : State) (n : Nat) (x : Chan) : (setChan s n x).buses = s.buses := rfl
@[simp] theorem setChan_ports (s : State) (n : Nat) (x : Chan) : (setChan s n x).ports = s.ports := rfl
@[simp] theorem setChan_banks (s : State) (n : Nat) (x : Chan) : (setChan s n x).banks = s.banks := rfl
@[simp] theorem setChan_plates (s : State) (n : Nat) (x : Chan) : (setChan s n x).plates = s.plates := rfl
@[simp] theorem setChan_plPend (s : State) (n : Nat) (x : Chan) : (setChan s n x).plPend = s.plPend := rfl
@[simp] theorem setChan_plLatch (s : State) (n : Nat) (x : Chan) : (setChan s n x).plLatch = s.plLatch := rfl
@[simp] theorem setChan_clPend (s : State) (n : Nat) (x : Chan) : (setChan s n x).clPend = s.clPend := rfl
@[simp] theorem setChan_clLatch (s : State) (n : Nat) (x : Chan) : (setChan s n x).clLatch = s.clLatch := rfl
@[simp] theorem setChan_colours (s : State) (n : Nat) (x : Chan) : (setChan s n x).colours = s.colours := rfl
@[simp] theorem setChan_streams (s : State) (n : Nat) (x : Chan) : (setChan s n x).streams = s.streams := rfl
@[simp] theorem setChan_tiles (s : State) (n : Nat) (x : Chan) : (setChan s n x).tiles = s.tiles := rfl
@[simp] theorem setChan_cores (s : State) (n : Nat) (x : Chan) : (setChan s n x).cores = s.cores := rfl
@[simp] theorem setChan_turn (s : State) (n : Nat) (x : Chan) : (setChan s n x).turn = s.turn := rfl
@[simp] theorem setChan_pulses (s : State) (n : Nat) (x : Chan) : (setChan s n x).pulses = s.pulses := rfl
@[simp] theorem setChan_bru (s : State) (n : Nat) (x : Chan) : (setChan s n x).bru = s.bru := rfl
@[simp] theorem setChan_flags (s : State) (n : Nat) (x : Chan) : (setChan s n x).flags = s.flags := rfl
@[simp] theorem setChan_groups (s : State) (n : Nat) (x : Chan) : (setChan s n x).groups = s.groups := rfl
@[simp] theorem setChan_waits (s : State) (n : Nat) (x : Chan) : (setChan s n x).waits = s.waits := rfl
@[simp] theorem setChan_updates (s : State) (n : Nat) (x : Chan) : (setChan s n x).updates = s.updates := rfl
@[simp] theorem setChan_checks (s : State) (n : Nat) (x : Chan) : (setChan s n x).checks = s.checks := rfl
@[simp] theorem setChan_slots (s : State) (n : Nat) (x : Chan) : (setChan s n x).slots = s.slots := rfl
@[simp] theorem setChan_queues (s : State) (n : Nat) (x : Chan) : (setChan s n x).queues = s.queues := rfl
@[simp] theorem setChan_granules (s : State) (n : Nat) (x : Chan) : (setChan s n x).granules = s.granules := rfl
@[simp] theorem setChan_shm (s : State) (n : Nat) (x : Chan) : (setChan s n x).shm = s.shm := rfl
@[simp] theorem setChan_ddr (s : State) (n : Nat) (x : Chan) : (setChan s n x).ddr = s.ddr := rfl
@[simp] theorem setChan_poison (s : State) (n : Nat) (x : Chan) : (setChan s n x).poison = s.poison := rfl
@[simp] theorem setChan_shmOff (s : State) (n : Nat) (x : Chan) : (setChan s n x).shmOff = s.shmOff := rfl
@[simp] theorem setChan_inval (s : State) (n : Nat) (x : Chan) : (setChan s n x).inval = s.inval := rfl
@[simp] theorem setChan_fc (s : State) (n : Nat) (x : Chan) : (setChan s n x).fc = s.fc := rfl
@[simp] theorem setChan_host (s : State) (n : Nat) (x : Chan) : (setChan s n x).host = s.host := rfl
@[simp] theorem setChan_sent (s : State) (n : Nat) (x : Chan) : (setChan s n x).sent = s.sent := rfl
@[simp] theorem setChan_bridge (s : State) (n : Nat) (x : Chan) : (setChan s n x).bridge = s.bridge := rfl
@[simp] theorem setChan_smi (s : State) (n : Nat) (x : Chan) : (setChan s n x).smi = s.smi := rfl
@[simp] theorem setChan_power (s : State) (n : Nat) (x : Chan) : (setChan s n x).power = s.power := rfl
@[simp] theorem setChan_boot (s : State) (n : Nat) (x : Chan) : (setChan s n x).boot = s.boot := rfl
@[simp] theorem setChan_retire (s : State) (n : Nat) (x : Chan) : (setChan s n x).retire = s.retire := rfl
@[simp] theorem setChan_fuses (s : State) (n : Nat) (x : Chan) : (setChan s n x).fuses = s.fuses := rfl
@[simp] theorem setChan_flash (s : State) (n : Nat) (x : Chan) : (setChan s n x).flash = s.flash := rfl
@[simp] theorem setChan_pins (s : State) (n : Nat) (x : Chan) : (setChan s n x).pins = s.pins := rfl
@[simp] theorem setChan_licences (s : State) (n : Nat) (x : Chan) : (setChan s n x).licences = s.licences := rfl
@[simp] theorem setChan_dbgOpen (s : State) (n : Nat) (x : Chan) : (setChan s n x).dbgOpen = s.dbgOpen := rfl

@[simp] theorem setBank_pending (s : State) (p k : Nat) (x : Bank) : (setBank s p k x).pending = s.pending := rfl
@[simp] theorem setBank_free (s : State) (p k : Nat) (x : Bank) : (setBank s p k x).free = s.free := rfl
@[simp] theorem setBank_regs (s : State) (p k : Nat) (x : Bank) : (setBank s p k x).regs = s.regs := rfl
@[simp] theorem setBank_mem (s : State) (p k : Nat) (x : Bank) : (setBank s p k x).mem = s.mem := rfl
@[simp] theorem setBank_ddrBytes (s : State) (p k : Nat) (x : Bank) : (setBank s p k x).ddrBytes = s.ddrBytes := rfl
@[simp] theorem setBank_clk (s : State) (p k : Nat) (x : Bank) : (setBank s p k x).clk = s.clk := rfl
@[simp] theorem setBank_bus (s : State) (p k : Nat) (x : Bank) : (setBank s p k x).bus = s.bus := rfl
@[simp] theorem setBank_latches (s : State) (p k : Nat) (x : Bank) : (setBank s p k x).latches = s.latches := rfl
@[simp] theorem setBank_slow (s : State) (p k : Nat) (x : Bank) : (setBank s p k x).slow = s.slow := rfl
@[simp] theorem setBank_resetting (s : State) (p k : Nat) (x : Bank) : (setBank s p k x).resetting = s.resetting := rfl
@[simp] theorem setBank_moves (s : State) (p k : Nat) (x : Bank) : (setBank s p k x).moves = s.moves := rfl
@[simp] theorem setBank_leaving (s : State) (p k : Nat) (x : Bank) : (setBank s p k x).leaving = s.leaving := rfl
@[simp] theorem setBank_endsTaken (s : State) (p k : Nat) (x : Bank) : (setBank s p k x).endsTaken = s.endsTaken := rfl
@[simp] theorem setBank_buses (s : State) (p k : Nat) (x : Bank) : (setBank s p k x).buses = s.buses := rfl
@[simp] theorem setBank_ports (s : State) (p k : Nat) (x : Bank) : (setBank s p k x).ports = s.ports := rfl
@[simp] theorem setBank_plates (s : State) (p k : Nat) (x : Bank) : (setBank s p k x).plates = s.plates := rfl
@[simp] theorem setBank_plPend (s : State) (p k : Nat) (x : Bank) : (setBank s p k x).plPend = s.plPend := rfl
@[simp] theorem setBank_plLatch (s : State) (p k : Nat) (x : Bank) : (setBank s p k x).plLatch = s.plLatch := rfl
@[simp] theorem setBank_clPend (s : State) (p k : Nat) (x : Bank) : (setBank s p k x).clPend = s.clPend := rfl
@[simp] theorem setBank_clLatch (s : State) (p k : Nat) (x : Bank) : (setBank s p k x).clLatch = s.clLatch := rfl
@[simp] theorem setBank_colours (s : State) (p k : Nat) (x : Bank) : (setBank s p k x).colours = s.colours := rfl
@[simp] theorem setBank_streams (s : State) (p k : Nat) (x : Bank) : (setBank s p k x).streams = s.streams := rfl
@[simp] theorem setBank_tiles (s : State) (p k : Nat) (x : Bank) : (setBank s p k x).tiles = s.tiles := rfl
@[simp] theorem setBank_cores (s : State) (p k : Nat) (x : Bank) : (setBank s p k x).cores = s.cores := rfl
@[simp] theorem setBank_chans (s : State) (p k : Nat) (x : Bank) : (setBank s p k x).chans = s.chans := rfl
@[simp] theorem setBank_turn (s : State) (p k : Nat) (x : Bank) : (setBank s p k x).turn = s.turn := rfl
@[simp] theorem setBank_pulses (s : State) (p k : Nat) (x : Bank) : (setBank s p k x).pulses = s.pulses := rfl
@[simp] theorem setBank_bru (s : State) (p k : Nat) (x : Bank) : (setBank s p k x).bru = s.bru := rfl
@[simp] theorem setBank_flags (s : State) (p k : Nat) (x : Bank) : (setBank s p k x).flags = s.flags := rfl
@[simp] theorem setBank_groups (s : State) (p k : Nat) (x : Bank) : (setBank s p k x).groups = s.groups := rfl
@[simp] theorem setBank_waits (s : State) (p k : Nat) (x : Bank) : (setBank s p k x).waits = s.waits := rfl
@[simp] theorem setBank_updates (s : State) (p k : Nat) (x : Bank) : (setBank s p k x).updates = s.updates := rfl
@[simp] theorem setBank_checks (s : State) (p k : Nat) (x : Bank) : (setBank s p k x).checks = s.checks := rfl
@[simp] theorem setBank_slots (s : State) (p k : Nat) (x : Bank) : (setBank s p k x).slots = s.slots := rfl
@[simp] theorem setBank_queues (s : State) (p k : Nat) (x : Bank) : (setBank s p k x).queues = s.queues := rfl
@[simp] theorem setBank_granules (s : State) (p k : Nat) (x : Bank) : (setBank s p k x).granules = s.granules := rfl
@[simp] theorem setBank_shm (s : State) (p k : Nat) (x : Bank) : (setBank s p k x).shm = s.shm := rfl
@[simp] theorem setBank_ddr (s : State) (p k : Nat) (x : Bank) : (setBank s p k x).ddr = s.ddr := rfl
@[simp] theorem setBank_poison (s : State) (p k : Nat) (x : Bank) : (setBank s p k x).poison = s.poison := rfl
@[simp] theorem setBank_shmOff (s : State) (p k : Nat) (x : Bank) : (setBank s p k x).shmOff = s.shmOff := rfl
@[simp] theorem setBank_inval (s : State) (p k : Nat) (x : Bank) : (setBank s p k x).inval = s.inval := rfl
@[simp] theorem setBank_fc (s : State) (p k : Nat) (x : Bank) : (setBank s p k x).fc = s.fc := rfl
@[simp] theorem setBank_host (s : State) (p k : Nat) (x : Bank) : (setBank s p k x).host = s.host := rfl
@[simp] theorem setBank_sent (s : State) (p k : Nat) (x : Bank) : (setBank s p k x).sent = s.sent := rfl
@[simp] theorem setBank_bridge (s : State) (p k : Nat) (x : Bank) : (setBank s p k x).bridge = s.bridge := rfl
@[simp] theorem setBank_smi (s : State) (p k : Nat) (x : Bank) : (setBank s p k x).smi = s.smi := rfl
@[simp] theorem setBank_power (s : State) (p k : Nat) (x : Bank) : (setBank s p k x).power = s.power := rfl
@[simp] theorem setBank_boot (s : State) (p k : Nat) (x : Bank) : (setBank s p k x).boot = s.boot := rfl
@[simp] theorem setBank_retire (s : State) (p k : Nat) (x : Bank) : (setBank s p k x).retire = s.retire := rfl
@[simp] theorem setBank_fuses (s : State) (p k : Nat) (x : Bank) : (setBank s p k x).fuses = s.fuses := rfl
@[simp] theorem setBank_flash (s : State) (p k : Nat) (x : Bank) : (setBank s p k x).flash = s.flash := rfl
@[simp] theorem setBank_pins (s : State) (p k : Nat) (x : Bank) : (setBank s p k x).pins = s.pins := rfl
@[simp] theorem setBank_licences (s : State) (p k : Nat) (x : Bank) : (setBank s p k x).licences = s.licences := rfl
@[simp] theorem setBank_dbgOpen (s : State) (p k : Nat) (x : Bank) : (setBank s p k x).dbgOpen = s.dbgOpen := rfl

@[simp] theorem setStream_pending (s : State) (n : Nat) (x : Option Stream) : (setStream s n x).pending = s.pending := rfl
@[simp] theorem setStream_free (s : State) (n : Nat) (x : Option Stream) : (setStream s n x).free = s.free := rfl
@[simp] theorem setStream_regs (s : State) (n : Nat) (x : Option Stream) : (setStream s n x).regs = s.regs := rfl
@[simp] theorem setStream_mem (s : State) (n : Nat) (x : Option Stream) : (setStream s n x).mem = s.mem := rfl
@[simp] theorem setStream_ddrBytes (s : State) (n : Nat) (x : Option Stream) : (setStream s n x).ddrBytes = s.ddrBytes := rfl
@[simp] theorem setStream_clk (s : State) (n : Nat) (x : Option Stream) : (setStream s n x).clk = s.clk := rfl
@[simp] theorem setStream_bus (s : State) (n : Nat) (x : Option Stream) : (setStream s n x).bus = s.bus := rfl
@[simp] theorem setStream_latches (s : State) (n : Nat) (x : Option Stream) : (setStream s n x).latches = s.latches := rfl
@[simp] theorem setStream_slow (s : State) (n : Nat) (x : Option Stream) : (setStream s n x).slow = s.slow := rfl
@[simp] theorem setStream_resetting (s : State) (n : Nat) (x : Option Stream) : (setStream s n x).resetting = s.resetting := rfl
@[simp] theorem setStream_moves (s : State) (n : Nat) (x : Option Stream) : (setStream s n x).moves = s.moves := rfl
@[simp] theorem setStream_leaving (s : State) (n : Nat) (x : Option Stream) : (setStream s n x).leaving = s.leaving := rfl
@[simp] theorem setStream_endsTaken (s : State) (n : Nat) (x : Option Stream) : (setStream s n x).endsTaken = s.endsTaken := rfl
@[simp] theorem setStream_buses (s : State) (n : Nat) (x : Option Stream) : (setStream s n x).buses = s.buses := rfl
@[simp] theorem setStream_ports (s : State) (n : Nat) (x : Option Stream) : (setStream s n x).ports = s.ports := rfl
@[simp] theorem setStream_banks (s : State) (n : Nat) (x : Option Stream) : (setStream s n x).banks = s.banks := rfl
@[simp] theorem setStream_plates (s : State) (n : Nat) (x : Option Stream) : (setStream s n x).plates = s.plates := rfl
@[simp] theorem setStream_plPend (s : State) (n : Nat) (x : Option Stream) : (setStream s n x).plPend = s.plPend := rfl
@[simp] theorem setStream_plLatch (s : State) (n : Nat) (x : Option Stream) : (setStream s n x).plLatch = s.plLatch := rfl
@[simp] theorem setStream_clPend (s : State) (n : Nat) (x : Option Stream) : (setStream s n x).clPend = s.clPend := rfl
@[simp] theorem setStream_clLatch (s : State) (n : Nat) (x : Option Stream) : (setStream s n x).clLatch = s.clLatch := rfl
@[simp] theorem setStream_colours (s : State) (n : Nat) (x : Option Stream) : (setStream s n x).colours = s.colours := rfl
@[simp] theorem setStream_tiles (s : State) (n : Nat) (x : Option Stream) : (setStream s n x).tiles = s.tiles := rfl
@[simp] theorem setStream_cores (s : State) (n : Nat) (x : Option Stream) : (setStream s n x).cores = s.cores := rfl
@[simp] theorem setStream_chans (s : State) (n : Nat) (x : Option Stream) : (setStream s n x).chans = s.chans := rfl
@[simp] theorem setStream_turn (s : State) (n : Nat) (x : Option Stream) : (setStream s n x).turn = s.turn := rfl
@[simp] theorem setStream_pulses (s : State) (n : Nat) (x : Option Stream) : (setStream s n x).pulses = s.pulses := rfl
@[simp] theorem setStream_bru (s : State) (n : Nat) (x : Option Stream) : (setStream s n x).bru = s.bru := rfl
@[simp] theorem setStream_flags (s : State) (n : Nat) (x : Option Stream) : (setStream s n x).flags = s.flags := rfl
@[simp] theorem setStream_groups (s : State) (n : Nat) (x : Option Stream) : (setStream s n x).groups = s.groups := rfl
@[simp] theorem setStream_waits (s : State) (n : Nat) (x : Option Stream) : (setStream s n x).waits = s.waits := rfl
@[simp] theorem setStream_updates (s : State) (n : Nat) (x : Option Stream) : (setStream s n x).updates = s.updates := rfl
@[simp] theorem setStream_checks (s : State) (n : Nat) (x : Option Stream) : (setStream s n x).checks = s.checks := rfl
@[simp] theorem setStream_slots (s : State) (n : Nat) (x : Option Stream) : (setStream s n x).slots = s.slots := rfl
@[simp] theorem setStream_queues (s : State) (n : Nat) (x : Option Stream) : (setStream s n x).queues = s.queues := rfl
@[simp] theorem setStream_granules (s : State) (n : Nat) (x : Option Stream) : (setStream s n x).granules = s.granules := rfl
@[simp] theorem setStream_shm (s : State) (n : Nat) (x : Option Stream) : (setStream s n x).shm = s.shm := rfl
@[simp] theorem setStream_ddr (s : State) (n : Nat) (x : Option Stream) : (setStream s n x).ddr = s.ddr := rfl
@[simp] theorem setStream_poison (s : State) (n : Nat) (x : Option Stream) : (setStream s n x).poison = s.poison := rfl
@[simp] theorem setStream_shmOff (s : State) (n : Nat) (x : Option Stream) : (setStream s n x).shmOff = s.shmOff := rfl
@[simp] theorem setStream_inval (s : State) (n : Nat) (x : Option Stream) : (setStream s n x).inval = s.inval := rfl
@[simp] theorem setStream_fc (s : State) (n : Nat) (x : Option Stream) : (setStream s n x).fc = s.fc := rfl
@[simp] theorem setStream_host (s : State) (n : Nat) (x : Option Stream) : (setStream s n x).host = s.host := rfl
@[simp] theorem setStream_sent (s : State) (n : Nat) (x : Option Stream) : (setStream s n x).sent = s.sent := rfl
@[simp] theorem setStream_bridge (s : State) (n : Nat) (x : Option Stream) : (setStream s n x).bridge = s.bridge := rfl
@[simp] theorem setStream_smi (s : State) (n : Nat) (x : Option Stream) : (setStream s n x).smi = s.smi := rfl
@[simp] theorem setStream_power (s : State) (n : Nat) (x : Option Stream) : (setStream s n x).power = s.power := rfl
@[simp] theorem setStream_boot (s : State) (n : Nat) (x : Option Stream) : (setStream s n x).boot = s.boot := rfl
@[simp] theorem setStream_retire (s : State) (n : Nat) (x : Option Stream) : (setStream s n x).retire = s.retire := rfl
@[simp] theorem setStream_fuses (s : State) (n : Nat) (x : Option Stream) : (setStream s n x).fuses = s.fuses := rfl
@[simp] theorem setStream_flash (s : State) (n : Nat) (x : Option Stream) : (setStream s n x).flash = s.flash := rfl
@[simp] theorem setStream_pins (s : State) (n : Nat) (x : Option Stream) : (setStream s n x).pins = s.pins := rfl
@[simp] theorem setStream_licences (s : State) (n : Nat) (x : Option Stream) : (setStream s n x).licences = s.licences := rfl
@[simp] theorem setStream_dbgOpen (s : State) (n : Nat) (x : Option Stream) : (setStream s n x).dbgOpen = s.dbgOpen := rfl

@[simp] theorem setBruSlot_pending (s : State) (j : Nat) (x : BruSlot) : (setBruSlot s j x).pending = s.pending := rfl
@[simp] theorem setBruSlot_free (s : State) (j : Nat) (x : BruSlot) : (setBruSlot s j x).free = s.free := rfl
@[simp] theorem setBruSlot_regs (s : State) (j : Nat) (x : BruSlot) : (setBruSlot s j x).regs = s.regs := rfl
@[simp] theorem setBruSlot_mem (s : State) (j : Nat) (x : BruSlot) : (setBruSlot s j x).mem = s.mem := rfl
@[simp] theorem setBruSlot_ddrBytes (s : State) (j : Nat) (x : BruSlot) : (setBruSlot s j x).ddrBytes = s.ddrBytes := rfl
@[simp] theorem setBruSlot_clk (s : State) (j : Nat) (x : BruSlot) : (setBruSlot s j x).clk = s.clk := rfl
@[simp] theorem setBruSlot_bus (s : State) (j : Nat) (x : BruSlot) : (setBruSlot s j x).bus = s.bus := rfl
@[simp] theorem setBruSlot_latches (s : State) (j : Nat) (x : BruSlot) : (setBruSlot s j x).latches = s.latches := rfl
@[simp] theorem setBruSlot_slow (s : State) (j : Nat) (x : BruSlot) : (setBruSlot s j x).slow = s.slow := rfl
@[simp] theorem setBruSlot_resetting (s : State) (j : Nat) (x : BruSlot) : (setBruSlot s j x).resetting = s.resetting := rfl
@[simp] theorem setBruSlot_moves (s : State) (j : Nat) (x : BruSlot) : (setBruSlot s j x).moves = s.moves := rfl
@[simp] theorem setBruSlot_leaving (s : State) (j : Nat) (x : BruSlot) : (setBruSlot s j x).leaving = s.leaving := rfl
@[simp] theorem setBruSlot_endsTaken (s : State) (j : Nat) (x : BruSlot) : (setBruSlot s j x).endsTaken = s.endsTaken := rfl
@[simp] theorem setBruSlot_buses (s : State) (j : Nat) (x : BruSlot) : (setBruSlot s j x).buses = s.buses := rfl
@[simp] theorem setBruSlot_ports (s : State) (j : Nat) (x : BruSlot) : (setBruSlot s j x).ports = s.ports := rfl
@[simp] theorem setBruSlot_banks (s : State) (j : Nat) (x : BruSlot) : (setBruSlot s j x).banks = s.banks := rfl
@[simp] theorem setBruSlot_plates (s : State) (j : Nat) (x : BruSlot) : (setBruSlot s j x).plates = s.plates := rfl
@[simp] theorem setBruSlot_plPend (s : State) (j : Nat) (x : BruSlot) : (setBruSlot s j x).plPend = s.plPend := rfl
@[simp] theorem setBruSlot_plLatch (s : State) (j : Nat) (x : BruSlot) : (setBruSlot s j x).plLatch = s.plLatch := rfl
@[simp] theorem setBruSlot_clPend (s : State) (j : Nat) (x : BruSlot) : (setBruSlot s j x).clPend = s.clPend := rfl
@[simp] theorem setBruSlot_clLatch (s : State) (j : Nat) (x : BruSlot) : (setBruSlot s j x).clLatch = s.clLatch := rfl
@[simp] theorem setBruSlot_colours (s : State) (j : Nat) (x : BruSlot) : (setBruSlot s j x).colours = s.colours := rfl
@[simp] theorem setBruSlot_streams (s : State) (j : Nat) (x : BruSlot) : (setBruSlot s j x).streams = s.streams := rfl
@[simp] theorem setBruSlot_tiles (s : State) (j : Nat) (x : BruSlot) : (setBruSlot s j x).tiles = s.tiles := rfl
@[simp] theorem setBruSlot_cores (s : State) (j : Nat) (x : BruSlot) : (setBruSlot s j x).cores = s.cores := rfl
@[simp] theorem setBruSlot_chans (s : State) (j : Nat) (x : BruSlot) : (setBruSlot s j x).chans = s.chans := rfl
@[simp] theorem setBruSlot_turn (s : State) (j : Nat) (x : BruSlot) : (setBruSlot s j x).turn = s.turn := rfl
@[simp] theorem setBruSlot_pulses (s : State) (j : Nat) (x : BruSlot) : (setBruSlot s j x).pulses = s.pulses := rfl
@[simp] theorem setBruSlot_flags (s : State) (j : Nat) (x : BruSlot) : (setBruSlot s j x).flags = s.flags := rfl
@[simp] theorem setBruSlot_groups (s : State) (j : Nat) (x : BruSlot) : (setBruSlot s j x).groups = s.groups := rfl
@[simp] theorem setBruSlot_waits (s : State) (j : Nat) (x : BruSlot) : (setBruSlot s j x).waits = s.waits := rfl
@[simp] theorem setBruSlot_updates (s : State) (j : Nat) (x : BruSlot) : (setBruSlot s j x).updates = s.updates := rfl
@[simp] theorem setBruSlot_checks (s : State) (j : Nat) (x : BruSlot) : (setBruSlot s j x).checks = s.checks := rfl
@[simp] theorem setBruSlot_slots (s : State) (j : Nat) (x : BruSlot) : (setBruSlot s j x).slots = s.slots := rfl
@[simp] theorem setBruSlot_queues (s : State) (j : Nat) (x : BruSlot) : (setBruSlot s j x).queues = s.queues := rfl
@[simp] theorem setBruSlot_granules (s : State) (j : Nat) (x : BruSlot) : (setBruSlot s j x).granules = s.granules := rfl
@[simp] theorem setBruSlot_shm (s : State) (j : Nat) (x : BruSlot) : (setBruSlot s j x).shm = s.shm := rfl
@[simp] theorem setBruSlot_ddr (s : State) (j : Nat) (x : BruSlot) : (setBruSlot s j x).ddr = s.ddr := rfl
@[simp] theorem setBruSlot_poison (s : State) (j : Nat) (x : BruSlot) : (setBruSlot s j x).poison = s.poison := rfl
@[simp] theorem setBruSlot_shmOff (s : State) (j : Nat) (x : BruSlot) : (setBruSlot s j x).shmOff = s.shmOff := rfl
@[simp] theorem setBruSlot_inval (s : State) (j : Nat) (x : BruSlot) : (setBruSlot s j x).inval = s.inval := rfl
@[simp] theorem setBruSlot_fc (s : State) (j : Nat) (x : BruSlot) : (setBruSlot s j x).fc = s.fc := rfl
@[simp] theorem setBruSlot_host (s : State) (j : Nat) (x : BruSlot) : (setBruSlot s j x).host = s.host := rfl
@[simp] theorem setBruSlot_sent (s : State) (j : Nat) (x : BruSlot) : (setBruSlot s j x).sent = s.sent := rfl
@[simp] theorem setBruSlot_bridge (s : State) (j : Nat) (x : BruSlot) : (setBruSlot s j x).bridge = s.bridge := rfl
@[simp] theorem setBruSlot_smi (s : State) (j : Nat) (x : BruSlot) : (setBruSlot s j x).smi = s.smi := rfl
@[simp] theorem setBruSlot_power (s : State) (j : Nat) (x : BruSlot) : (setBruSlot s j x).power = s.power := rfl
@[simp] theorem setBruSlot_boot (s : State) (j : Nat) (x : BruSlot) : (setBruSlot s j x).boot = s.boot := rfl
@[simp] theorem setBruSlot_retire (s : State) (j : Nat) (x : BruSlot) : (setBruSlot s j x).retire = s.retire := rfl
@[simp] theorem setBruSlot_fuses (s : State) (j : Nat) (x : BruSlot) : (setBruSlot s j x).fuses = s.fuses := rfl
@[simp] theorem setBruSlot_flash (s : State) (j : Nat) (x : BruSlot) : (setBruSlot s j x).flash = s.flash := rfl
@[simp] theorem setBruSlot_pins (s : State) (j : Nat) (x : BruSlot) : (setBruSlot s j x).pins = s.pins := rfl
@[simp] theorem setBruSlot_licences (s : State) (j : Nat) (x : BruSlot) : (setBruSlot s j x).licences = s.licences := rfl
@[simp] theorem setBruSlot_dbgOpen (s : State) (j : Nat) (x : BruSlot) : (setBruSlot s j x).dbgOpen = s.dbgOpen := rfl

@[simp] theorem setQueue_pending (s : State) (q : Nat) (x : Queue) : (setQueue s q x).pending = s.pending := rfl
@[simp] theorem setQueue_free (s : State) (q : Nat) (x : Queue) : (setQueue s q x).free = s.free := rfl
@[simp] theorem setQueue_regs (s : State) (q : Nat) (x : Queue) : (setQueue s q x).regs = s.regs := rfl
@[simp] theorem setQueue_mem (s : State) (q : Nat) (x : Queue) : (setQueue s q x).mem = s.mem := rfl
@[simp] theorem setQueue_ddrBytes (s : State) (q : Nat) (x : Queue) : (setQueue s q x).ddrBytes = s.ddrBytes := rfl
@[simp] theorem setQueue_clk (s : State) (q : Nat) (x : Queue) : (setQueue s q x).clk = s.clk := rfl
@[simp] theorem setQueue_bus (s : State) (q : Nat) (x : Queue) : (setQueue s q x).bus = s.bus := rfl
@[simp] theorem setQueue_latches (s : State) (q : Nat) (x : Queue) : (setQueue s q x).latches = s.latches := rfl
@[simp] theorem setQueue_slow (s : State) (q : Nat) (x : Queue) : (setQueue s q x).slow = s.slow := rfl
@[simp] theorem setQueue_resetting (s : State) (q : Nat) (x : Queue) : (setQueue s q x).resetting = s.resetting := rfl
@[simp] theorem setQueue_moves (s : State) (q : Nat) (x : Queue) : (setQueue s q x).moves = s.moves := rfl
@[simp] theorem setQueue_leaving (s : State) (q : Nat) (x : Queue) : (setQueue s q x).leaving = s.leaving := rfl
@[simp] theorem setQueue_endsTaken (s : State) (q : Nat) (x : Queue) : (setQueue s q x).endsTaken = s.endsTaken := rfl
@[simp] theorem setQueue_buses (s : State) (q : Nat) (x : Queue) : (setQueue s q x).buses = s.buses := rfl
@[simp] theorem setQueue_ports (s : State) (q : Nat) (x : Queue) : (setQueue s q x).ports = s.ports := rfl
@[simp] theorem setQueue_banks (s : State) (q : Nat) (x : Queue) : (setQueue s q x).banks = s.banks := rfl
@[simp] theorem setQueue_plates (s : State) (q : Nat) (x : Queue) : (setQueue s q x).plates = s.plates := rfl
@[simp] theorem setQueue_plPend (s : State) (q : Nat) (x : Queue) : (setQueue s q x).plPend = s.plPend := rfl
@[simp] theorem setQueue_plLatch (s : State) (q : Nat) (x : Queue) : (setQueue s q x).plLatch = s.plLatch := rfl
@[simp] theorem setQueue_clPend (s : State) (q : Nat) (x : Queue) : (setQueue s q x).clPend = s.clPend := rfl
@[simp] theorem setQueue_clLatch (s : State) (q : Nat) (x : Queue) : (setQueue s q x).clLatch = s.clLatch := rfl
@[simp] theorem setQueue_colours (s : State) (q : Nat) (x : Queue) : (setQueue s q x).colours = s.colours := rfl
@[simp] theorem setQueue_streams (s : State) (q : Nat) (x : Queue) : (setQueue s q x).streams = s.streams := rfl
@[simp] theorem setQueue_tiles (s : State) (q : Nat) (x : Queue) : (setQueue s q x).tiles = s.tiles := rfl
@[simp] theorem setQueue_cores (s : State) (q : Nat) (x : Queue) : (setQueue s q x).cores = s.cores := rfl
@[simp] theorem setQueue_chans (s : State) (q : Nat) (x : Queue) : (setQueue s q x).chans = s.chans := rfl
@[simp] theorem setQueue_turn (s : State) (q : Nat) (x : Queue) : (setQueue s q x).turn = s.turn := rfl
@[simp] theorem setQueue_pulses (s : State) (q : Nat) (x : Queue) : (setQueue s q x).pulses = s.pulses := rfl
@[simp] theorem setQueue_bru (s : State) (q : Nat) (x : Queue) : (setQueue s q x).bru = s.bru := rfl
@[simp] theorem setQueue_flags (s : State) (q : Nat) (x : Queue) : (setQueue s q x).flags = s.flags := rfl
@[simp] theorem setQueue_groups (s : State) (q : Nat) (x : Queue) : (setQueue s q x).groups = s.groups := rfl
@[simp] theorem setQueue_waits (s : State) (q : Nat) (x : Queue) : (setQueue s q x).waits = s.waits := rfl
@[simp] theorem setQueue_updates (s : State) (q : Nat) (x : Queue) : (setQueue s q x).updates = s.updates := rfl
@[simp] theorem setQueue_checks (s : State) (q : Nat) (x : Queue) : (setQueue s q x).checks = s.checks := rfl
@[simp] theorem setQueue_slots (s : State) (q : Nat) (x : Queue) : (setQueue s q x).slots = s.slots := rfl
@[simp] theorem setQueue_granules (s : State) (q : Nat) (x : Queue) : (setQueue s q x).granules = s.granules := rfl
@[simp] theorem setQueue_shm (s : State) (q : Nat) (x : Queue) : (setQueue s q x).shm = s.shm := rfl
@[simp] theorem setQueue_ddr (s : State) (q : Nat) (x : Queue) : (setQueue s q x).ddr = s.ddr := rfl
@[simp] theorem setQueue_poison (s : State) (q : Nat) (x : Queue) : (setQueue s q x).poison = s.poison := rfl
@[simp] theorem setQueue_shmOff (s : State) (q : Nat) (x : Queue) : (setQueue s q x).shmOff = s.shmOff := rfl
@[simp] theorem setQueue_inval (s : State) (q : Nat) (x : Queue) : (setQueue s q x).inval = s.inval := rfl
@[simp] theorem setQueue_fc (s : State) (q : Nat) (x : Queue) : (setQueue s q x).fc = s.fc := rfl
@[simp] theorem setQueue_host (s : State) (q : Nat) (x : Queue) : (setQueue s q x).host = s.host := rfl
@[simp] theorem setQueue_sent (s : State) (q : Nat) (x : Queue) : (setQueue s q x).sent = s.sent := rfl
@[simp] theorem setQueue_bridge (s : State) (q : Nat) (x : Queue) : (setQueue s q x).bridge = s.bridge := rfl
@[simp] theorem setQueue_smi (s : State) (q : Nat) (x : Queue) : (setQueue s q x).smi = s.smi := rfl
@[simp] theorem setQueue_power (s : State) (q : Nat) (x : Queue) : (setQueue s q x).power = s.power := rfl
@[simp] theorem setQueue_boot (s : State) (q : Nat) (x : Queue) : (setQueue s q x).boot = s.boot := rfl
@[simp] theorem setQueue_retire (s : State) (q : Nat) (x : Queue) : (setQueue s q x).retire = s.retire := rfl
@[simp] theorem setQueue_fuses (s : State) (q : Nat) (x : Queue) : (setQueue s q x).fuses = s.fuses := rfl
@[simp] theorem setQueue_flash (s : State) (q : Nat) (x : Queue) : (setQueue s q x).flash = s.flash := rfl
@[simp] theorem setQueue_pins (s : State) (q : Nat) (x : Queue) : (setQueue s q x).pins = s.pins := rfl
@[simp] theorem setQueue_licences (s : State) (q : Nat) (x : Queue) : (setQueue s q x).licences = s.licences := rfl
@[simp] theorem setQueue_dbgOpen (s : State) (q : Nat) (x : Queue) : (setQueue s q x).dbgOpen = s.dbgOpen := rfl

@[simp] theorem setSlot_pending (s : State) (i : Nat) (x : Slot) : (setSlot s i x).pending = s.pending := rfl
@[simp] theorem setSlot_free (s : State) (i : Nat) (x : Slot) : (setSlot s i x).free = s.free := rfl
@[simp] theorem setSlot_regs (s : State) (i : Nat) (x : Slot) : (setSlot s i x).regs = s.regs := rfl
@[simp] theorem setSlot_mem (s : State) (i : Nat) (x : Slot) : (setSlot s i x).mem = s.mem := rfl
@[simp] theorem setSlot_ddrBytes (s : State) (i : Nat) (x : Slot) : (setSlot s i x).ddrBytes = s.ddrBytes := rfl
@[simp] theorem setSlot_clk (s : State) (i : Nat) (x : Slot) : (setSlot s i x).clk = s.clk := rfl
@[simp] theorem setSlot_bus (s : State) (i : Nat) (x : Slot) : (setSlot s i x).bus = s.bus := rfl
@[simp] theorem setSlot_latches (s : State) (i : Nat) (x : Slot) : (setSlot s i x).latches = s.latches := rfl
@[simp] theorem setSlot_slow (s : State) (i : Nat) (x : Slot) : (setSlot s i x).slow = s.slow := rfl
@[simp] theorem setSlot_resetting (s : State) (i : Nat) (x : Slot) : (setSlot s i x).resetting = s.resetting := rfl
@[simp] theorem setSlot_moves (s : State) (i : Nat) (x : Slot) : (setSlot s i x).moves = s.moves := rfl
@[simp] theorem setSlot_leaving (s : State) (i : Nat) (x : Slot) : (setSlot s i x).leaving = s.leaving := rfl
@[simp] theorem setSlot_endsTaken (s : State) (i : Nat) (x : Slot) : (setSlot s i x).endsTaken = s.endsTaken := rfl
@[simp] theorem setSlot_buses (s : State) (i : Nat) (x : Slot) : (setSlot s i x).buses = s.buses := rfl
@[simp] theorem setSlot_ports (s : State) (i : Nat) (x : Slot) : (setSlot s i x).ports = s.ports := rfl
@[simp] theorem setSlot_banks (s : State) (i : Nat) (x : Slot) : (setSlot s i x).banks = s.banks := rfl
@[simp] theorem setSlot_plates (s : State) (i : Nat) (x : Slot) : (setSlot s i x).plates = s.plates := rfl
@[simp] theorem setSlot_plPend (s : State) (i : Nat) (x : Slot) : (setSlot s i x).plPend = s.plPend := rfl
@[simp] theorem setSlot_plLatch (s : State) (i : Nat) (x : Slot) : (setSlot s i x).plLatch = s.plLatch := rfl
@[simp] theorem setSlot_clPend (s : State) (i : Nat) (x : Slot) : (setSlot s i x).clPend = s.clPend := rfl
@[simp] theorem setSlot_clLatch (s : State) (i : Nat) (x : Slot) : (setSlot s i x).clLatch = s.clLatch := rfl
@[simp] theorem setSlot_colours (s : State) (i : Nat) (x : Slot) : (setSlot s i x).colours = s.colours := rfl
@[simp] theorem setSlot_streams (s : State) (i : Nat) (x : Slot) : (setSlot s i x).streams = s.streams := rfl
@[simp] theorem setSlot_tiles (s : State) (i : Nat) (x : Slot) : (setSlot s i x).tiles = s.tiles := rfl
@[simp] theorem setSlot_cores (s : State) (i : Nat) (x : Slot) : (setSlot s i x).cores = s.cores := rfl
@[simp] theorem setSlot_chans (s : State) (i : Nat) (x : Slot) : (setSlot s i x).chans = s.chans := rfl
@[simp] theorem setSlot_turn (s : State) (i : Nat) (x : Slot) : (setSlot s i x).turn = s.turn := rfl
@[simp] theorem setSlot_pulses (s : State) (i : Nat) (x : Slot) : (setSlot s i x).pulses = s.pulses := rfl
@[simp] theorem setSlot_bru (s : State) (i : Nat) (x : Slot) : (setSlot s i x).bru = s.bru := rfl
@[simp] theorem setSlot_flags (s : State) (i : Nat) (x : Slot) : (setSlot s i x).flags = s.flags := rfl
@[simp] theorem setSlot_groups (s : State) (i : Nat) (x : Slot) : (setSlot s i x).groups = s.groups := rfl
@[simp] theorem setSlot_waits (s : State) (i : Nat) (x : Slot) : (setSlot s i x).waits = s.waits := rfl
@[simp] theorem setSlot_updates (s : State) (i : Nat) (x : Slot) : (setSlot s i x).updates = s.updates := rfl
@[simp] theorem setSlot_checks (s : State) (i : Nat) (x : Slot) : (setSlot s i x).checks = s.checks := rfl
@[simp] theorem setSlot_queues (s : State) (i : Nat) (x : Slot) : (setSlot s i x).queues = s.queues := rfl
@[simp] theorem setSlot_granules (s : State) (i : Nat) (x : Slot) : (setSlot s i x).granules = s.granules := rfl
@[simp] theorem setSlot_shm (s : State) (i : Nat) (x : Slot) : (setSlot s i x).shm = s.shm := rfl
@[simp] theorem setSlot_ddr (s : State) (i : Nat) (x : Slot) : (setSlot s i x).ddr = s.ddr := rfl
@[simp] theorem setSlot_poison (s : State) (i : Nat) (x : Slot) : (setSlot s i x).poison = s.poison := rfl
@[simp] theorem setSlot_shmOff (s : State) (i : Nat) (x : Slot) : (setSlot s i x).shmOff = s.shmOff := rfl
@[simp] theorem setSlot_inval (s : State) (i : Nat) (x : Slot) : (setSlot s i x).inval = s.inval := rfl
@[simp] theorem setSlot_fc (s : State) (i : Nat) (x : Slot) : (setSlot s i x).fc = s.fc := rfl
@[simp] theorem setSlot_host (s : State) (i : Nat) (x : Slot) : (setSlot s i x).host = s.host := rfl
@[simp] theorem setSlot_sent (s : State) (i : Nat) (x : Slot) : (setSlot s i x).sent = s.sent := rfl
@[simp] theorem setSlot_bridge (s : State) (i : Nat) (x : Slot) : (setSlot s i x).bridge = s.bridge := rfl
@[simp] theorem setSlot_smi (s : State) (i : Nat) (x : Slot) : (setSlot s i x).smi = s.smi := rfl
@[simp] theorem setSlot_power (s : State) (i : Nat) (x : Slot) : (setSlot s i x).power = s.power := rfl
@[simp] theorem setSlot_boot (s : State) (i : Nat) (x : Slot) : (setSlot s i x).boot = s.boot := rfl
@[simp] theorem setSlot_retire (s : State) (i : Nat) (x : Slot) : (setSlot s i x).retire = s.retire := rfl
@[simp] theorem setSlot_fuses (s : State) (i : Nat) (x : Slot) : (setSlot s i x).fuses = s.fuses := rfl
@[simp] theorem setSlot_flash (s : State) (i : Nat) (x : Slot) : (setSlot s i x).flash = s.flash := rfl
@[simp] theorem setSlot_pins (s : State) (i : Nat) (x : Slot) : (setSlot s i x).pins = s.pins := rfl
@[simp] theorem setSlot_licences (s : State) (i : Nat) (x : Slot) : (setSlot s i x).licences = s.licences := rfl
@[simp] theorem setSlot_dbgOpen (s : State) (i : Nat) (x : Slot) : (setSlot s i x).dbgOpen = s.dbgOpen := rfl

@[simp] theorem setGroup_pending (s : State) (g : Nat) (x : Group) : (setGroup s g x).pending = s.pending := rfl
@[simp] theorem setGroup_free (s : State) (g : Nat) (x : Group) : (setGroup s g x).free = s.free := rfl
@[simp] theorem setGroup_regs (s : State) (g : Nat) (x : Group) : (setGroup s g x).regs = s.regs := rfl
@[simp] theorem setGroup_mem (s : State) (g : Nat) (x : Group) : (setGroup s g x).mem = s.mem := rfl
@[simp] theorem setGroup_ddrBytes (s : State) (g : Nat) (x : Group) : (setGroup s g x).ddrBytes = s.ddrBytes := rfl
@[simp] theorem setGroup_clk (s : State) (g : Nat) (x : Group) : (setGroup s g x).clk = s.clk := rfl
@[simp] theorem setGroup_bus (s : State) (g : Nat) (x : Group) : (setGroup s g x).bus = s.bus := rfl
@[simp] theorem setGroup_latches (s : State) (g : Nat) (x : Group) : (setGroup s g x).latches = s.latches := rfl
@[simp] theorem setGroup_slow (s : State) (g : Nat) (x : Group) : (setGroup s g x).slow = s.slow := rfl
@[simp] theorem setGroup_resetting (s : State) (g : Nat) (x : Group) : (setGroup s g x).resetting = s.resetting := rfl
@[simp] theorem setGroup_moves (s : State) (g : Nat) (x : Group) : (setGroup s g x).moves = s.moves := rfl
@[simp] theorem setGroup_leaving (s : State) (g : Nat) (x : Group) : (setGroup s g x).leaving = s.leaving := rfl
@[simp] theorem setGroup_endsTaken (s : State) (g : Nat) (x : Group) : (setGroup s g x).endsTaken = s.endsTaken := rfl
@[simp] theorem setGroup_buses (s : State) (g : Nat) (x : Group) : (setGroup s g x).buses = s.buses := rfl
@[simp] theorem setGroup_ports (s : State) (g : Nat) (x : Group) : (setGroup s g x).ports = s.ports := rfl
@[simp] theorem setGroup_banks (s : State) (g : Nat) (x : Group) : (setGroup s g x).banks = s.banks := rfl
@[simp] theorem setGroup_plates (s : State) (g : Nat) (x : Group) : (setGroup s g x).plates = s.plates := rfl
@[simp] theorem setGroup_plPend (s : State) (g : Nat) (x : Group) : (setGroup s g x).plPend = s.plPend := rfl
@[simp] theorem setGroup_plLatch (s : State) (g : Nat) (x : Group) : (setGroup s g x).plLatch = s.plLatch := rfl
@[simp] theorem setGroup_clPend (s : State) (g : Nat) (x : Group) : (setGroup s g x).clPend = s.clPend := rfl
@[simp] theorem setGroup_clLatch (s : State) (g : Nat) (x : Group) : (setGroup s g x).clLatch = s.clLatch := rfl
@[simp] theorem setGroup_colours (s : State) (g : Nat) (x : Group) : (setGroup s g x).colours = s.colours := rfl
@[simp] theorem setGroup_streams (s : State) (g : Nat) (x : Group) : (setGroup s g x).streams = s.streams := rfl
@[simp] theorem setGroup_tiles (s : State) (g : Nat) (x : Group) : (setGroup s g x).tiles = s.tiles := rfl
@[simp] theorem setGroup_cores (s : State) (g : Nat) (x : Group) : (setGroup s g x).cores = s.cores := rfl
@[simp] theorem setGroup_chans (s : State) (g : Nat) (x : Group) : (setGroup s g x).chans = s.chans := rfl
@[simp] theorem setGroup_turn (s : State) (g : Nat) (x : Group) : (setGroup s g x).turn = s.turn := rfl
@[simp] theorem setGroup_pulses (s : State) (g : Nat) (x : Group) : (setGroup s g x).pulses = s.pulses := rfl
@[simp] theorem setGroup_bru (s : State) (g : Nat) (x : Group) : (setGroup s g x).bru = s.bru := rfl
@[simp] theorem setGroup_flags (s : State) (g : Nat) (x : Group) : (setGroup s g x).flags = s.flags := rfl
@[simp] theorem setGroup_waits (s : State) (g : Nat) (x : Group) : (setGroup s g x).waits = s.waits := rfl
@[simp] theorem setGroup_updates (s : State) (g : Nat) (x : Group) : (setGroup s g x).updates = s.updates := rfl
@[simp] theorem setGroup_checks (s : State) (g : Nat) (x : Group) : (setGroup s g x).checks = s.checks := rfl
@[simp] theorem setGroup_slots (s : State) (g : Nat) (x : Group) : (setGroup s g x).slots = s.slots := rfl
@[simp] theorem setGroup_queues (s : State) (g : Nat) (x : Group) : (setGroup s g x).queues = s.queues := rfl
@[simp] theorem setGroup_granules (s : State) (g : Nat) (x : Group) : (setGroup s g x).granules = s.granules := rfl
@[simp] theorem setGroup_shm (s : State) (g : Nat) (x : Group) : (setGroup s g x).shm = s.shm := rfl
@[simp] theorem setGroup_ddr (s : State) (g : Nat) (x : Group) : (setGroup s g x).ddr = s.ddr := rfl
@[simp] theorem setGroup_poison (s : State) (g : Nat) (x : Group) : (setGroup s g x).poison = s.poison := rfl
@[simp] theorem setGroup_shmOff (s : State) (g : Nat) (x : Group) : (setGroup s g x).shmOff = s.shmOff := rfl
@[simp] theorem setGroup_inval (s : State) (g : Nat) (x : Group) : (setGroup s g x).inval = s.inval := rfl
@[simp] theorem setGroup_fc (s : State) (g : Nat) (x : Group) : (setGroup s g x).fc = s.fc := rfl
@[simp] theorem setGroup_host (s : State) (g : Nat) (x : Group) : (setGroup s g x).host = s.host := rfl
@[simp] theorem setGroup_sent (s : State) (g : Nat) (x : Group) : (setGroup s g x).sent = s.sent := rfl
@[simp] theorem setGroup_bridge (s : State) (g : Nat) (x : Group) : (setGroup s g x).bridge = s.bridge := rfl
@[simp] theorem setGroup_smi (s : State) (g : Nat) (x : Group) : (setGroup s g x).smi = s.smi := rfl
@[simp] theorem setGroup_power (s : State) (g : Nat) (x : Group) : (setGroup s g x).power = s.power := rfl
@[simp] theorem setGroup_boot (s : State) (g : Nat) (x : Group) : (setGroup s g x).boot = s.boot := rfl
@[simp] theorem setGroup_retire (s : State) (g : Nat) (x : Group) : (setGroup s g x).retire = s.retire := rfl
@[simp] theorem setGroup_fuses (s : State) (g : Nat) (x : Group) : (setGroup s g x).fuses = s.fuses := rfl
@[simp] theorem setGroup_flash (s : State) (g : Nat) (x : Group) : (setGroup s g x).flash = s.flash := rfl
@[simp] theorem setGroup_pins (s : State) (g : Nat) (x : Group) : (setGroup s g x).pins = s.pins := rfl
@[simp] theorem setGroup_licences (s : State) (g : Nat) (x : Group) : (setGroup s g x).licences = s.licences := rfl
@[simp] theorem setGroup_dbgOpen (s : State) (g : Nat) (x : Group) : (setGroup s g x).dbgOpen = s.dbgOpen := rfl

@[simp] theorem setGran_pending (s : State) (g : Nat) (x : Granule) : (setGran s g x).pending = s.pending := rfl
@[simp] theorem setGran_free (s : State) (g : Nat) (x : Granule) : (setGran s g x).free = s.free := rfl
@[simp] theorem setGran_regs (s : State) (g : Nat) (x : Granule) : (setGran s g x).regs = s.regs := rfl
@[simp] theorem setGran_mem (s : State) (g : Nat) (x : Granule) : (setGran s g x).mem = s.mem := rfl
@[simp] theorem setGran_ddrBytes (s : State) (g : Nat) (x : Granule) : (setGran s g x).ddrBytes = s.ddrBytes := rfl
@[simp] theorem setGran_clk (s : State) (g : Nat) (x : Granule) : (setGran s g x).clk = s.clk := rfl
@[simp] theorem setGran_bus (s : State) (g : Nat) (x : Granule) : (setGran s g x).bus = s.bus := rfl
@[simp] theorem setGran_latches (s : State) (g : Nat) (x : Granule) : (setGran s g x).latches = s.latches := rfl
@[simp] theorem setGran_slow (s : State) (g : Nat) (x : Granule) : (setGran s g x).slow = s.slow := rfl
@[simp] theorem setGran_resetting (s : State) (g : Nat) (x : Granule) : (setGran s g x).resetting = s.resetting := rfl
@[simp] theorem setGran_moves (s : State) (g : Nat) (x : Granule) : (setGran s g x).moves = s.moves := rfl
@[simp] theorem setGran_leaving (s : State) (g : Nat) (x : Granule) : (setGran s g x).leaving = s.leaving := rfl
@[simp] theorem setGran_endsTaken (s : State) (g : Nat) (x : Granule) : (setGran s g x).endsTaken = s.endsTaken := rfl
@[simp] theorem setGran_buses (s : State) (g : Nat) (x : Granule) : (setGran s g x).buses = s.buses := rfl
@[simp] theorem setGran_ports (s : State) (g : Nat) (x : Granule) : (setGran s g x).ports = s.ports := rfl
@[simp] theorem setGran_banks (s : State) (g : Nat) (x : Granule) : (setGran s g x).banks = s.banks := rfl
@[simp] theorem setGran_plates (s : State) (g : Nat) (x : Granule) : (setGran s g x).plates = s.plates := rfl
@[simp] theorem setGran_plPend (s : State) (g : Nat) (x : Granule) : (setGran s g x).plPend = s.plPend := rfl
@[simp] theorem setGran_plLatch (s : State) (g : Nat) (x : Granule) : (setGran s g x).plLatch = s.plLatch := rfl
@[simp] theorem setGran_clPend (s : State) (g : Nat) (x : Granule) : (setGran s g x).clPend = s.clPend := rfl
@[simp] theorem setGran_clLatch (s : State) (g : Nat) (x : Granule) : (setGran s g x).clLatch = s.clLatch := rfl
@[simp] theorem setGran_colours (s : State) (g : Nat) (x : Granule) : (setGran s g x).colours = s.colours := rfl
@[simp] theorem setGran_streams (s : State) (g : Nat) (x : Granule) : (setGran s g x).streams = s.streams := rfl
@[simp] theorem setGran_tiles (s : State) (g : Nat) (x : Granule) : (setGran s g x).tiles = s.tiles := rfl
@[simp] theorem setGran_cores (s : State) (g : Nat) (x : Granule) : (setGran s g x).cores = s.cores := rfl
@[simp] theorem setGran_chans (s : State) (g : Nat) (x : Granule) : (setGran s g x).chans = s.chans := rfl
@[simp] theorem setGran_turn (s : State) (g : Nat) (x : Granule) : (setGran s g x).turn = s.turn := rfl
@[simp] theorem setGran_pulses (s : State) (g : Nat) (x : Granule) : (setGran s g x).pulses = s.pulses := rfl
@[simp] theorem setGran_bru (s : State) (g : Nat) (x : Granule) : (setGran s g x).bru = s.bru := rfl
@[simp] theorem setGran_flags (s : State) (g : Nat) (x : Granule) : (setGran s g x).flags = s.flags := rfl
@[simp] theorem setGran_groups (s : State) (g : Nat) (x : Granule) : (setGran s g x).groups = s.groups := rfl
@[simp] theorem setGran_waits (s : State) (g : Nat) (x : Granule) : (setGran s g x).waits = s.waits := rfl
@[simp] theorem setGran_updates (s : State) (g : Nat) (x : Granule) : (setGran s g x).updates = s.updates := rfl
@[simp] theorem setGran_checks (s : State) (g : Nat) (x : Granule) : (setGran s g x).checks = s.checks := rfl
@[simp] theorem setGran_slots (s : State) (g : Nat) (x : Granule) : (setGran s g x).slots = s.slots := rfl
@[simp] theorem setGran_queues (s : State) (g : Nat) (x : Granule) : (setGran s g x).queues = s.queues := rfl
@[simp] theorem setGran_shm (s : State) (g : Nat) (x : Granule) : (setGran s g x).shm = s.shm := rfl
@[simp] theorem setGran_ddr (s : State) (g : Nat) (x : Granule) : (setGran s g x).ddr = s.ddr := rfl
@[simp] theorem setGran_poison (s : State) (g : Nat) (x : Granule) : (setGran s g x).poison = s.poison := rfl
@[simp] theorem setGran_shmOff (s : State) (g : Nat) (x : Granule) : (setGran s g x).shmOff = s.shmOff := rfl
@[simp] theorem setGran_inval (s : State) (g : Nat) (x : Granule) : (setGran s g x).inval = s.inval := rfl
@[simp] theorem setGran_fc (s : State) (g : Nat) (x : Granule) : (setGran s g x).fc = s.fc := rfl
@[simp] theorem setGran_host (s : State) (g : Nat) (x : Granule) : (setGran s g x).host = s.host := rfl
@[simp] theorem setGran_sent (s : State) (g : Nat) (x : Granule) : (setGran s g x).sent = s.sent := rfl
@[simp] theorem setGran_bridge (s : State) (g : Nat) (x : Granule) : (setGran s g x).bridge = s.bridge := rfl
@[simp] theorem setGran_smi (s : State) (g : Nat) (x : Granule) : (setGran s g x).smi = s.smi := rfl
@[simp] theorem setGran_power (s : State) (g : Nat) (x : Granule) : (setGran s g x).power = s.power := rfl
@[simp] theorem setGran_boot (s : State) (g : Nat) (x : Granule) : (setGran s g x).boot = s.boot := rfl
@[simp] theorem setGran_retire (s : State) (g : Nat) (x : Granule) : (setGran s g x).retire = s.retire := rfl
@[simp] theorem setGran_fuses (s : State) (g : Nat) (x : Granule) : (setGran s g x).fuses = s.fuses := rfl
@[simp] theorem setGran_flash (s : State) (g : Nat) (x : Granule) : (setGran s g x).flash = s.flash := rfl
@[simp] theorem setGran_pins (s : State) (g : Nat) (x : Granule) : (setGran s g x).pins = s.pins := rfl
@[simp] theorem setGran_licences (s : State) (g : Nat) (x : Granule) : (setGran s g x).licences = s.licences := rfl
@[simp] theorem setGran_dbgOpen (s : State) (g : Nat) (x : Granule) : (setGran s g x).dbgOpen = s.dbgOpen := rfl

@[simp] theorem setShm_pending (s : State) (n : Nat) (x : ShmSlice) : (setShm s n x).pending = s.pending := rfl
@[simp] theorem setShm_free (s : State) (n : Nat) (x : ShmSlice) : (setShm s n x).free = s.free := rfl
@[simp] theorem setShm_regs (s : State) (n : Nat) (x : ShmSlice) : (setShm s n x).regs = s.regs := rfl
@[simp] theorem setShm_mem (s : State) (n : Nat) (x : ShmSlice) : (setShm s n x).mem = s.mem := rfl
@[simp] theorem setShm_ddrBytes (s : State) (n : Nat) (x : ShmSlice) : (setShm s n x).ddrBytes = s.ddrBytes := rfl
@[simp] theorem setShm_clk (s : State) (n : Nat) (x : ShmSlice) : (setShm s n x).clk = s.clk := rfl
@[simp] theorem setShm_bus (s : State) (n : Nat) (x : ShmSlice) : (setShm s n x).bus = s.bus := rfl
@[simp] theorem setShm_latches (s : State) (n : Nat) (x : ShmSlice) : (setShm s n x).latches = s.latches := rfl
@[simp] theorem setShm_slow (s : State) (n : Nat) (x : ShmSlice) : (setShm s n x).slow = s.slow := rfl
@[simp] theorem setShm_resetting (s : State) (n : Nat) (x : ShmSlice) : (setShm s n x).resetting = s.resetting := rfl
@[simp] theorem setShm_moves (s : State) (n : Nat) (x : ShmSlice) : (setShm s n x).moves = s.moves := rfl
@[simp] theorem setShm_leaving (s : State) (n : Nat) (x : ShmSlice) : (setShm s n x).leaving = s.leaving := rfl
@[simp] theorem setShm_endsTaken (s : State) (n : Nat) (x : ShmSlice) : (setShm s n x).endsTaken = s.endsTaken := rfl
@[simp] theorem setShm_buses (s : State) (n : Nat) (x : ShmSlice) : (setShm s n x).buses = s.buses := rfl
@[simp] theorem setShm_ports (s : State) (n : Nat) (x : ShmSlice) : (setShm s n x).ports = s.ports := rfl
@[simp] theorem setShm_banks (s : State) (n : Nat) (x : ShmSlice) : (setShm s n x).banks = s.banks := rfl
@[simp] theorem setShm_plates (s : State) (n : Nat) (x : ShmSlice) : (setShm s n x).plates = s.plates := rfl
@[simp] theorem setShm_plPend (s : State) (n : Nat) (x : ShmSlice) : (setShm s n x).plPend = s.plPend := rfl
@[simp] theorem setShm_plLatch (s : State) (n : Nat) (x : ShmSlice) : (setShm s n x).plLatch = s.plLatch := rfl
@[simp] theorem setShm_clPend (s : State) (n : Nat) (x : ShmSlice) : (setShm s n x).clPend = s.clPend := rfl
@[simp] theorem setShm_clLatch (s : State) (n : Nat) (x : ShmSlice) : (setShm s n x).clLatch = s.clLatch := rfl
@[simp] theorem setShm_colours (s : State) (n : Nat) (x : ShmSlice) : (setShm s n x).colours = s.colours := rfl
@[simp] theorem setShm_streams (s : State) (n : Nat) (x : ShmSlice) : (setShm s n x).streams = s.streams := rfl
@[simp] theorem setShm_tiles (s : State) (n : Nat) (x : ShmSlice) : (setShm s n x).tiles = s.tiles := rfl
@[simp] theorem setShm_cores (s : State) (n : Nat) (x : ShmSlice) : (setShm s n x).cores = s.cores := rfl
@[simp] theorem setShm_chans (s : State) (n : Nat) (x : ShmSlice) : (setShm s n x).chans = s.chans := rfl
@[simp] theorem setShm_turn (s : State) (n : Nat) (x : ShmSlice) : (setShm s n x).turn = s.turn := rfl
@[simp] theorem setShm_pulses (s : State) (n : Nat) (x : ShmSlice) : (setShm s n x).pulses = s.pulses := rfl
@[simp] theorem setShm_bru (s : State) (n : Nat) (x : ShmSlice) : (setShm s n x).bru = s.bru := rfl
@[simp] theorem setShm_flags (s : State) (n : Nat) (x : ShmSlice) : (setShm s n x).flags = s.flags := rfl
@[simp] theorem setShm_groups (s : State) (n : Nat) (x : ShmSlice) : (setShm s n x).groups = s.groups := rfl
@[simp] theorem setShm_waits (s : State) (n : Nat) (x : ShmSlice) : (setShm s n x).waits = s.waits := rfl
@[simp] theorem setShm_updates (s : State) (n : Nat) (x : ShmSlice) : (setShm s n x).updates = s.updates := rfl
@[simp] theorem setShm_checks (s : State) (n : Nat) (x : ShmSlice) : (setShm s n x).checks = s.checks := rfl
@[simp] theorem setShm_slots (s : State) (n : Nat) (x : ShmSlice) : (setShm s n x).slots = s.slots := rfl
@[simp] theorem setShm_queues (s : State) (n : Nat) (x : ShmSlice) : (setShm s n x).queues = s.queues := rfl
@[simp] theorem setShm_granules (s : State) (n : Nat) (x : ShmSlice) : (setShm s n x).granules = s.granules := rfl
@[simp] theorem setShm_ddr (s : State) (n : Nat) (x : ShmSlice) : (setShm s n x).ddr = s.ddr := rfl
@[simp] theorem setShm_poison (s : State) (n : Nat) (x : ShmSlice) : (setShm s n x).poison = s.poison := rfl
@[simp] theorem setShm_shmOff (s : State) (n : Nat) (x : ShmSlice) : (setShm s n x).shmOff = s.shmOff := rfl
@[simp] theorem setShm_inval (s : State) (n : Nat) (x : ShmSlice) : (setShm s n x).inval = s.inval := rfl
@[simp] theorem setShm_fc (s : State) (n : Nat) (x : ShmSlice) : (setShm s n x).fc = s.fc := rfl
@[simp] theorem setShm_host (s : State) (n : Nat) (x : ShmSlice) : (setShm s n x).host = s.host := rfl
@[simp] theorem setShm_sent (s : State) (n : Nat) (x : ShmSlice) : (setShm s n x).sent = s.sent := rfl
@[simp] theorem setShm_bridge (s : State) (n : Nat) (x : ShmSlice) : (setShm s n x).bridge = s.bridge := rfl
@[simp] theorem setShm_smi (s : State) (n : Nat) (x : ShmSlice) : (setShm s n x).smi = s.smi := rfl
@[simp] theorem setShm_power (s : State) (n : Nat) (x : ShmSlice) : (setShm s n x).power = s.power := rfl
@[simp] theorem setShm_boot (s : State) (n : Nat) (x : ShmSlice) : (setShm s n x).boot = s.boot := rfl
@[simp] theorem setShm_retire (s : State) (n : Nat) (x : ShmSlice) : (setShm s n x).retire = s.retire := rfl
@[simp] theorem setShm_fuses (s : State) (n : Nat) (x : ShmSlice) : (setShm s n x).fuses = s.fuses := rfl
@[simp] theorem setShm_flash (s : State) (n : Nat) (x : ShmSlice) : (setShm s n x).flash = s.flash := rfl
@[simp] theorem setShm_pins (s : State) (n : Nat) (x : ShmSlice) : (setShm s n x).pins = s.pins := rfl
@[simp] theorem setShm_licences (s : State) (n : Nat) (x : ShmSlice) : (setShm s n x).licences = s.licences := rfl
@[simp] theorem setShm_dbgOpen (s : State) (n : Nat) (x : ShmSlice) : (setShm s n x).dbgOpen = s.dbgOpen := rfl

@[simp] theorem setDdr_pending (s : State) (k : Nat) (x : DdrChan) : (setDdr s k x).pending = s.pending := rfl
@[simp] theorem setDdr_free (s : State) (k : Nat) (x : DdrChan) : (setDdr s k x).free = s.free := rfl
@[simp] theorem setDdr_regs (s : State) (k : Nat) (x : DdrChan) : (setDdr s k x).regs = s.regs := rfl
@[simp] theorem setDdr_mem (s : State) (k : Nat) (x : DdrChan) : (setDdr s k x).mem = s.mem := rfl
@[simp] theorem setDdr_ddrBytes (s : State) (k : Nat) (x : DdrChan) : (setDdr s k x).ddrBytes = s.ddrBytes := rfl
@[simp] theorem setDdr_clk (s : State) (k : Nat) (x : DdrChan) : (setDdr s k x).clk = s.clk := rfl
@[simp] theorem setDdr_bus (s : State) (k : Nat) (x : DdrChan) : (setDdr s k x).bus = s.bus := rfl
@[simp] theorem setDdr_latches (s : State) (k : Nat) (x : DdrChan) : (setDdr s k x).latches = s.latches := rfl
@[simp] theorem setDdr_slow (s : State) (k : Nat) (x : DdrChan) : (setDdr s k x).slow = s.slow := rfl
@[simp] theorem setDdr_resetting (s : State) (k : Nat) (x : DdrChan) : (setDdr s k x).resetting = s.resetting := rfl
@[simp] theorem setDdr_moves (s : State) (k : Nat) (x : DdrChan) : (setDdr s k x).moves = s.moves := rfl
@[simp] theorem setDdr_leaving (s : State) (k : Nat) (x : DdrChan) : (setDdr s k x).leaving = s.leaving := rfl
@[simp] theorem setDdr_endsTaken (s : State) (k : Nat) (x : DdrChan) : (setDdr s k x).endsTaken = s.endsTaken := rfl
@[simp] theorem setDdr_buses (s : State) (k : Nat) (x : DdrChan) : (setDdr s k x).buses = s.buses := rfl
@[simp] theorem setDdr_ports (s : State) (k : Nat) (x : DdrChan) : (setDdr s k x).ports = s.ports := rfl
@[simp] theorem setDdr_banks (s : State) (k : Nat) (x : DdrChan) : (setDdr s k x).banks = s.banks := rfl
@[simp] theorem setDdr_plates (s : State) (k : Nat) (x : DdrChan) : (setDdr s k x).plates = s.plates := rfl
@[simp] theorem setDdr_plPend (s : State) (k : Nat) (x : DdrChan) : (setDdr s k x).plPend = s.plPend := rfl
@[simp] theorem setDdr_plLatch (s : State) (k : Nat) (x : DdrChan) : (setDdr s k x).plLatch = s.plLatch := rfl
@[simp] theorem setDdr_clPend (s : State) (k : Nat) (x : DdrChan) : (setDdr s k x).clPend = s.clPend := rfl
@[simp] theorem setDdr_clLatch (s : State) (k : Nat) (x : DdrChan) : (setDdr s k x).clLatch = s.clLatch := rfl
@[simp] theorem setDdr_colours (s : State) (k : Nat) (x : DdrChan) : (setDdr s k x).colours = s.colours := rfl
@[simp] theorem setDdr_streams (s : State) (k : Nat) (x : DdrChan) : (setDdr s k x).streams = s.streams := rfl
@[simp] theorem setDdr_tiles (s : State) (k : Nat) (x : DdrChan) : (setDdr s k x).tiles = s.tiles := rfl
@[simp] theorem setDdr_cores (s : State) (k : Nat) (x : DdrChan) : (setDdr s k x).cores = s.cores := rfl
@[simp] theorem setDdr_chans (s : State) (k : Nat) (x : DdrChan) : (setDdr s k x).chans = s.chans := rfl
@[simp] theorem setDdr_turn (s : State) (k : Nat) (x : DdrChan) : (setDdr s k x).turn = s.turn := rfl
@[simp] theorem setDdr_pulses (s : State) (k : Nat) (x : DdrChan) : (setDdr s k x).pulses = s.pulses := rfl
@[simp] theorem setDdr_bru (s : State) (k : Nat) (x : DdrChan) : (setDdr s k x).bru = s.bru := rfl
@[simp] theorem setDdr_flags (s : State) (k : Nat) (x : DdrChan) : (setDdr s k x).flags = s.flags := rfl
@[simp] theorem setDdr_groups (s : State) (k : Nat) (x : DdrChan) : (setDdr s k x).groups = s.groups := rfl
@[simp] theorem setDdr_waits (s : State) (k : Nat) (x : DdrChan) : (setDdr s k x).waits = s.waits := rfl
@[simp] theorem setDdr_updates (s : State) (k : Nat) (x : DdrChan) : (setDdr s k x).updates = s.updates := rfl
@[simp] theorem setDdr_checks (s : State) (k : Nat) (x : DdrChan) : (setDdr s k x).checks = s.checks := rfl
@[simp] theorem setDdr_slots (s : State) (k : Nat) (x : DdrChan) : (setDdr s k x).slots = s.slots := rfl
@[simp] theorem setDdr_queues (s : State) (k : Nat) (x : DdrChan) : (setDdr s k x).queues = s.queues := rfl
@[simp] theorem setDdr_granules (s : State) (k : Nat) (x : DdrChan) : (setDdr s k x).granules = s.granules := rfl
@[simp] theorem setDdr_shm (s : State) (k : Nat) (x : DdrChan) : (setDdr s k x).shm = s.shm := rfl
@[simp] theorem setDdr_poison (s : State) (k : Nat) (x : DdrChan) : (setDdr s k x).poison = s.poison := rfl
@[simp] theorem setDdr_shmOff (s : State) (k : Nat) (x : DdrChan) : (setDdr s k x).shmOff = s.shmOff := rfl
@[simp] theorem setDdr_inval (s : State) (k : Nat) (x : DdrChan) : (setDdr s k x).inval = s.inval := rfl
@[simp] theorem setDdr_fc (s : State) (k : Nat) (x : DdrChan) : (setDdr s k x).fc = s.fc := rfl
@[simp] theorem setDdr_host (s : State) (k : Nat) (x : DdrChan) : (setDdr s k x).host = s.host := rfl
@[simp] theorem setDdr_sent (s : State) (k : Nat) (x : DdrChan) : (setDdr s k x).sent = s.sent := rfl
@[simp] theorem setDdr_bridge (s : State) (k : Nat) (x : DdrChan) : (setDdr s k x).bridge = s.bridge := rfl
@[simp] theorem setDdr_smi (s : State) (k : Nat) (x : DdrChan) : (setDdr s k x).smi = s.smi := rfl
@[simp] theorem setDdr_power (s : State) (k : Nat) (x : DdrChan) : (setDdr s k x).power = s.power := rfl
@[simp] theorem setDdr_boot (s : State) (k : Nat) (x : DdrChan) : (setDdr s k x).boot = s.boot := rfl
@[simp] theorem setDdr_retire (s : State) (k : Nat) (x : DdrChan) : (setDdr s k x).retire = s.retire := rfl
@[simp] theorem setDdr_fuses (s : State) (k : Nat) (x : DdrChan) : (setDdr s k x).fuses = s.fuses := rfl
@[simp] theorem setDdr_flash (s : State) (k : Nat) (x : DdrChan) : (setDdr s k x).flash = s.flash := rfl
@[simp] theorem setDdr_pins (s : State) (k : Nat) (x : DdrChan) : (setDdr s k x).pins = s.pins := rfl
@[simp] theorem setDdr_licences (s : State) (k : Nat) (x : DdrChan) : (setDdr s k x).licences = s.licences := rfl
@[simp] theorem setDdr_dbgOpen (s : State) (k : Nat) (x : DdrChan) : (setDdr s k x).dbgOpen = s.dbgOpen := rfl

@[simp] theorem setPart_pending (s : State) (p : Nat) (x : Partition) : (setPart s p x).pending = s.pending := rfl
@[simp] theorem setPart_free (s : State) (p : Nat) (x : Partition) : (setPart s p x).free = s.free := rfl
@[simp] theorem setPart_regs (s : State) (p : Nat) (x : Partition) : (setPart s p x).regs = s.regs := rfl
@[simp] theorem setPart_mem (s : State) (p : Nat) (x : Partition) : (setPart s p x).mem = s.mem := rfl
@[simp] theorem setPart_ddrBytes (s : State) (p : Nat) (x : Partition) : (setPart s p x).ddrBytes = s.ddrBytes := rfl
@[simp] theorem setPart_clk (s : State) (p : Nat) (x : Partition) : (setPart s p x).clk = s.clk := rfl
@[simp] theorem setPart_bus (s : State) (p : Nat) (x : Partition) : (setPart s p x).bus = s.bus := rfl
@[simp] theorem setPart_latches (s : State) (p : Nat) (x : Partition) : (setPart s p x).latches = s.latches := rfl
@[simp] theorem setPart_slow (s : State) (p : Nat) (x : Partition) : (setPart s p x).slow = s.slow := rfl
@[simp] theorem setPart_resetting (s : State) (p : Nat) (x : Partition) : (setPart s p x).resetting = s.resetting := rfl
@[simp] theorem setPart_moves (s : State) (p : Nat) (x : Partition) : (setPart s p x).moves = s.moves := rfl
@[simp] theorem setPart_leaving (s : State) (p : Nat) (x : Partition) : (setPart s p x).leaving = s.leaving := rfl
@[simp] theorem setPart_endsTaken (s : State) (p : Nat) (x : Partition) : (setPart s p x).endsTaken = s.endsTaken := rfl
@[simp] theorem setPart_buses (s : State) (p : Nat) (x : Partition) : (setPart s p x).buses = s.buses := rfl
@[simp] theorem setPart_ports (s : State) (p : Nat) (x : Partition) : (setPart s p x).ports = s.ports := rfl
@[simp] theorem setPart_banks (s : State) (p : Nat) (x : Partition) : (setPart s p x).banks = s.banks := rfl
@[simp] theorem setPart_plates (s : State) (p : Nat) (x : Partition) : (setPart s p x).plates = s.plates := rfl
@[simp] theorem setPart_plPend (s : State) (p : Nat) (x : Partition) : (setPart s p x).plPend = s.plPend := rfl
@[simp] theorem setPart_plLatch (s : State) (p : Nat) (x : Partition) : (setPart s p x).plLatch = s.plLatch := rfl
@[simp] theorem setPart_clPend (s : State) (p : Nat) (x : Partition) : (setPart s p x).clPend = s.clPend := rfl
@[simp] theorem setPart_clLatch (s : State) (p : Nat) (x : Partition) : (setPart s p x).clLatch = s.clLatch := rfl
@[simp] theorem setPart_colours (s : State) (p : Nat) (x : Partition) : (setPart s p x).colours = s.colours := rfl
@[simp] theorem setPart_streams (s : State) (p : Nat) (x : Partition) : (setPart s p x).streams = s.streams := rfl
@[simp] theorem setPart_tiles (s : State) (p : Nat) (x : Partition) : (setPart s p x).tiles = s.tiles := rfl
@[simp] theorem setPart_cores (s : State) (p : Nat) (x : Partition) : (setPart s p x).cores = s.cores := rfl
@[simp] theorem setPart_chans (s : State) (p : Nat) (x : Partition) : (setPart s p x).chans = s.chans := rfl
@[simp] theorem setPart_turn (s : State) (p : Nat) (x : Partition) : (setPart s p x).turn = s.turn := rfl
@[simp] theorem setPart_pulses (s : State) (p : Nat) (x : Partition) : (setPart s p x).pulses = s.pulses := rfl
@[simp] theorem setPart_bru (s : State) (p : Nat) (x : Partition) : (setPart s p x).bru = s.bru := rfl
@[simp] theorem setPart_flags (s : State) (p : Nat) (x : Partition) : (setPart s p x).flags = s.flags := rfl
@[simp] theorem setPart_groups (s : State) (p : Nat) (x : Partition) : (setPart s p x).groups = s.groups := rfl
@[simp] theorem setPart_waits (s : State) (p : Nat) (x : Partition) : (setPart s p x).waits = s.waits := rfl
@[simp] theorem setPart_updates (s : State) (p : Nat) (x : Partition) : (setPart s p x).updates = s.updates := rfl
@[simp] theorem setPart_checks (s : State) (p : Nat) (x : Partition) : (setPart s p x).checks = s.checks := rfl
@[simp] theorem setPart_slots (s : State) (p : Nat) (x : Partition) : (setPart s p x).slots = s.slots := rfl
@[simp] theorem setPart_queues (s : State) (p : Nat) (x : Partition) : (setPart s p x).queues = s.queues := rfl
@[simp] theorem setPart_granules (s : State) (p : Nat) (x : Partition) : (setPart s p x).granules = s.granules := rfl
@[simp] theorem setPart_shm (s : State) (p : Nat) (x : Partition) : (setPart s p x).shm = s.shm := rfl
@[simp] theorem setPart_ddr (s : State) (p : Nat) (x : Partition) : (setPart s p x).ddr = s.ddr := rfl
@[simp] theorem setPart_poison (s : State) (p : Nat) (x : Partition) : (setPart s p x).poison = s.poison := rfl
@[simp] theorem setPart_shmOff (s : State) (p : Nat) (x : Partition) : (setPart s p x).shmOff = s.shmOff := rfl
@[simp] theorem setPart_inval (s : State) (p : Nat) (x : Partition) : (setPart s p x).inval = s.inval := rfl
@[simp] theorem setPart_fc (s : State) (p : Nat) (x : Partition) : (setPart s p x).fc = s.fc := rfl
@[simp] theorem setPart_host (s : State) (p : Nat) (x : Partition) : (setPart s p x).host = s.host := rfl
@[simp] theorem setPart_sent (s : State) (p : Nat) (x : Partition) : (setPart s p x).sent = s.sent := rfl
@[simp] theorem setPart_bridge (s : State) (p : Nat) (x : Partition) : (setPart s p x).bridge = s.bridge := rfl
@[simp] theorem setPart_smi (s : State) (p : Nat) (x : Partition) : (setPart s p x).smi = s.smi := rfl
@[simp] theorem setPart_boot (s : State) (p : Nat) (x : Partition) : (setPart s p x).boot = s.boot := rfl
@[simp] theorem setPart_retire (s : State) (p : Nat) (x : Partition) : (setPart s p x).retire = s.retire := rfl
@[simp] theorem setPart_fuses (s : State) (p : Nat) (x : Partition) : (setPart s p x).fuses = s.fuses := rfl
@[simp] theorem setPart_flash (s : State) (p : Nat) (x : Partition) : (setPart s p x).flash = s.flash := rfl
@[simp] theorem setPart_pins (s : State) (p : Nat) (x : Partition) : (setPart s p x).pins = s.pins := rfl
@[simp] theorem setPart_licences (s : State) (p : Nat) (x : Partition) : (setPart s p x).licences = s.licences := rfl
@[simp] theorem setPart_dbgOpen (s : State) (p : Nat) (x : Partition) : (setPart s p x).dbgOpen = s.dbgOpen := rfl

@[simp] theorem setLink_pending (s : State) (k : Nat) (x : Link) : (setLink s k x).pending = s.pending := rfl
@[simp] theorem setLink_free (s : State) (k : Nat) (x : Link) : (setLink s k x).free = s.free := rfl
@[simp] theorem setLink_regs (s : State) (k : Nat) (x : Link) : (setLink s k x).regs = s.regs := rfl
@[simp] theorem setLink_mem (s : State) (k : Nat) (x : Link) : (setLink s k x).mem = s.mem := rfl
@[simp] theorem setLink_ddrBytes (s : State) (k : Nat) (x : Link) : (setLink s k x).ddrBytes = s.ddrBytes := rfl
@[simp] theorem setLink_clk (s : State) (k : Nat) (x : Link) : (setLink s k x).clk = s.clk := rfl
@[simp] theorem setLink_bus (s : State) (k : Nat) (x : Link) : (setLink s k x).bus = s.bus := rfl
@[simp] theorem setLink_latches (s : State) (k : Nat) (x : Link) : (setLink s k x).latches = s.latches := rfl
@[simp] theorem setLink_slow (s : State) (k : Nat) (x : Link) : (setLink s k x).slow = s.slow := rfl
@[simp] theorem setLink_resetting (s : State) (k : Nat) (x : Link) : (setLink s k x).resetting = s.resetting := rfl
@[simp] theorem setLink_moves (s : State) (k : Nat) (x : Link) : (setLink s k x).moves = s.moves := rfl
@[simp] theorem setLink_leaving (s : State) (k : Nat) (x : Link) : (setLink s k x).leaving = s.leaving := rfl
@[simp] theorem setLink_endsTaken (s : State) (k : Nat) (x : Link) : (setLink s k x).endsTaken = s.endsTaken := rfl
@[simp] theorem setLink_buses (s : State) (k : Nat) (x : Link) : (setLink s k x).buses = s.buses := rfl
@[simp] theorem setLink_ports (s : State) (k : Nat) (x : Link) : (setLink s k x).ports = s.ports := rfl
@[simp] theorem setLink_banks (s : State) (k : Nat) (x : Link) : (setLink s k x).banks = s.banks := rfl
@[simp] theorem setLink_plates (s : State) (k : Nat) (x : Link) : (setLink s k x).plates = s.plates := rfl
@[simp] theorem setLink_plPend (s : State) (k : Nat) (x : Link) : (setLink s k x).plPend = s.plPend := rfl
@[simp] theorem setLink_plLatch (s : State) (k : Nat) (x : Link) : (setLink s k x).plLatch = s.plLatch := rfl
@[simp] theorem setLink_clPend (s : State) (k : Nat) (x : Link) : (setLink s k x).clPend = s.clPend := rfl
@[simp] theorem setLink_clLatch (s : State) (k : Nat) (x : Link) : (setLink s k x).clLatch = s.clLatch := rfl
@[simp] theorem setLink_colours (s : State) (k : Nat) (x : Link) : (setLink s k x).colours = s.colours := rfl
@[simp] theorem setLink_streams (s : State) (k : Nat) (x : Link) : (setLink s k x).streams = s.streams := rfl
@[simp] theorem setLink_tiles (s : State) (k : Nat) (x : Link) : (setLink s k x).tiles = s.tiles := rfl
@[simp] theorem setLink_cores (s : State) (k : Nat) (x : Link) : (setLink s k x).cores = s.cores := rfl
@[simp] theorem setLink_chans (s : State) (k : Nat) (x : Link) : (setLink s k x).chans = s.chans := rfl
@[simp] theorem setLink_turn (s : State) (k : Nat) (x : Link) : (setLink s k x).turn = s.turn := rfl
@[simp] theorem setLink_pulses (s : State) (k : Nat) (x : Link) : (setLink s k x).pulses = s.pulses := rfl
@[simp] theorem setLink_bru (s : State) (k : Nat) (x : Link) : (setLink s k x).bru = s.bru := rfl
@[simp] theorem setLink_flags (s : State) (k : Nat) (x : Link) : (setLink s k x).flags = s.flags := rfl
@[simp] theorem setLink_groups (s : State) (k : Nat) (x : Link) : (setLink s k x).groups = s.groups := rfl
@[simp] theorem setLink_waits (s : State) (k : Nat) (x : Link) : (setLink s k x).waits = s.waits := rfl
@[simp] theorem setLink_updates (s : State) (k : Nat) (x : Link) : (setLink s k x).updates = s.updates := rfl
@[simp] theorem setLink_checks (s : State) (k : Nat) (x : Link) : (setLink s k x).checks = s.checks := rfl
@[simp] theorem setLink_slots (s : State) (k : Nat) (x : Link) : (setLink s k x).slots = s.slots := rfl
@[simp] theorem setLink_queues (s : State) (k : Nat) (x : Link) : (setLink s k x).queues = s.queues := rfl
@[simp] theorem setLink_granules (s : State) (k : Nat) (x : Link) : (setLink s k x).granules = s.granules := rfl
@[simp] theorem setLink_shm (s : State) (k : Nat) (x : Link) : (setLink s k x).shm = s.shm := rfl
@[simp] theorem setLink_ddr (s : State) (k : Nat) (x : Link) : (setLink s k x).ddr = s.ddr := rfl
@[simp] theorem setLink_poison (s : State) (k : Nat) (x : Link) : (setLink s k x).poison = s.poison := rfl
@[simp] theorem setLink_shmOff (s : State) (k : Nat) (x : Link) : (setLink s k x).shmOff = s.shmOff := rfl
@[simp] theorem setLink_inval (s : State) (k : Nat) (x : Link) : (setLink s k x).inval = s.inval := rfl
@[simp] theorem setLink_fc (s : State) (k : Nat) (x : Link) : (setLink s k x).fc = s.fc := rfl
@[simp] theorem setLink_host (s : State) (k : Nat) (x : Link) : (setLink s k x).host = s.host := rfl
@[simp] theorem setLink_sent (s : State) (k : Nat) (x : Link) : (setLink s k x).sent = s.sent := rfl
@[simp] theorem setLink_smi (s : State) (k : Nat) (x : Link) : (setLink s k x).smi = s.smi := rfl
@[simp] theorem setLink_power (s : State) (k : Nat) (x : Link) : (setLink s k x).power = s.power := rfl
@[simp] theorem setLink_boot (s : State) (k : Nat) (x : Link) : (setLink s k x).boot = s.boot := rfl
@[simp] theorem setLink_retire (s : State) (k : Nat) (x : Link) : (setLink s k x).retire = s.retire := rfl
@[simp] theorem setLink_fuses (s : State) (k : Nat) (x : Link) : (setLink s k x).fuses = s.fuses := rfl
@[simp] theorem setLink_flash (s : State) (k : Nat) (x : Link) : (setLink s k x).flash = s.flash := rfl
@[simp] theorem setLink_pins (s : State) (k : Nat) (x : Link) : (setLink s k x).pins = s.pins := rfl
@[simp] theorem setLink_licences (s : State) (k : Nat) (x : Link) : (setLink s k x).licences = s.licences := rfl
@[simp] theorem setLink_dbgOpen (s : State) (k : Nat) (x : Link) : (setLink s k x).dbgOpen = s.dbgOpen := rfl

@[simp] theorem setWindow_pending (s : State) (w : Nat) (x : Window) : (setWindow s w x).pending = s.pending := rfl
@[simp] theorem setWindow_free (s : State) (w : Nat) (x : Window) : (setWindow s w x).free = s.free := rfl
@[simp] theorem setWindow_regs (s : State) (w : Nat) (x : Window) : (setWindow s w x).regs = s.regs := rfl
@[simp] theorem setWindow_mem (s : State) (w : Nat) (x : Window) : (setWindow s w x).mem = s.mem := rfl
@[simp] theorem setWindow_ddrBytes (s : State) (w : Nat) (x : Window) : (setWindow s w x).ddrBytes = s.ddrBytes := rfl
@[simp] theorem setWindow_clk (s : State) (w : Nat) (x : Window) : (setWindow s w x).clk = s.clk := rfl
@[simp] theorem setWindow_bus (s : State) (w : Nat) (x : Window) : (setWindow s w x).bus = s.bus := rfl
@[simp] theorem setWindow_latches (s : State) (w : Nat) (x : Window) : (setWindow s w x).latches = s.latches := rfl
@[simp] theorem setWindow_slow (s : State) (w : Nat) (x : Window) : (setWindow s w x).slow = s.slow := rfl
@[simp] theorem setWindow_resetting (s : State) (w : Nat) (x : Window) : (setWindow s w x).resetting = s.resetting := rfl
@[simp] theorem setWindow_moves (s : State) (w : Nat) (x : Window) : (setWindow s w x).moves = s.moves := rfl
@[simp] theorem setWindow_leaving (s : State) (w : Nat) (x : Window) : (setWindow s w x).leaving = s.leaving := rfl
@[simp] theorem setWindow_endsTaken (s : State) (w : Nat) (x : Window) : (setWindow s w x).endsTaken = s.endsTaken := rfl
@[simp] theorem setWindow_buses (s : State) (w : Nat) (x : Window) : (setWindow s w x).buses = s.buses := rfl
@[simp] theorem setWindow_ports (s : State) (w : Nat) (x : Window) : (setWindow s w x).ports = s.ports := rfl
@[simp] theorem setWindow_banks (s : State) (w : Nat) (x : Window) : (setWindow s w x).banks = s.banks := rfl
@[simp] theorem setWindow_plates (s : State) (w : Nat) (x : Window) : (setWindow s w x).plates = s.plates := rfl
@[simp] theorem setWindow_plPend (s : State) (w : Nat) (x : Window) : (setWindow s w x).plPend = s.plPend := rfl
@[simp] theorem setWindow_plLatch (s : State) (w : Nat) (x : Window) : (setWindow s w x).plLatch = s.plLatch := rfl
@[simp] theorem setWindow_clPend (s : State) (w : Nat) (x : Window) : (setWindow s w x).clPend = s.clPend := rfl
@[simp] theorem setWindow_clLatch (s : State) (w : Nat) (x : Window) : (setWindow s w x).clLatch = s.clLatch := rfl
@[simp] theorem setWindow_colours (s : State) (w : Nat) (x : Window) : (setWindow s w x).colours = s.colours := rfl
@[simp] theorem setWindow_streams (s : State) (w : Nat) (x : Window) : (setWindow s w x).streams = s.streams := rfl
@[simp] theorem setWindow_tiles (s : State) (w : Nat) (x : Window) : (setWindow s w x).tiles = s.tiles := rfl
@[simp] theorem setWindow_cores (s : State) (w : Nat) (x : Window) : (setWindow s w x).cores = s.cores := rfl
@[simp] theorem setWindow_chans (s : State) (w : Nat) (x : Window) : (setWindow s w x).chans = s.chans := rfl
@[simp] theorem setWindow_turn (s : State) (w : Nat) (x : Window) : (setWindow s w x).turn = s.turn := rfl
@[simp] theorem setWindow_pulses (s : State) (w : Nat) (x : Window) : (setWindow s w x).pulses = s.pulses := rfl
@[simp] theorem setWindow_bru (s : State) (w : Nat) (x : Window) : (setWindow s w x).bru = s.bru := rfl
@[simp] theorem setWindow_flags (s : State) (w : Nat) (x : Window) : (setWindow s w x).flags = s.flags := rfl
@[simp] theorem setWindow_groups (s : State) (w : Nat) (x : Window) : (setWindow s w x).groups = s.groups := rfl
@[simp] theorem setWindow_waits (s : State) (w : Nat) (x : Window) : (setWindow s w x).waits = s.waits := rfl
@[simp] theorem setWindow_updates (s : State) (w : Nat) (x : Window) : (setWindow s w x).updates = s.updates := rfl
@[simp] theorem setWindow_checks (s : State) (w : Nat) (x : Window) : (setWindow s w x).checks = s.checks := rfl
@[simp] theorem setWindow_slots (s : State) (w : Nat) (x : Window) : (setWindow s w x).slots = s.slots := rfl
@[simp] theorem setWindow_queues (s : State) (w : Nat) (x : Window) : (setWindow s w x).queues = s.queues := rfl
@[simp] theorem setWindow_granules (s : State) (w : Nat) (x : Window) : (setWindow s w x).granules = s.granules := rfl
@[simp] theorem setWindow_shm (s : State) (w : Nat) (x : Window) : (setWindow s w x).shm = s.shm := rfl
@[simp] theorem setWindow_ddr (s : State) (w : Nat) (x : Window) : (setWindow s w x).ddr = s.ddr := rfl
@[simp] theorem setWindow_poison (s : State) (w : Nat) (x : Window) : (setWindow s w x).poison = s.poison := rfl
@[simp] theorem setWindow_shmOff (s : State) (w : Nat) (x : Window) : (setWindow s w x).shmOff = s.shmOff := rfl
@[simp] theorem setWindow_inval (s : State) (w : Nat) (x : Window) : (setWindow s w x).inval = s.inval := rfl
@[simp] theorem setWindow_fc (s : State) (w : Nat) (x : Window) : (setWindow s w x).fc = s.fc := rfl
@[simp] theorem setWindow_host (s : State) (w : Nat) (x : Window) : (setWindow s w x).host = s.host := rfl
@[simp] theorem setWindow_sent (s : State) (w : Nat) (x : Window) : (setWindow s w x).sent = s.sent := rfl
@[simp] theorem setWindow_smi (s : State) (w : Nat) (x : Window) : (setWindow s w x).smi = s.smi := rfl
@[simp] theorem setWindow_power (s : State) (w : Nat) (x : Window) : (setWindow s w x).power = s.power := rfl
@[simp] theorem setWindow_boot (s : State) (w : Nat) (x : Window) : (setWindow s w x).boot = s.boot := rfl
@[simp] theorem setWindow_retire (s : State) (w : Nat) (x : Window) : (setWindow s w x).retire = s.retire := rfl
@[simp] theorem setWindow_fuses (s : State) (w : Nat) (x : Window) : (setWindow s w x).fuses = s.fuses := rfl
@[simp] theorem setWindow_flash (s : State) (w : Nat) (x : Window) : (setWindow s w x).flash = s.flash := rfl
@[simp] theorem setWindow_pins (s : State) (w : Nat) (x : Window) : (setWindow s w x).pins = s.pins := rfl
@[simp] theorem setWindow_licences (s : State) (w : Nat) (x : Window) : (setWindow s w x).licences = s.licences := rfl
@[simp] theorem setWindow_dbgOpen (s : State) (w : Nat) (x : Window) : (setWindow s w x).dbgOpen = s.dbgOpen := rfl

@[simp] theorem setSession_pending (s : State) (n : Nat) (x : Option Session) : (setSession s n x).pending = s.pending := rfl
@[simp] theorem setSession_free (s : State) (n : Nat) (x : Option Session) : (setSession s n x).free = s.free := rfl
@[simp] theorem setSession_regs (s : State) (n : Nat) (x : Option Session) : (setSession s n x).regs = s.regs := rfl
@[simp] theorem setSession_mem (s : State) (n : Nat) (x : Option Session) : (setSession s n x).mem = s.mem := rfl
@[simp] theorem setSession_ddrBytes (s : State) (n : Nat) (x : Option Session) : (setSession s n x).ddrBytes = s.ddrBytes := rfl
@[simp] theorem setSession_clk (s : State) (n : Nat) (x : Option Session) : (setSession s n x).clk = s.clk := rfl
@[simp] theorem setSession_bus (s : State) (n : Nat) (x : Option Session) : (setSession s n x).bus = s.bus := rfl
@[simp] theorem setSession_latches (s : State) (n : Nat) (x : Option Session) : (setSession s n x).latches = s.latches := rfl
@[simp] theorem setSession_slow (s : State) (n : Nat) (x : Option Session) : (setSession s n x).slow = s.slow := rfl
@[simp] theorem setSession_resetting (s : State) (n : Nat) (x : Option Session) : (setSession s n x).resetting = s.resetting := rfl
@[simp] theorem setSession_moves (s : State) (n : Nat) (x : Option Session) : (setSession s n x).moves = s.moves := rfl
@[simp] theorem setSession_leaving (s : State) (n : Nat) (x : Option Session) : (setSession s n x).leaving = s.leaving := rfl
@[simp] theorem setSession_endsTaken (s : State) (n : Nat) (x : Option Session) : (setSession s n x).endsTaken = s.endsTaken := rfl
@[simp] theorem setSession_buses (s : State) (n : Nat) (x : Option Session) : (setSession s n x).buses = s.buses := rfl
@[simp] theorem setSession_ports (s : State) (n : Nat) (x : Option Session) : (setSession s n x).ports = s.ports := rfl
@[simp] theorem setSession_banks (s : State) (n : Nat) (x : Option Session) : (setSession s n x).banks = s.banks := rfl
@[simp] theorem setSession_plates (s : State) (n : Nat) (x : Option Session) : (setSession s n x).plates = s.plates := rfl
@[simp] theorem setSession_plPend (s : State) (n : Nat) (x : Option Session) : (setSession s n x).plPend = s.plPend := rfl
@[simp] theorem setSession_plLatch (s : State) (n : Nat) (x : Option Session) : (setSession s n x).plLatch = s.plLatch := rfl
@[simp] theorem setSession_clPend (s : State) (n : Nat) (x : Option Session) : (setSession s n x).clPend = s.clPend := rfl
@[simp] theorem setSession_clLatch (s : State) (n : Nat) (x : Option Session) : (setSession s n x).clLatch = s.clLatch := rfl
@[simp] theorem setSession_colours (s : State) (n : Nat) (x : Option Session) : (setSession s n x).colours = s.colours := rfl
@[simp] theorem setSession_streams (s : State) (n : Nat) (x : Option Session) : (setSession s n x).streams = s.streams := rfl
@[simp] theorem setSession_tiles (s : State) (n : Nat) (x : Option Session) : (setSession s n x).tiles = s.tiles := rfl
@[simp] theorem setSession_cores (s : State) (n : Nat) (x : Option Session) : (setSession s n x).cores = s.cores := rfl
@[simp] theorem setSession_chans (s : State) (n : Nat) (x : Option Session) : (setSession s n x).chans = s.chans := rfl
@[simp] theorem setSession_turn (s : State) (n : Nat) (x : Option Session) : (setSession s n x).turn = s.turn := rfl
@[simp] theorem setSession_pulses (s : State) (n : Nat) (x : Option Session) : (setSession s n x).pulses = s.pulses := rfl
@[simp] theorem setSession_bru (s : State) (n : Nat) (x : Option Session) : (setSession s n x).bru = s.bru := rfl
@[simp] theorem setSession_flags (s : State) (n : Nat) (x : Option Session) : (setSession s n x).flags = s.flags := rfl
@[simp] theorem setSession_groups (s : State) (n : Nat) (x : Option Session) : (setSession s n x).groups = s.groups := rfl
@[simp] theorem setSession_waits (s : State) (n : Nat) (x : Option Session) : (setSession s n x).waits = s.waits := rfl
@[simp] theorem setSession_updates (s : State) (n : Nat) (x : Option Session) : (setSession s n x).updates = s.updates := rfl
@[simp] theorem setSession_checks (s : State) (n : Nat) (x : Option Session) : (setSession s n x).checks = s.checks := rfl
@[simp] theorem setSession_slots (s : State) (n : Nat) (x : Option Session) : (setSession s n x).slots = s.slots := rfl
@[simp] theorem setSession_queues (s : State) (n : Nat) (x : Option Session) : (setSession s n x).queues = s.queues := rfl
@[simp] theorem setSession_granules (s : State) (n : Nat) (x : Option Session) : (setSession s n x).granules = s.granules := rfl
@[simp] theorem setSession_shm (s : State) (n : Nat) (x : Option Session) : (setSession s n x).shm = s.shm := rfl
@[simp] theorem setSession_ddr (s : State) (n : Nat) (x : Option Session) : (setSession s n x).ddr = s.ddr := rfl
@[simp] theorem setSession_poison (s : State) (n : Nat) (x : Option Session) : (setSession s n x).poison = s.poison := rfl
@[simp] theorem setSession_shmOff (s : State) (n : Nat) (x : Option Session) : (setSession s n x).shmOff = s.shmOff := rfl
@[simp] theorem setSession_inval (s : State) (n : Nat) (x : Option Session) : (setSession s n x).inval = s.inval := rfl
@[simp] theorem setSession_fc (s : State) (n : Nat) (x : Option Session) : (setSession s n x).fc = s.fc := rfl
@[simp] theorem setSession_sent (s : State) (n : Nat) (x : Option Session) : (setSession s n x).sent = s.sent := rfl
@[simp] theorem setSession_bridge (s : State) (n : Nat) (x : Option Session) : (setSession s n x).bridge = s.bridge := rfl
@[simp] theorem setSession_smi (s : State) (n : Nat) (x : Option Session) : (setSession s n x).smi = s.smi := rfl
@[simp] theorem setSession_power (s : State) (n : Nat) (x : Option Session) : (setSession s n x).power = s.power := rfl
@[simp] theorem setSession_boot (s : State) (n : Nat) (x : Option Session) : (setSession s n x).boot = s.boot := rfl
@[simp] theorem setSession_retire (s : State) (n : Nat) (x : Option Session) : (setSession s n x).retire = s.retire := rfl
@[simp] theorem setSession_fuses (s : State) (n : Nat) (x : Option Session) : (setSession s n x).fuses = s.fuses := rfl
@[simp] theorem setSession_flash (s : State) (n : Nat) (x : Option Session) : (setSession s n x).flash = s.flash := rfl
@[simp] theorem setSession_pins (s : State) (n : Nat) (x : Option Session) : (setSession s n x).pins = s.pins := rfl
@[simp] theorem setSession_licences (s : State) (n : Nat) (x : Option Session) : (setSession s n x).licences = s.licences := rfl
@[simp] theorem setSession_dbgOpen (s : State) (n : Nat) (x : Option Session) : (setSession s n x).dbgOpen = s.dbgOpen := rfl

@[simp] theorem setContext_pending (s : State) (c : Nat) (x : Option Context) : (setContext s c x).pending = s.pending := rfl
@[simp] theorem setContext_free (s : State) (c : Nat) (x : Option Context) : (setContext s c x).free = s.free := rfl
@[simp] theorem setContext_regs (s : State) (c : Nat) (x : Option Context) : (setContext s c x).regs = s.regs := rfl
@[simp] theorem setContext_mem (s : State) (c : Nat) (x : Option Context) : (setContext s c x).mem = s.mem := rfl
@[simp] theorem setContext_ddrBytes (s : State) (c : Nat) (x : Option Context) : (setContext s c x).ddrBytes = s.ddrBytes := rfl
@[simp] theorem setContext_clk (s : State) (c : Nat) (x : Option Context) : (setContext s c x).clk = s.clk := rfl
@[simp] theorem setContext_bus (s : State) (c : Nat) (x : Option Context) : (setContext s c x).bus = s.bus := rfl
@[simp] theorem setContext_latches (s : State) (c : Nat) (x : Option Context) : (setContext s c x).latches = s.latches := rfl
@[simp] theorem setContext_slow (s : State) (c : Nat) (x : Option Context) : (setContext s c x).slow = s.slow := rfl
@[simp] theorem setContext_resetting (s : State) (c : Nat) (x : Option Context) : (setContext s c x).resetting = s.resetting := rfl
@[simp] theorem setContext_moves (s : State) (c : Nat) (x : Option Context) : (setContext s c x).moves = s.moves := rfl
@[simp] theorem setContext_leaving (s : State) (c : Nat) (x : Option Context) : (setContext s c x).leaving = s.leaving := rfl
@[simp] theorem setContext_endsTaken (s : State) (c : Nat) (x : Option Context) : (setContext s c x).endsTaken = s.endsTaken := rfl
@[simp] theorem setContext_buses (s : State) (c : Nat) (x : Option Context) : (setContext s c x).buses = s.buses := rfl
@[simp] theorem setContext_ports (s : State) (c : Nat) (x : Option Context) : (setContext s c x).ports = s.ports := rfl
@[simp] theorem setContext_banks (s : State) (c : Nat) (x : Option Context) : (setContext s c x).banks = s.banks := rfl
@[simp] theorem setContext_plates (s : State) (c : Nat) (x : Option Context) : (setContext s c x).plates = s.plates := rfl
@[simp] theorem setContext_plPend (s : State) (c : Nat) (x : Option Context) : (setContext s c x).plPend = s.plPend := rfl
@[simp] theorem setContext_plLatch (s : State) (c : Nat) (x : Option Context) : (setContext s c x).plLatch = s.plLatch := rfl
@[simp] theorem setContext_clPend (s : State) (c : Nat) (x : Option Context) : (setContext s c x).clPend = s.clPend := rfl
@[simp] theorem setContext_clLatch (s : State) (c : Nat) (x : Option Context) : (setContext s c x).clLatch = s.clLatch := rfl
@[simp] theorem setContext_colours (s : State) (c : Nat) (x : Option Context) : (setContext s c x).colours = s.colours := rfl
@[simp] theorem setContext_streams (s : State) (c : Nat) (x : Option Context) : (setContext s c x).streams = s.streams := rfl
@[simp] theorem setContext_tiles (s : State) (c : Nat) (x : Option Context) : (setContext s c x).tiles = s.tiles := rfl
@[simp] theorem setContext_cores (s : State) (c : Nat) (x : Option Context) : (setContext s c x).cores = s.cores := rfl
@[simp] theorem setContext_chans (s : State) (c : Nat) (x : Option Context) : (setContext s c x).chans = s.chans := rfl
@[simp] theorem setContext_turn (s : State) (c : Nat) (x : Option Context) : (setContext s c x).turn = s.turn := rfl
@[simp] theorem setContext_pulses (s : State) (c : Nat) (x : Option Context) : (setContext s c x).pulses = s.pulses := rfl
@[simp] theorem setContext_bru (s : State) (c : Nat) (x : Option Context) : (setContext s c x).bru = s.bru := rfl
@[simp] theorem setContext_flags (s : State) (c : Nat) (x : Option Context) : (setContext s c x).flags = s.flags := rfl
@[simp] theorem setContext_groups (s : State) (c : Nat) (x : Option Context) : (setContext s c x).groups = s.groups := rfl
@[simp] theorem setContext_waits (s : State) (c : Nat) (x : Option Context) : (setContext s c x).waits = s.waits := rfl
@[simp] theorem setContext_updates (s : State) (c : Nat) (x : Option Context) : (setContext s c x).updates = s.updates := rfl
@[simp] theorem setContext_checks (s : State) (c : Nat) (x : Option Context) : (setContext s c x).checks = s.checks := rfl
@[simp] theorem setContext_slots (s : State) (c : Nat) (x : Option Context) : (setContext s c x).slots = s.slots := rfl
@[simp] theorem setContext_queues (s : State) (c : Nat) (x : Option Context) : (setContext s c x).queues = s.queues := rfl
@[simp] theorem setContext_granules (s : State) (c : Nat) (x : Option Context) : (setContext s c x).granules = s.granules := rfl
@[simp] theorem setContext_shm (s : State) (c : Nat) (x : Option Context) : (setContext s c x).shm = s.shm := rfl
@[simp] theorem setContext_ddr (s : State) (c : Nat) (x : Option Context) : (setContext s c x).ddr = s.ddr := rfl
@[simp] theorem setContext_poison (s : State) (c : Nat) (x : Option Context) : (setContext s c x).poison = s.poison := rfl
@[simp] theorem setContext_shmOff (s : State) (c : Nat) (x : Option Context) : (setContext s c x).shmOff = s.shmOff := rfl
@[simp] theorem setContext_inval (s : State) (c : Nat) (x : Option Context) : (setContext s c x).inval = s.inval := rfl
@[simp] theorem setContext_fc (s : State) (c : Nat) (x : Option Context) : (setContext s c x).fc = s.fc := rfl
@[simp] theorem setContext_sent (s : State) (c : Nat) (x : Option Context) : (setContext s c x).sent = s.sent := rfl
@[simp] theorem setContext_bridge (s : State) (c : Nat) (x : Option Context) : (setContext s c x).bridge = s.bridge := rfl
@[simp] theorem setContext_smi (s : State) (c : Nat) (x : Option Context) : (setContext s c x).smi = s.smi := rfl
@[simp] theorem setContext_power (s : State) (c : Nat) (x : Option Context) : (setContext s c x).power = s.power := rfl
@[simp] theorem setContext_boot (s : State) (c : Nat) (x : Option Context) : (setContext s c x).boot = s.boot := rfl
@[simp] theorem setContext_retire (s : State) (c : Nat) (x : Option Context) : (setContext s c x).retire = s.retire := rfl
@[simp] theorem setContext_fuses (s : State) (c : Nat) (x : Option Context) : (setContext s c x).fuses = s.fuses := rfl
@[simp] theorem setContext_flash (s : State) (c : Nat) (x : Option Context) : (setContext s c x).flash = s.flash := rfl
@[simp] theorem setContext_pins (s : State) (c : Nat) (x : Option Context) : (setContext s c x).pins = s.pins := rfl
@[simp] theorem setContext_licences (s : State) (c : Nat) (x : Option Context) : (setContext s c x).licences = s.licences := rfl
@[simp] theorem setContext_dbgOpen (s : State) (c : Nat) (x : Option Context) : (setContext s c x).dbgOpen = s.dbgOpen := rfl

@[simp] theorem setJob_pending (s : State) (j : Nat) (x : Option Job) : (setJob s j x).pending = s.pending := rfl
@[simp] theorem setJob_free (s : State) (j : Nat) (x : Option Job) : (setJob s j x).free = s.free := rfl
@[simp] theorem setJob_regs (s : State) (j : Nat) (x : Option Job) : (setJob s j x).regs = s.regs := rfl
@[simp] theorem setJob_mem (s : State) (j : Nat) (x : Option Job) : (setJob s j x).mem = s.mem := rfl
@[simp] theorem setJob_ddrBytes (s : State) (j : Nat) (x : Option Job) : (setJob s j x).ddrBytes = s.ddrBytes := rfl
@[simp] theorem setJob_clk (s : State) (j : Nat) (x : Option Job) : (setJob s j x).clk = s.clk := rfl
@[simp] theorem setJob_bus (s : State) (j : Nat) (x : Option Job) : (setJob s j x).bus = s.bus := rfl
@[simp] theorem setJob_latches (s : State) (j : Nat) (x : Option Job) : (setJob s j x).latches = s.latches := rfl
@[simp] theorem setJob_slow (s : State) (j : Nat) (x : Option Job) : (setJob s j x).slow = s.slow := rfl
@[simp] theorem setJob_resetting (s : State) (j : Nat) (x : Option Job) : (setJob s j x).resetting = s.resetting := rfl
@[simp] theorem setJob_moves (s : State) (j : Nat) (x : Option Job) : (setJob s j x).moves = s.moves := rfl
@[simp] theorem setJob_leaving (s : State) (j : Nat) (x : Option Job) : (setJob s j x).leaving = s.leaving := rfl
@[simp] theorem setJob_endsTaken (s : State) (j : Nat) (x : Option Job) : (setJob s j x).endsTaken = s.endsTaken := rfl
@[simp] theorem setJob_buses (s : State) (j : Nat) (x : Option Job) : (setJob s j x).buses = s.buses := rfl
@[simp] theorem setJob_ports (s : State) (j : Nat) (x : Option Job) : (setJob s j x).ports = s.ports := rfl
@[simp] theorem setJob_banks (s : State) (j : Nat) (x : Option Job) : (setJob s j x).banks = s.banks := rfl
@[simp] theorem setJob_plates (s : State) (j : Nat) (x : Option Job) : (setJob s j x).plates = s.plates := rfl
@[simp] theorem setJob_plPend (s : State) (j : Nat) (x : Option Job) : (setJob s j x).plPend = s.plPend := rfl
@[simp] theorem setJob_plLatch (s : State) (j : Nat) (x : Option Job) : (setJob s j x).plLatch = s.plLatch := rfl
@[simp] theorem setJob_clPend (s : State) (j : Nat) (x : Option Job) : (setJob s j x).clPend = s.clPend := rfl
@[simp] theorem setJob_clLatch (s : State) (j : Nat) (x : Option Job) : (setJob s j x).clLatch = s.clLatch := rfl
@[simp] theorem setJob_colours (s : State) (j : Nat) (x : Option Job) : (setJob s j x).colours = s.colours := rfl
@[simp] theorem setJob_streams (s : State) (j : Nat) (x : Option Job) : (setJob s j x).streams = s.streams := rfl
@[simp] theorem setJob_tiles (s : State) (j : Nat) (x : Option Job) : (setJob s j x).tiles = s.tiles := rfl
@[simp] theorem setJob_cores (s : State) (j : Nat) (x : Option Job) : (setJob s j x).cores = s.cores := rfl
@[simp] theorem setJob_chans (s : State) (j : Nat) (x : Option Job) : (setJob s j x).chans = s.chans := rfl
@[simp] theorem setJob_turn (s : State) (j : Nat) (x : Option Job) : (setJob s j x).turn = s.turn := rfl
@[simp] theorem setJob_pulses (s : State) (j : Nat) (x : Option Job) : (setJob s j x).pulses = s.pulses := rfl
@[simp] theorem setJob_bru (s : State) (j : Nat) (x : Option Job) : (setJob s j x).bru = s.bru := rfl
@[simp] theorem setJob_flags (s : State) (j : Nat) (x : Option Job) : (setJob s j x).flags = s.flags := rfl
@[simp] theorem setJob_groups (s : State) (j : Nat) (x : Option Job) : (setJob s j x).groups = s.groups := rfl
@[simp] theorem setJob_waits (s : State) (j : Nat) (x : Option Job) : (setJob s j x).waits = s.waits := rfl
@[simp] theorem setJob_updates (s : State) (j : Nat) (x : Option Job) : (setJob s j x).updates = s.updates := rfl
@[simp] theorem setJob_checks (s : State) (j : Nat) (x : Option Job) : (setJob s j x).checks = s.checks := rfl
@[simp] theorem setJob_slots (s : State) (j : Nat) (x : Option Job) : (setJob s j x).slots = s.slots := rfl
@[simp] theorem setJob_queues (s : State) (j : Nat) (x : Option Job) : (setJob s j x).queues = s.queues := rfl
@[simp] theorem setJob_granules (s : State) (j : Nat) (x : Option Job) : (setJob s j x).granules = s.granules := rfl
@[simp] theorem setJob_shm (s : State) (j : Nat) (x : Option Job) : (setJob s j x).shm = s.shm := rfl
@[simp] theorem setJob_ddr (s : State) (j : Nat) (x : Option Job) : (setJob s j x).ddr = s.ddr := rfl
@[simp] theorem setJob_poison (s : State) (j : Nat) (x : Option Job) : (setJob s j x).poison = s.poison := rfl
@[simp] theorem setJob_shmOff (s : State) (j : Nat) (x : Option Job) : (setJob s j x).shmOff = s.shmOff := rfl
@[simp] theorem setJob_inval (s : State) (j : Nat) (x : Option Job) : (setJob s j x).inval = s.inval := rfl
@[simp] theorem setJob_fc (s : State) (j : Nat) (x : Option Job) : (setJob s j x).fc = s.fc := rfl
@[simp] theorem setJob_sent (s : State) (j : Nat) (x : Option Job) : (setJob s j x).sent = s.sent := rfl
@[simp] theorem setJob_bridge (s : State) (j : Nat) (x : Option Job) : (setJob s j x).bridge = s.bridge := rfl
@[simp] theorem setJob_smi (s : State) (j : Nat) (x : Option Job) : (setJob s j x).smi = s.smi := rfl
@[simp] theorem setJob_power (s : State) (j : Nat) (x : Option Job) : (setJob s j x).power = s.power := rfl
@[simp] theorem setJob_boot (s : State) (j : Nat) (x : Option Job) : (setJob s j x).boot = s.boot := rfl
@[simp] theorem setJob_retire (s : State) (j : Nat) (x : Option Job) : (setJob s j x).retire = s.retire := rfl
@[simp] theorem setJob_fuses (s : State) (j : Nat) (x : Option Job) : (setJob s j x).fuses = s.fuses := rfl
@[simp] theorem setJob_flash (s : State) (j : Nat) (x : Option Job) : (setJob s j x).flash = s.flash := rfl
@[simp] theorem setJob_pins (s : State) (j : Nat) (x : Option Job) : (setJob s j x).pins = s.pins := rfl
@[simp] theorem setJob_licences (s : State) (j : Nat) (x : Option Job) : (setJob s j x).licences = s.licences := rfl
@[simp] theorem setJob_dbgOpen (s : State) (j : Nat) (x : Option Job) : (setJob s j x).dbgOpen = s.dbgOpen := rfl

@[simp] theorem setMbox_pending (s : State) (c : Nat) (x : Mailbox) : (setMbox s c x).pending = s.pending := rfl
@[simp] theorem setMbox_free (s : State) (c : Nat) (x : Mailbox) : (setMbox s c x).free = s.free := rfl
@[simp] theorem setMbox_regs (s : State) (c : Nat) (x : Mailbox) : (setMbox s c x).regs = s.regs := rfl
@[simp] theorem setMbox_mem (s : State) (c : Nat) (x : Mailbox) : (setMbox s c x).mem = s.mem := rfl
@[simp] theorem setMbox_ddrBytes (s : State) (c : Nat) (x : Mailbox) : (setMbox s c x).ddrBytes = s.ddrBytes := rfl
@[simp] theorem setMbox_clk (s : State) (c : Nat) (x : Mailbox) : (setMbox s c x).clk = s.clk := rfl
@[simp] theorem setMbox_bus (s : State) (c : Nat) (x : Mailbox) : (setMbox s c x).bus = s.bus := rfl
@[simp] theorem setMbox_latches (s : State) (c : Nat) (x : Mailbox) : (setMbox s c x).latches = s.latches := rfl
@[simp] theorem setMbox_slow (s : State) (c : Nat) (x : Mailbox) : (setMbox s c x).slow = s.slow := rfl
@[simp] theorem setMbox_resetting (s : State) (c : Nat) (x : Mailbox) : (setMbox s c x).resetting = s.resetting := rfl
@[simp] theorem setMbox_moves (s : State) (c : Nat) (x : Mailbox) : (setMbox s c x).moves = s.moves := rfl
@[simp] theorem setMbox_leaving (s : State) (c : Nat) (x : Mailbox) : (setMbox s c x).leaving = s.leaving := rfl
@[simp] theorem setMbox_endsTaken (s : State) (c : Nat) (x : Mailbox) : (setMbox s c x).endsTaken = s.endsTaken := rfl
@[simp] theorem setMbox_buses (s : State) (c : Nat) (x : Mailbox) : (setMbox s c x).buses = s.buses := rfl
@[simp] theorem setMbox_ports (s : State) (c : Nat) (x : Mailbox) : (setMbox s c x).ports = s.ports := rfl
@[simp] theorem setMbox_banks (s : State) (c : Nat) (x : Mailbox) : (setMbox s c x).banks = s.banks := rfl
@[simp] theorem setMbox_plates (s : State) (c : Nat) (x : Mailbox) : (setMbox s c x).plates = s.plates := rfl
@[simp] theorem setMbox_plPend (s : State) (c : Nat) (x : Mailbox) : (setMbox s c x).plPend = s.plPend := rfl
@[simp] theorem setMbox_plLatch (s : State) (c : Nat) (x : Mailbox) : (setMbox s c x).plLatch = s.plLatch := rfl
@[simp] theorem setMbox_clPend (s : State) (c : Nat) (x : Mailbox) : (setMbox s c x).clPend = s.clPend := rfl
@[simp] theorem setMbox_clLatch (s : State) (c : Nat) (x : Mailbox) : (setMbox s c x).clLatch = s.clLatch := rfl
@[simp] theorem setMbox_colours (s : State) (c : Nat) (x : Mailbox) : (setMbox s c x).colours = s.colours := rfl
@[simp] theorem setMbox_streams (s : State) (c : Nat) (x : Mailbox) : (setMbox s c x).streams = s.streams := rfl
@[simp] theorem setMbox_tiles (s : State) (c : Nat) (x : Mailbox) : (setMbox s c x).tiles = s.tiles := rfl
@[simp] theorem setMbox_cores (s : State) (c : Nat) (x : Mailbox) : (setMbox s c x).cores = s.cores := rfl
@[simp] theorem setMbox_chans (s : State) (c : Nat) (x : Mailbox) : (setMbox s c x).chans = s.chans := rfl
@[simp] theorem setMbox_turn (s : State) (c : Nat) (x : Mailbox) : (setMbox s c x).turn = s.turn := rfl
@[simp] theorem setMbox_pulses (s : State) (c : Nat) (x : Mailbox) : (setMbox s c x).pulses = s.pulses := rfl
@[simp] theorem setMbox_bru (s : State) (c : Nat) (x : Mailbox) : (setMbox s c x).bru = s.bru := rfl
@[simp] theorem setMbox_flags (s : State) (c : Nat) (x : Mailbox) : (setMbox s c x).flags = s.flags := rfl
@[simp] theorem setMbox_groups (s : State) (c : Nat) (x : Mailbox) : (setMbox s c x).groups = s.groups := rfl
@[simp] theorem setMbox_waits (s : State) (c : Nat) (x : Mailbox) : (setMbox s c x).waits = s.waits := rfl
@[simp] theorem setMbox_updates (s : State) (c : Nat) (x : Mailbox) : (setMbox s c x).updates = s.updates := rfl
@[simp] theorem setMbox_checks (s : State) (c : Nat) (x : Mailbox) : (setMbox s c x).checks = s.checks := rfl
@[simp] theorem setMbox_slots (s : State) (c : Nat) (x : Mailbox) : (setMbox s c x).slots = s.slots := rfl
@[simp] theorem setMbox_queues (s : State) (c : Nat) (x : Mailbox) : (setMbox s c x).queues = s.queues := rfl
@[simp] theorem setMbox_granules (s : State) (c : Nat) (x : Mailbox) : (setMbox s c x).granules = s.granules := rfl
@[simp] theorem setMbox_shm (s : State) (c : Nat) (x : Mailbox) : (setMbox s c x).shm = s.shm := rfl
@[simp] theorem setMbox_ddr (s : State) (c : Nat) (x : Mailbox) : (setMbox s c x).ddr = s.ddr := rfl
@[simp] theorem setMbox_poison (s : State) (c : Nat) (x : Mailbox) : (setMbox s c x).poison = s.poison := rfl
@[simp] theorem setMbox_shmOff (s : State) (c : Nat) (x : Mailbox) : (setMbox s c x).shmOff = s.shmOff := rfl
@[simp] theorem setMbox_inval (s : State) (c : Nat) (x : Mailbox) : (setMbox s c x).inval = s.inval := rfl
@[simp] theorem setMbox_fc (s : State) (c : Nat) (x : Mailbox) : (setMbox s c x).fc = s.fc := rfl
@[simp] theorem setMbox_sent (s : State) (c : Nat) (x : Mailbox) : (setMbox s c x).sent = s.sent := rfl
@[simp] theorem setMbox_bridge (s : State) (c : Nat) (x : Mailbox) : (setMbox s c x).bridge = s.bridge := rfl
@[simp] theorem setMbox_smi (s : State) (c : Nat) (x : Mailbox) : (setMbox s c x).smi = s.smi := rfl
@[simp] theorem setMbox_power (s : State) (c : Nat) (x : Mailbox) : (setMbox s c x).power = s.power := rfl
@[simp] theorem setMbox_boot (s : State) (c : Nat) (x : Mailbox) : (setMbox s c x).boot = s.boot := rfl
@[simp] theorem setMbox_retire (s : State) (c : Nat) (x : Mailbox) : (setMbox s c x).retire = s.retire := rfl
@[simp] theorem setMbox_fuses (s : State) (c : Nat) (x : Mailbox) : (setMbox s c x).fuses = s.fuses := rfl
@[simp] theorem setMbox_flash (s : State) (c : Nat) (x : Mailbox) : (setMbox s c x).flash = s.flash := rfl
@[simp] theorem setMbox_pins (s : State) (c : Nat) (x : Mailbox) : (setMbox s c x).pins = s.pins := rfl
@[simp] theorem setMbox_licences (s : State) (c : Nat) (x : Mailbox) : (setMbox s c x).licences = s.licences := rfl
@[simp] theorem setMbox_dbgOpen (s : State) (c : Nat) (x : Mailbox) : (setMbox s c x).dbgOpen = s.dbgOpen := rfl

@[simp] theorem setPort_pending (s : State) (p : Nat) (x : NetPort) : (setPort s p x).pending = s.pending := rfl
@[simp] theorem setPort_free (s : State) (p : Nat) (x : NetPort) : (setPort s p x).free = s.free := rfl
@[simp] theorem setPort_regs (s : State) (p : Nat) (x : NetPort) : (setPort s p x).regs = s.regs := rfl
@[simp] theorem setPort_mem (s : State) (p : Nat) (x : NetPort) : (setPort s p x).mem = s.mem := rfl
@[simp] theorem setPort_ddrBytes (s : State) (p : Nat) (x : NetPort) : (setPort s p x).ddrBytes = s.ddrBytes := rfl
@[simp] theorem setPort_clk (s : State) (p : Nat) (x : NetPort) : (setPort s p x).clk = s.clk := rfl
@[simp] theorem setPort_bus (s : State) (p : Nat) (x : NetPort) : (setPort s p x).bus = s.bus := rfl
@[simp] theorem setPort_latches (s : State) (p : Nat) (x : NetPort) : (setPort s p x).latches = s.latches := rfl
@[simp] theorem setPort_slow (s : State) (p : Nat) (x : NetPort) : (setPort s p x).slow = s.slow := rfl
@[simp] theorem setPort_resetting (s : State) (p : Nat) (x : NetPort) : (setPort s p x).resetting = s.resetting := rfl
@[simp] theorem setPort_moves (s : State) (p : Nat) (x : NetPort) : (setPort s p x).moves = s.moves := rfl
@[simp] theorem setPort_leaving (s : State) (p : Nat) (x : NetPort) : (setPort s p x).leaving = s.leaving := rfl
@[simp] theorem setPort_endsTaken (s : State) (p : Nat) (x : NetPort) : (setPort s p x).endsTaken = s.endsTaken := rfl
@[simp] theorem setPort_buses (s : State) (p : Nat) (x : NetPort) : (setPort s p x).buses = s.buses := rfl
@[simp] theorem setPort_ports (s : State) (p : Nat) (x : NetPort) : (setPort s p x).ports = s.ports := rfl
@[simp] theorem setPort_banks (s : State) (p : Nat) (x : NetPort) : (setPort s p x).banks = s.banks := rfl
@[simp] theorem setPort_plates (s : State) (p : Nat) (x : NetPort) : (setPort s p x).plates = s.plates := rfl
@[simp] theorem setPort_plPend (s : State) (p : Nat) (x : NetPort) : (setPort s p x).plPend = s.plPend := rfl
@[simp] theorem setPort_plLatch (s : State) (p : Nat) (x : NetPort) : (setPort s p x).plLatch = s.plLatch := rfl
@[simp] theorem setPort_clPend (s : State) (p : Nat) (x : NetPort) : (setPort s p x).clPend = s.clPend := rfl
@[simp] theorem setPort_clLatch (s : State) (p : Nat) (x : NetPort) : (setPort s p x).clLatch = s.clLatch := rfl
@[simp] theorem setPort_colours (s : State) (p : Nat) (x : NetPort) : (setPort s p x).colours = s.colours := rfl
@[simp] theorem setPort_streams (s : State) (p : Nat) (x : NetPort) : (setPort s p x).streams = s.streams := rfl
@[simp] theorem setPort_tiles (s : State) (p : Nat) (x : NetPort) : (setPort s p x).tiles = s.tiles := rfl
@[simp] theorem setPort_cores (s : State) (p : Nat) (x : NetPort) : (setPort s p x).cores = s.cores := rfl
@[simp] theorem setPort_chans (s : State) (p : Nat) (x : NetPort) : (setPort s p x).chans = s.chans := rfl
@[simp] theorem setPort_turn (s : State) (p : Nat) (x : NetPort) : (setPort s p x).turn = s.turn := rfl
@[simp] theorem setPort_pulses (s : State) (p : Nat) (x : NetPort) : (setPort s p x).pulses = s.pulses := rfl
@[simp] theorem setPort_bru (s : State) (p : Nat) (x : NetPort) : (setPort s p x).bru = s.bru := rfl
@[simp] theorem setPort_flags (s : State) (p : Nat) (x : NetPort) : (setPort s p x).flags = s.flags := rfl
@[simp] theorem setPort_groups (s : State) (p : Nat) (x : NetPort) : (setPort s p x).groups = s.groups := rfl
@[simp] theorem setPort_waits (s : State) (p : Nat) (x : NetPort) : (setPort s p x).waits = s.waits := rfl
@[simp] theorem setPort_updates (s : State) (p : Nat) (x : NetPort) : (setPort s p x).updates = s.updates := rfl
@[simp] theorem setPort_checks (s : State) (p : Nat) (x : NetPort) : (setPort s p x).checks = s.checks := rfl
@[simp] theorem setPort_slots (s : State) (p : Nat) (x : NetPort) : (setPort s p x).slots = s.slots := rfl
@[simp] theorem setPort_queues (s : State) (p : Nat) (x : NetPort) : (setPort s p x).queues = s.queues := rfl
@[simp] theorem setPort_granules (s : State) (p : Nat) (x : NetPort) : (setPort s p x).granules = s.granules := rfl
@[simp] theorem setPort_shm (s : State) (p : Nat) (x : NetPort) : (setPort s p x).shm = s.shm := rfl
@[simp] theorem setPort_ddr (s : State) (p : Nat) (x : NetPort) : (setPort s p x).ddr = s.ddr := rfl
@[simp] theorem setPort_poison (s : State) (p : Nat) (x : NetPort) : (setPort s p x).poison = s.poison := rfl
@[simp] theorem setPort_shmOff (s : State) (p : Nat) (x : NetPort) : (setPort s p x).shmOff = s.shmOff := rfl
@[simp] theorem setPort_inval (s : State) (p : Nat) (x : NetPort) : (setPort s p x).inval = s.inval := rfl
@[simp] theorem setPort_fc (s : State) (p : Nat) (x : NetPort) : (setPort s p x).fc = s.fc := rfl
@[simp] theorem setPort_sent (s : State) (p : Nat) (x : NetPort) : (setPort s p x).sent = s.sent := rfl
@[simp] theorem setPort_bridge (s : State) (p : Nat) (x : NetPort) : (setPort s p x).bridge = s.bridge := rfl
@[simp] theorem setPort_smi (s : State) (p : Nat) (x : NetPort) : (setPort s p x).smi = s.smi := rfl
@[simp] theorem setPort_power (s : State) (p : Nat) (x : NetPort) : (setPort s p x).power = s.power := rfl
@[simp] theorem setPort_boot (s : State) (p : Nat) (x : NetPort) : (setPort s p x).boot = s.boot := rfl
@[simp] theorem setPort_retire (s : State) (p : Nat) (x : NetPort) : (setPort s p x).retire = s.retire := rfl
@[simp] theorem setPort_fuses (s : State) (p : Nat) (x : NetPort) : (setPort s p x).fuses = s.fuses := rfl
@[simp] theorem setPort_flash (s : State) (p : Nat) (x : NetPort) : (setPort s p x).flash = s.flash := rfl
@[simp] theorem setPort_pins (s : State) (p : Nat) (x : NetPort) : (setPort s p x).pins = s.pins := rfl
@[simp] theorem setPort_licences (s : State) (p : Nat) (x : NetPort) : (setPort s p x).licences = s.licences := rfl
@[simp] theorem setPort_dbgOpen (s : State) (p : Nat) (x : NetPort) : (setPort s p x).dbgOpen = s.dbgOpen := rfl

@[simp] theorem setFlag_pending (s : State) (f : Nat) (v : Word) : (setFlag s f v).pending = s.pending := rfl
@[simp] theorem setFlag_free (s : State) (f : Nat) (v : Word) : (setFlag s f v).free = s.free := rfl
@[simp] theorem setFlag_regs (s : State) (f : Nat) (v : Word) : (setFlag s f v).regs = s.regs := rfl
@[simp] theorem setFlag_mem (s : State) (f : Nat) (v : Word) : (setFlag s f v).mem = s.mem := rfl
@[simp] theorem setFlag_ddrBytes (s : State) (f : Nat) (v : Word) : (setFlag s f v).ddrBytes = s.ddrBytes := rfl
@[simp] theorem setFlag_clk (s : State) (f : Nat) (v : Word) : (setFlag s f v).clk = s.clk := rfl
@[simp] theorem setFlag_bus (s : State) (f : Nat) (v : Word) : (setFlag s f v).bus = s.bus := rfl
@[simp] theorem setFlag_latches (s : State) (f : Nat) (v : Word) : (setFlag s f v).latches = s.latches := rfl
@[simp] theorem setFlag_slow (s : State) (f : Nat) (v : Word) : (setFlag s f v).slow = s.slow := rfl
@[simp] theorem setFlag_resetting (s : State) (f : Nat) (v : Word) : (setFlag s f v).resetting = s.resetting := rfl
@[simp] theorem setFlag_moves (s : State) (f : Nat) (v : Word) : (setFlag s f v).moves = s.moves := rfl
@[simp] theorem setFlag_leaving (s : State) (f : Nat) (v : Word) : (setFlag s f v).leaving = s.leaving := rfl
@[simp] theorem setFlag_endsTaken (s : State) (f : Nat) (v : Word) : (setFlag s f v).endsTaken = s.endsTaken := rfl
@[simp] theorem setFlag_buses (s : State) (f : Nat) (v : Word) : (setFlag s f v).buses = s.buses := rfl
@[simp] theorem setFlag_ports (s : State) (f : Nat) (v : Word) : (setFlag s f v).ports = s.ports := rfl
@[simp] theorem setFlag_banks (s : State) (f : Nat) (v : Word) : (setFlag s f v).banks = s.banks := rfl
@[simp] theorem setFlag_plates (s : State) (f : Nat) (v : Word) : (setFlag s f v).plates = s.plates := rfl
@[simp] theorem setFlag_plPend (s : State) (f : Nat) (v : Word) : (setFlag s f v).plPend = s.plPend := rfl
@[simp] theorem setFlag_plLatch (s : State) (f : Nat) (v : Word) : (setFlag s f v).plLatch = s.plLatch := rfl
@[simp] theorem setFlag_clPend (s : State) (f : Nat) (v : Word) : (setFlag s f v).clPend = s.clPend := rfl
@[simp] theorem setFlag_clLatch (s : State) (f : Nat) (v : Word) : (setFlag s f v).clLatch = s.clLatch := rfl
@[simp] theorem setFlag_colours (s : State) (f : Nat) (v : Word) : (setFlag s f v).colours = s.colours := rfl
@[simp] theorem setFlag_streams (s : State) (f : Nat) (v : Word) : (setFlag s f v).streams = s.streams := rfl
@[simp] theorem setFlag_tiles (s : State) (f : Nat) (v : Word) : (setFlag s f v).tiles = s.tiles := rfl
@[simp] theorem setFlag_cores (s : State) (f : Nat) (v : Word) : (setFlag s f v).cores = s.cores := rfl
@[simp] theorem setFlag_chans (s : State) (f : Nat) (v : Word) : (setFlag s f v).chans = s.chans := rfl
@[simp] theorem setFlag_turn (s : State) (f : Nat) (v : Word) : (setFlag s f v).turn = s.turn := rfl
@[simp] theorem setFlag_pulses (s : State) (f : Nat) (v : Word) : (setFlag s f v).pulses = s.pulses := rfl
@[simp] theorem setFlag_bru (s : State) (f : Nat) (v : Word) : (setFlag s f v).bru = s.bru := rfl
@[simp] theorem setFlag_groups (s : State) (f : Nat) (v : Word) : (setFlag s f v).groups = s.groups := rfl
@[simp] theorem setFlag_waits (s : State) (f : Nat) (v : Word) : (setFlag s f v).waits = s.waits := rfl
@[simp] theorem setFlag_updates (s : State) (f : Nat) (v : Word) : (setFlag s f v).updates = s.updates := rfl
@[simp] theorem setFlag_checks (s : State) (f : Nat) (v : Word) : (setFlag s f v).checks = s.checks := rfl
@[simp] theorem setFlag_slots (s : State) (f : Nat) (v : Word) : (setFlag s f v).slots = s.slots := rfl
@[simp] theorem setFlag_queues (s : State) (f : Nat) (v : Word) : (setFlag s f v).queues = s.queues := rfl
@[simp] theorem setFlag_granules (s : State) (f : Nat) (v : Word) : (setFlag s f v).granules = s.granules := rfl
@[simp] theorem setFlag_shm (s : State) (f : Nat) (v : Word) : (setFlag s f v).shm = s.shm := rfl
@[simp] theorem setFlag_ddr (s : State) (f : Nat) (v : Word) : (setFlag s f v).ddr = s.ddr := rfl
@[simp] theorem setFlag_poison (s : State) (f : Nat) (v : Word) : (setFlag s f v).poison = s.poison := rfl
@[simp] theorem setFlag_shmOff (s : State) (f : Nat) (v : Word) : (setFlag s f v).shmOff = s.shmOff := rfl
@[simp] theorem setFlag_inval (s : State) (f : Nat) (v : Word) : (setFlag s f v).inval = s.inval := rfl
@[simp] theorem setFlag_fc (s : State) (f : Nat) (v : Word) : (setFlag s f v).fc = s.fc := rfl
@[simp] theorem setFlag_host (s : State) (f : Nat) (v : Word) : (setFlag s f v).host = s.host := rfl
@[simp] theorem setFlag_sent (s : State) (f : Nat) (v : Word) : (setFlag s f v).sent = s.sent := rfl
@[simp] theorem setFlag_bridge (s : State) (f : Nat) (v : Word) : (setFlag s f v).bridge = s.bridge := rfl
@[simp] theorem setFlag_smi (s : State) (f : Nat) (v : Word) : (setFlag s f v).smi = s.smi := rfl
@[simp] theorem setFlag_power (s : State) (f : Nat) (v : Word) : (setFlag s f v).power = s.power := rfl
@[simp] theorem setFlag_boot (s : State) (f : Nat) (v : Word) : (setFlag s f v).boot = s.boot := rfl
@[simp] theorem setFlag_retire (s : State) (f : Nat) (v : Word) : (setFlag s f v).retire = s.retire := rfl
@[simp] theorem setFlag_fuses (s : State) (f : Nat) (v : Word) : (setFlag s f v).fuses = s.fuses := rfl
@[simp] theorem setFlag_flash (s : State) (f : Nat) (v : Word) : (setFlag s f v).flash = s.flash := rfl
@[simp] theorem setFlag_pins (s : State) (f : Nat) (v : Word) : (setFlag s f v).pins = s.pins := rfl
@[simp] theorem setFlag_licences (s : State) (f : Nat) (v : Word) : (setFlag s f v).licences = s.licences := rfl
@[simp] theorem setFlag_dbgOpen (s : State) (f : Nat) (v : Word) : (setFlag s f v).dbgOpen = s.dbgOpen := rfl

@[simp] theorem raise_pending (s : State) (e : FaultEv) : (raise s e).pending = s.pending := rfl
@[simp] theorem raise_free (s : State) (e : FaultEv) : (raise s e).free = s.free := rfl
@[simp] theorem raise_regs (s : State) (e : FaultEv) : (raise s e).regs = s.regs := rfl
@[simp] theorem raise_mem (s : State) (e : FaultEv) : (raise s e).mem = s.mem := rfl
@[simp] theorem raise_ddrBytes (s : State) (e : FaultEv) : (raise s e).ddrBytes = s.ddrBytes := rfl
@[simp] theorem raise_clk (s : State) (e : FaultEv) : (raise s e).clk = s.clk := rfl
@[simp] theorem raise_bus (s : State) (e : FaultEv) : (raise s e).bus = s.bus := rfl
@[simp] theorem raise_latches (s : State) (e : FaultEv) : (raise s e).latches = s.latches := rfl
@[simp] theorem raise_slow (s : State) (e : FaultEv) : (raise s e).slow = s.slow := rfl
@[simp] theorem raise_resetting (s : State) (e : FaultEv) : (raise s e).resetting = s.resetting := rfl
@[simp] theorem raise_moves (s : State) (e : FaultEv) : (raise s e).moves = s.moves := rfl
@[simp] theorem raise_leaving (s : State) (e : FaultEv) : (raise s e).leaving = s.leaving := rfl
@[simp] theorem raise_endsTaken (s : State) (e : FaultEv) : (raise s e).endsTaken = s.endsTaken := rfl
@[simp] theorem raise_buses (s : State) (e : FaultEv) : (raise s e).buses = s.buses := rfl
@[simp] theorem raise_ports (s : State) (e : FaultEv) : (raise s e).ports = s.ports := rfl
@[simp] theorem raise_banks (s : State) (e : FaultEv) : (raise s e).banks = s.banks := rfl
@[simp] theorem raise_plates (s : State) (e : FaultEv) : (raise s e).plates = s.plates := rfl
@[simp] theorem raise_plPend (s : State) (e : FaultEv) : (raise s e).plPend = s.plPend := rfl
@[simp] theorem raise_plLatch (s : State) (e : FaultEv) : (raise s e).plLatch = s.plLatch := rfl
@[simp] theorem raise_clPend (s : State) (e : FaultEv) : (raise s e).clPend = s.clPend := rfl
@[simp] theorem raise_clLatch (s : State) (e : FaultEv) : (raise s e).clLatch = s.clLatch := rfl
@[simp] theorem raise_colours (s : State) (e : FaultEv) : (raise s e).colours = s.colours := rfl
@[simp] theorem raise_streams (s : State) (e : FaultEv) : (raise s e).streams = s.streams := rfl
@[simp] theorem raise_tiles (s : State) (e : FaultEv) : (raise s e).tiles = s.tiles := rfl
@[simp] theorem raise_cores (s : State) (e : FaultEv) : (raise s e).cores = s.cores := rfl
@[simp] theorem raise_chans (s : State) (e : FaultEv) : (raise s e).chans = s.chans := rfl
@[simp] theorem raise_turn (s : State) (e : FaultEv) : (raise s e).turn = s.turn := rfl
@[simp] theorem raise_pulses (s : State) (e : FaultEv) : (raise s e).pulses = s.pulses := rfl
@[simp] theorem raise_bru (s : State) (e : FaultEv) : (raise s e).bru = s.bru := rfl
@[simp] theorem raise_flags (s : State) (e : FaultEv) : (raise s e).flags = s.flags := rfl
@[simp] theorem raise_groups (s : State) (e : FaultEv) : (raise s e).groups = s.groups := rfl
@[simp] theorem raise_waits (s : State) (e : FaultEv) : (raise s e).waits = s.waits := rfl
@[simp] theorem raise_updates (s : State) (e : FaultEv) : (raise s e).updates = s.updates := rfl
@[simp] theorem raise_checks (s : State) (e : FaultEv) : (raise s e).checks = s.checks := rfl
@[simp] theorem raise_slots (s : State) (e : FaultEv) : (raise s e).slots = s.slots := rfl
@[simp] theorem raise_queues (s : State) (e : FaultEv) : (raise s e).queues = s.queues := rfl
@[simp] theorem raise_granules (s : State) (e : FaultEv) : (raise s e).granules = s.granules := rfl
@[simp] theorem raise_shm (s : State) (e : FaultEv) : (raise s e).shm = s.shm := rfl
@[simp] theorem raise_ddr (s : State) (e : FaultEv) : (raise s e).ddr = s.ddr := rfl
@[simp] theorem raise_poison (s : State) (e : FaultEv) : (raise s e).poison = s.poison := rfl
@[simp] theorem raise_shmOff (s : State) (e : FaultEv) : (raise s e).shmOff = s.shmOff := rfl
@[simp] theorem raise_inval (s : State) (e : FaultEv) : (raise s e).inval = s.inval := rfl
@[simp] theorem raise_host (s : State) (e : FaultEv) : (raise s e).host = s.host := rfl
@[simp] theorem raise_sent (s : State) (e : FaultEv) : (raise s e).sent = s.sent := rfl
@[simp] theorem raise_bridge (s : State) (e : FaultEv) : (raise s e).bridge = s.bridge := rfl
@[simp] theorem raise_smi (s : State) (e : FaultEv) : (raise s e).smi = s.smi := rfl
@[simp] theorem raise_power (s : State) (e : FaultEv) : (raise s e).power = s.power := rfl
@[simp] theorem raise_boot (s : State) (e : FaultEv) : (raise s e).boot = s.boot := rfl
@[simp] theorem raise_retire (s : State) (e : FaultEv) : (raise s e).retire = s.retire := rfl
@[simp] theorem raise_fuses (s : State) (e : FaultEv) : (raise s e).fuses = s.fuses := rfl
@[simp] theorem raise_flash (s : State) (e : FaultEv) : (raise s e).flash = s.flash := rfl
@[simp] theorem raise_pins (s : State) (e : FaultEv) : (raise s e).pins = s.pins := rfl
@[simp] theorem raise_licences (s : State) (e : FaultEv) : (raise s e).licences = s.licences := rfl
@[simp] theorem raise_dbgOpen (s : State) (e : FaultEv) : (raise s e).dbgOpen = s.dbgOpen := rfl

/-! ### Objects an update leaves alone -/

@[simp] theorem byteAt_setWord (s : State) (k : Nat) (v : Word) (j' : Nat) : byteAt (setWord s k v) j' = byteAt s j' := rfl
@[simp] theorem tileOf_setWord (s : State) (k : Nat) (v : Word) (j' : Nat) : tileOf (setWord s k v) j' = tileOf s j' := rfl
@[simp] theorem coreOf_setWord (s : State) (k : Nat) (v : Word) (j' : Nat) : coreOf (setWord s k v) j' = coreOf s j' := rfl
@[simp] theorem chanOf_setWord (s : State) (k : Nat) (v : Word) (j' : Nat) : chanOf (setWord s k v) j' = chanOf s j' := rfl
@[simp] theorem bankOf_setWord (s : State) (k : Nat) (v : Word) (j' j2' : Nat) : bankOf (setWord s k v) j' j2' = bankOf s j' j2' := rfl
@[simp] theorem streamOf_setWord (s : State) (k : Nat) (v : Word) (j' : Nat) : streamOf (setWord s k v) j' = streamOf s j' := rfl
@[simp] theorem bruSlotOf_setWord (s : State) (k : Nat) (v : Word) (j' : Nat) : bruSlotOf (setWord s k v) j' = bruSlotOf s j' := rfl
@[simp] theorem queueOf_setWord (s : State) (k : Nat) (v : Word) (j' : Nat) : queueOf (setWord s k v) j' = queueOf s j' := rfl
@[simp] theorem slotOf_setWord (s : State) (k : Nat) (v : Word) (j' : Nat) : slotOf (setWord s k v) j' = slotOf s j' := rfl
@[simp] theorem groupOf_setWord (s : State) (k : Nat) (v : Word) (j' : Nat) : groupOf (setWord s k v) j' = groupOf s j' := rfl
@[simp] theorem granOf_setWord (s : State) (k : Nat) (v : Word) (j' : Nat) : granOf (setWord s k v) j' = granOf s j' := rfl
@[simp] theorem shmOf_setWord (s : State) (k : Nat) (v : Word) (j' : Nat) : shmOf (setWord s k v) j' = shmOf s j' := rfl
@[simp] theorem ddrOf_setWord (s : State) (k : Nat) (v : Word) (j' : Nat) : ddrOf (setWord s k v) j' = ddrOf s j' := rfl
@[simp] theorem partOf_setWord (s : State) (k : Nat) (v : Word) (j' : Nat) : partOf (setWord s k v) j' = partOf s j' := rfl
@[simp] theorem linkOf_setWord (s : State) (k : Nat) (v : Word) (j' : Nat) : linkOf (setWord s k v) j' = linkOf s j' := rfl
@[simp] theorem windowOf_setWord (s : State) (k : Nat) (v : Word) (j' : Nat) : windowOf (setWord s k v) j' = windowOf s j' := rfl
@[simp] theorem sessionOf_setWord (s : State) (k : Nat) (v : Word) (j' : Nat) : sessionOf (setWord s k v) j' = sessionOf s j' := rfl
@[simp] theorem contextOf_setWord (s : State) (k : Nat) (v : Word) (j' : Nat) : contextOf (setWord s k v) j' = contextOf s j' := rfl
@[simp] theorem jobOf_setWord (s : State) (k : Nat) (v : Word) (j' : Nat) : jobOf (setWord s k v) j' = jobOf s j' := rfl
@[simp] theorem mboxOf_setWord (s : State) (k : Nat) (v : Word) (j' : Nat) : mboxOf (setWord s k v) j' = mboxOf s j' := rfl
@[simp] theorem portOf_setWord (s : State) (k : Nat) (v : Word) (j' : Nat) : portOf (setWord s k v) j' = portOf s j' := rfl
@[simp] theorem flagOf_setWord (s : State) (k : Nat) (v : Word) (j' : Nat) : flagOf (setWord s k v) j' = flagOf s j' := rfl

@[simp] theorem byteAt_clearRegs (s : State) (lo n : Nat) (j' : Nat) : byteAt (clearRegs s lo n) j' = byteAt s j' := rfl
@[simp] theorem tileOf_clearRegs (s : State) (lo n : Nat) (j' : Nat) : tileOf (clearRegs s lo n) j' = tileOf s j' := rfl
@[simp] theorem coreOf_clearRegs (s : State) (lo n : Nat) (j' : Nat) : coreOf (clearRegs s lo n) j' = coreOf s j' := rfl
@[simp] theorem chanOf_clearRegs (s : State) (lo n : Nat) (j' : Nat) : chanOf (clearRegs s lo n) j' = chanOf s j' := rfl
@[simp] theorem bankOf_clearRegs (s : State) (lo n : Nat) (j' j2' : Nat) : bankOf (clearRegs s lo n) j' j2' = bankOf s j' j2' := rfl
@[simp] theorem streamOf_clearRegs (s : State) (lo n : Nat) (j' : Nat) : streamOf (clearRegs s lo n) j' = streamOf s j' := rfl
@[simp] theorem bruSlotOf_clearRegs (s : State) (lo n : Nat) (j' : Nat) : bruSlotOf (clearRegs s lo n) j' = bruSlotOf s j' := rfl
@[simp] theorem queueOf_clearRegs (s : State) (lo n : Nat) (j' : Nat) : queueOf (clearRegs s lo n) j' = queueOf s j' := rfl
@[simp] theorem slotOf_clearRegs (s : State) (lo n : Nat) (j' : Nat) : slotOf (clearRegs s lo n) j' = slotOf s j' := rfl
@[simp] theorem groupOf_clearRegs (s : State) (lo n : Nat) (j' : Nat) : groupOf (clearRegs s lo n) j' = groupOf s j' := rfl
@[simp] theorem granOf_clearRegs (s : State) (lo n : Nat) (j' : Nat) : granOf (clearRegs s lo n) j' = granOf s j' := rfl
@[simp] theorem shmOf_clearRegs (s : State) (lo n : Nat) (j' : Nat) : shmOf (clearRegs s lo n) j' = shmOf s j' := rfl
@[simp] theorem ddrOf_clearRegs (s : State) (lo n : Nat) (j' : Nat) : ddrOf (clearRegs s lo n) j' = ddrOf s j' := rfl
@[simp] theorem partOf_clearRegs (s : State) (lo n : Nat) (j' : Nat) : partOf (clearRegs s lo n) j' = partOf s j' := rfl
@[simp] theorem linkOf_clearRegs (s : State) (lo n : Nat) (j' : Nat) : linkOf (clearRegs s lo n) j' = linkOf s j' := rfl
@[simp] theorem windowOf_clearRegs (s : State) (lo n : Nat) (j' : Nat) : windowOf (clearRegs s lo n) j' = windowOf s j' := rfl
@[simp] theorem sessionOf_clearRegs (s : State) (lo n : Nat) (j' : Nat) : sessionOf (clearRegs s lo n) j' = sessionOf s j' := rfl
@[simp] theorem contextOf_clearRegs (s : State) (lo n : Nat) (j' : Nat) : contextOf (clearRegs s lo n) j' = contextOf s j' := rfl
@[simp] theorem jobOf_clearRegs (s : State) (lo n : Nat) (j' : Nat) : jobOf (clearRegs s lo n) j' = jobOf s j' := rfl
@[simp] theorem mboxOf_clearRegs (s : State) (lo n : Nat) (j' : Nat) : mboxOf (clearRegs s lo n) j' = mboxOf s j' := rfl
@[simp] theorem portOf_clearRegs (s : State) (lo n : Nat) (j' : Nat) : portOf (clearRegs s lo n) j' = portOf s j' := rfl
@[simp] theorem flagOf_clearRegs (s : State) (lo n : Nat) (j' : Nat) : flagOf (clearRegs s lo n) j' = flagOf s j' := rfl

@[simp] theorem word_store (s : State) (a : Nat) (bs : List Byte) (j' : Nat) : word (store s a bs) j' = word s j' := rfl
@[simp] theorem tileOf_store (s : State) (a : Nat) (bs : List Byte) (j' : Nat) : tileOf (store s a bs) j' = tileOf s j' := rfl
@[simp] theorem coreOf_store (s : State) (a : Nat) (bs : List Byte) (j' : Nat) : coreOf (store s a bs) j' = coreOf s j' := rfl
@[simp] theorem chanOf_store (s : State) (a : Nat) (bs : List Byte) (j' : Nat) : chanOf (store s a bs) j' = chanOf s j' := rfl
@[simp] theorem bankOf_store (s : State) (a : Nat) (bs : List Byte) (j' j2' : Nat) : bankOf (store s a bs) j' j2' = bankOf s j' j2' := rfl
@[simp] theorem streamOf_store (s : State) (a : Nat) (bs : List Byte) (j' : Nat) : streamOf (store s a bs) j' = streamOf s j' := rfl
@[simp] theorem bruSlotOf_store (s : State) (a : Nat) (bs : List Byte) (j' : Nat) : bruSlotOf (store s a bs) j' = bruSlotOf s j' := rfl
@[simp] theorem queueOf_store (s : State) (a : Nat) (bs : List Byte) (j' : Nat) : queueOf (store s a bs) j' = queueOf s j' := rfl
@[simp] theorem slotOf_store (s : State) (a : Nat) (bs : List Byte) (j' : Nat) : slotOf (store s a bs) j' = slotOf s j' := rfl
@[simp] theorem groupOf_store (s : State) (a : Nat) (bs : List Byte) (j' : Nat) : groupOf (store s a bs) j' = groupOf s j' := rfl
@[simp] theorem granOf_store (s : State) (a : Nat) (bs : List Byte) (j' : Nat) : granOf (store s a bs) j' = granOf s j' := rfl
@[simp] theorem shmOf_store (s : State) (a : Nat) (bs : List Byte) (j' : Nat) : shmOf (store s a bs) j' = shmOf s j' := rfl
@[simp] theorem ddrOf_store (s : State) (a : Nat) (bs : List Byte) (j' : Nat) : ddrOf (store s a bs) j' = ddrOf s j' := rfl
@[simp] theorem partOf_store (s : State) (a : Nat) (bs : List Byte) (j' : Nat) : partOf (store s a bs) j' = partOf s j' := rfl
@[simp] theorem linkOf_store (s : State) (a : Nat) (bs : List Byte) (j' : Nat) : linkOf (store s a bs) j' = linkOf s j' := rfl
@[simp] theorem windowOf_store (s : State) (a : Nat) (bs : List Byte) (j' : Nat) : windowOf (store s a bs) j' = windowOf s j' := rfl
@[simp] theorem sessionOf_store (s : State) (a : Nat) (bs : List Byte) (j' : Nat) : sessionOf (store s a bs) j' = sessionOf s j' := rfl
@[simp] theorem contextOf_store (s : State) (a : Nat) (bs : List Byte) (j' : Nat) : contextOf (store s a bs) j' = contextOf s j' := rfl
@[simp] theorem jobOf_store (s : State) (a : Nat) (bs : List Byte) (j' : Nat) : jobOf (store s a bs) j' = jobOf s j' := rfl
@[simp] theorem mboxOf_store (s : State) (a : Nat) (bs : List Byte) (j' : Nat) : mboxOf (store s a bs) j' = mboxOf s j' := rfl
@[simp] theorem portOf_store (s : State) (a : Nat) (bs : List Byte) (j' : Nat) : portOf (store s a bs) j' = portOf s j' := rfl
@[simp] theorem flagOf_store (s : State) (a : Nat) (bs : List Byte) (j' : Nat) : flagOf (store s a bs) j' = flagOf s j' := rfl

@[simp] theorem word_clearMem (s : State) (a n : Nat) (j' : Nat) : word (clearMem s a n) j' = word s j' := rfl
@[simp] theorem tileOf_clearMem (s : State) (a n : Nat) (j' : Nat) : tileOf (clearMem s a n) j' = tileOf s j' := rfl
@[simp] theorem coreOf_clearMem (s : State) (a n : Nat) (j' : Nat) : coreOf (clearMem s a n) j' = coreOf s j' := rfl
@[simp] theorem chanOf_clearMem (s : State) (a n : Nat) (j' : Nat) : chanOf (clearMem s a n) j' = chanOf s j' := rfl
@[simp] theorem bankOf_clearMem (s : State) (a n : Nat) (j' j2' : Nat) : bankOf (clearMem s a n) j' j2' = bankOf s j' j2' := rfl
@[simp] theorem streamOf_clearMem (s : State) (a n : Nat) (j' : Nat) : streamOf (clearMem s a n) j' = streamOf s j' := rfl
@[simp] theorem bruSlotOf_clearMem (s : State) (a n : Nat) (j' : Nat) : bruSlotOf (clearMem s a n) j' = bruSlotOf s j' := rfl
@[simp] theorem queueOf_clearMem (s : State) (a n : Nat) (j' : Nat) : queueOf (clearMem s a n) j' = queueOf s j' := rfl
@[simp] theorem slotOf_clearMem (s : State) (a n : Nat) (j' : Nat) : slotOf (clearMem s a n) j' = slotOf s j' := rfl
@[simp] theorem groupOf_clearMem (s : State) (a n : Nat) (j' : Nat) : groupOf (clearMem s a n) j' = groupOf s j' := rfl
@[simp] theorem granOf_clearMem (s : State) (a n : Nat) (j' : Nat) : granOf (clearMem s a n) j' = granOf s j' := rfl
@[simp] theorem shmOf_clearMem (s : State) (a n : Nat) (j' : Nat) : shmOf (clearMem s a n) j' = shmOf s j' := rfl
@[simp] theorem ddrOf_clearMem (s : State) (a n : Nat) (j' : Nat) : ddrOf (clearMem s a n) j' = ddrOf s j' := rfl
@[simp] theorem partOf_clearMem (s : State) (a n : Nat) (j' : Nat) : partOf (clearMem s a n) j' = partOf s j' := rfl
@[simp] theorem linkOf_clearMem (s : State) (a n : Nat) (j' : Nat) : linkOf (clearMem s a n) j' = linkOf s j' := rfl
@[simp] theorem windowOf_clearMem (s : State) (a n : Nat) (j' : Nat) : windowOf (clearMem s a n) j' = windowOf s j' := rfl
@[simp] theorem sessionOf_clearMem (s : State) (a n : Nat) (j' : Nat) : sessionOf (clearMem s a n) j' = sessionOf s j' := rfl
@[simp] theorem contextOf_clearMem (s : State) (a n : Nat) (j' : Nat) : contextOf (clearMem s a n) j' = contextOf s j' := rfl
@[simp] theorem jobOf_clearMem (s : State) (a n : Nat) (j' : Nat) : jobOf (clearMem s a n) j' = jobOf s j' := rfl
@[simp] theorem mboxOf_clearMem (s : State) (a n : Nat) (j' : Nat) : mboxOf (clearMem s a n) j' = mboxOf s j' := rfl
@[simp] theorem portOf_clearMem (s : State) (a n : Nat) (j' : Nat) : portOf (clearMem s a n) j' = portOf s j' := rfl
@[simp] theorem flagOf_clearMem (s : State) (a n : Nat) (j' : Nat) : flagOf (clearMem s a n) j' = flagOf s j' := rfl

@[simp] theorem word_setTile (s : State) (n : Nat) (x : Tile) (j' : Nat) : word (setTile s n x) j' = word s j' := rfl
@[simp] theorem byteAt_setTile (s : State) (n : Nat) (x : Tile) (j' : Nat) : byteAt (setTile s n x) j' = byteAt s j' := rfl
@[simp] theorem coreOf_setTile (s : State) (n : Nat) (x : Tile) (j' : Nat) : coreOf (setTile s n x) j' = coreOf s j' := rfl
@[simp] theorem chanOf_setTile (s : State) (n : Nat) (x : Tile) (j' : Nat) : chanOf (setTile s n x) j' = chanOf s j' := rfl
@[simp] theorem bankOf_setTile (s : State) (n : Nat) (x : Tile) (j' j2' : Nat) : bankOf (setTile s n x) j' j2' = bankOf s j' j2' := rfl
@[simp] theorem streamOf_setTile (s : State) (n : Nat) (x : Tile) (j' : Nat) : streamOf (setTile s n x) j' = streamOf s j' := rfl
@[simp] theorem bruSlotOf_setTile (s : State) (n : Nat) (x : Tile) (j' : Nat) : bruSlotOf (setTile s n x) j' = bruSlotOf s j' := rfl
@[simp] theorem queueOf_setTile (s : State) (n : Nat) (x : Tile) (j' : Nat) : queueOf (setTile s n x) j' = queueOf s j' := rfl
@[simp] theorem slotOf_setTile (s : State) (n : Nat) (x : Tile) (j' : Nat) : slotOf (setTile s n x) j' = slotOf s j' := rfl
@[simp] theorem groupOf_setTile (s : State) (n : Nat) (x : Tile) (j' : Nat) : groupOf (setTile s n x) j' = groupOf s j' := rfl
@[simp] theorem granOf_setTile (s : State) (n : Nat) (x : Tile) (j' : Nat) : granOf (setTile s n x) j' = granOf s j' := rfl
@[simp] theorem shmOf_setTile (s : State) (n : Nat) (x : Tile) (j' : Nat) : shmOf (setTile s n x) j' = shmOf s j' := rfl
@[simp] theorem ddrOf_setTile (s : State) (n : Nat) (x : Tile) (j' : Nat) : ddrOf (setTile s n x) j' = ddrOf s j' := rfl
@[simp] theorem partOf_setTile (s : State) (n : Nat) (x : Tile) (j' : Nat) : partOf (setTile s n x) j' = partOf s j' := rfl
@[simp] theorem linkOf_setTile (s : State) (n : Nat) (x : Tile) (j' : Nat) : linkOf (setTile s n x) j' = linkOf s j' := rfl
@[simp] theorem windowOf_setTile (s : State) (n : Nat) (x : Tile) (j' : Nat) : windowOf (setTile s n x) j' = windowOf s j' := rfl
@[simp] theorem sessionOf_setTile (s : State) (n : Nat) (x : Tile) (j' : Nat) : sessionOf (setTile s n x) j' = sessionOf s j' := rfl
@[simp] theorem contextOf_setTile (s : State) (n : Nat) (x : Tile) (j' : Nat) : contextOf (setTile s n x) j' = contextOf s j' := rfl
@[simp] theorem jobOf_setTile (s : State) (n : Nat) (x : Tile) (j' : Nat) : jobOf (setTile s n x) j' = jobOf s j' := rfl
@[simp] theorem mboxOf_setTile (s : State) (n : Nat) (x : Tile) (j' : Nat) : mboxOf (setTile s n x) j' = mboxOf s j' := rfl
@[simp] theorem portOf_setTile (s : State) (n : Nat) (x : Tile) (j' : Nat) : portOf (setTile s n x) j' = portOf s j' := rfl
@[simp] theorem flagOf_setTile (s : State) (n : Nat) (x : Tile) (j' : Nat) : flagOf (setTile s n x) j' = flagOf s j' := rfl

@[simp] theorem word_setCore (s : State) (n : Nat) (x : Core) (j' : Nat) : word (setCore s n x) j' = word s j' := rfl
@[simp] theorem byteAt_setCore (s : State) (n : Nat) (x : Core) (j' : Nat) : byteAt (setCore s n x) j' = byteAt s j' := rfl
@[simp] theorem tileOf_setCore (s : State) (n : Nat) (x : Core) (j' : Nat) : tileOf (setCore s n x) j' = tileOf s j' := rfl
@[simp] theorem chanOf_setCore (s : State) (n : Nat) (x : Core) (j' : Nat) : chanOf (setCore s n x) j' = chanOf s j' := rfl
@[simp] theorem bankOf_setCore (s : State) (n : Nat) (x : Core) (j' j2' : Nat) : bankOf (setCore s n x) j' j2' = bankOf s j' j2' := rfl
@[simp] theorem streamOf_setCore (s : State) (n : Nat) (x : Core) (j' : Nat) : streamOf (setCore s n x) j' = streamOf s j' := rfl
@[simp] theorem bruSlotOf_setCore (s : State) (n : Nat) (x : Core) (j' : Nat) : bruSlotOf (setCore s n x) j' = bruSlotOf s j' := rfl
@[simp] theorem queueOf_setCore (s : State) (n : Nat) (x : Core) (j' : Nat) : queueOf (setCore s n x) j' = queueOf s j' := rfl
@[simp] theorem slotOf_setCore (s : State) (n : Nat) (x : Core) (j' : Nat) : slotOf (setCore s n x) j' = slotOf s j' := rfl
@[simp] theorem groupOf_setCore (s : State) (n : Nat) (x : Core) (j' : Nat) : groupOf (setCore s n x) j' = groupOf s j' := rfl
@[simp] theorem granOf_setCore (s : State) (n : Nat) (x : Core) (j' : Nat) : granOf (setCore s n x) j' = granOf s j' := rfl
@[simp] theorem shmOf_setCore (s : State) (n : Nat) (x : Core) (j' : Nat) : shmOf (setCore s n x) j' = shmOf s j' := rfl
@[simp] theorem ddrOf_setCore (s : State) (n : Nat) (x : Core) (j' : Nat) : ddrOf (setCore s n x) j' = ddrOf s j' := rfl
@[simp] theorem partOf_setCore (s : State) (n : Nat) (x : Core) (j' : Nat) : partOf (setCore s n x) j' = partOf s j' := rfl
@[simp] theorem linkOf_setCore (s : State) (n : Nat) (x : Core) (j' : Nat) : linkOf (setCore s n x) j' = linkOf s j' := rfl
@[simp] theorem windowOf_setCore (s : State) (n : Nat) (x : Core) (j' : Nat) : windowOf (setCore s n x) j' = windowOf s j' := rfl
@[simp] theorem sessionOf_setCore (s : State) (n : Nat) (x : Core) (j' : Nat) : sessionOf (setCore s n x) j' = sessionOf s j' := rfl
@[simp] theorem contextOf_setCore (s : State) (n : Nat) (x : Core) (j' : Nat) : contextOf (setCore s n x) j' = contextOf s j' := rfl
@[simp] theorem jobOf_setCore (s : State) (n : Nat) (x : Core) (j' : Nat) : jobOf (setCore s n x) j' = jobOf s j' := rfl
@[simp] theorem mboxOf_setCore (s : State) (n : Nat) (x : Core) (j' : Nat) : mboxOf (setCore s n x) j' = mboxOf s j' := rfl
@[simp] theorem portOf_setCore (s : State) (n : Nat) (x : Core) (j' : Nat) : portOf (setCore s n x) j' = portOf s j' := rfl
@[simp] theorem flagOf_setCore (s : State) (n : Nat) (x : Core) (j' : Nat) : flagOf (setCore s n x) j' = flagOf s j' := rfl

@[simp] theorem word_setChan (s : State) (n : Nat) (x : Chan) (j' : Nat) : word (setChan s n x) j' = word s j' := rfl
@[simp] theorem byteAt_setChan (s : State) (n : Nat) (x : Chan) (j' : Nat) : byteAt (setChan s n x) j' = byteAt s j' := rfl
@[simp] theorem tileOf_setChan (s : State) (n : Nat) (x : Chan) (j' : Nat) : tileOf (setChan s n x) j' = tileOf s j' := rfl
@[simp] theorem coreOf_setChan (s : State) (n : Nat) (x : Chan) (j' : Nat) : coreOf (setChan s n x) j' = coreOf s j' := rfl
@[simp] theorem bankOf_setChan (s : State) (n : Nat) (x : Chan) (j' j2' : Nat) : bankOf (setChan s n x) j' j2' = bankOf s j' j2' := rfl
@[simp] theorem streamOf_setChan (s : State) (n : Nat) (x : Chan) (j' : Nat) : streamOf (setChan s n x) j' = streamOf s j' := rfl
@[simp] theorem bruSlotOf_setChan (s : State) (n : Nat) (x : Chan) (j' : Nat) : bruSlotOf (setChan s n x) j' = bruSlotOf s j' := rfl
@[simp] theorem queueOf_setChan (s : State) (n : Nat) (x : Chan) (j' : Nat) : queueOf (setChan s n x) j' = queueOf s j' := rfl
@[simp] theorem slotOf_setChan (s : State) (n : Nat) (x : Chan) (j' : Nat) : slotOf (setChan s n x) j' = slotOf s j' := rfl
@[simp] theorem groupOf_setChan (s : State) (n : Nat) (x : Chan) (j' : Nat) : groupOf (setChan s n x) j' = groupOf s j' := rfl
@[simp] theorem granOf_setChan (s : State) (n : Nat) (x : Chan) (j' : Nat) : granOf (setChan s n x) j' = granOf s j' := rfl
@[simp] theorem shmOf_setChan (s : State) (n : Nat) (x : Chan) (j' : Nat) : shmOf (setChan s n x) j' = shmOf s j' := rfl
@[simp] theorem ddrOf_setChan (s : State) (n : Nat) (x : Chan) (j' : Nat) : ddrOf (setChan s n x) j' = ddrOf s j' := rfl
@[simp] theorem partOf_setChan (s : State) (n : Nat) (x : Chan) (j' : Nat) : partOf (setChan s n x) j' = partOf s j' := rfl
@[simp] theorem linkOf_setChan (s : State) (n : Nat) (x : Chan) (j' : Nat) : linkOf (setChan s n x) j' = linkOf s j' := rfl
@[simp] theorem windowOf_setChan (s : State) (n : Nat) (x : Chan) (j' : Nat) : windowOf (setChan s n x) j' = windowOf s j' := rfl
@[simp] theorem sessionOf_setChan (s : State) (n : Nat) (x : Chan) (j' : Nat) : sessionOf (setChan s n x) j' = sessionOf s j' := rfl
@[simp] theorem contextOf_setChan (s : State) (n : Nat) (x : Chan) (j' : Nat) : contextOf (setChan s n x) j' = contextOf s j' := rfl
@[simp] theorem jobOf_setChan (s : State) (n : Nat) (x : Chan) (j' : Nat) : jobOf (setChan s n x) j' = jobOf s j' := rfl
@[simp] theorem mboxOf_setChan (s : State) (n : Nat) (x : Chan) (j' : Nat) : mboxOf (setChan s n x) j' = mboxOf s j' := rfl
@[simp] theorem portOf_setChan (s : State) (n : Nat) (x : Chan) (j' : Nat) : portOf (setChan s n x) j' = portOf s j' := rfl
@[simp] theorem flagOf_setChan (s : State) (n : Nat) (x : Chan) (j' : Nat) : flagOf (setChan s n x) j' = flagOf s j' := rfl

@[simp] theorem word_setBank (s : State) (p k : Nat) (x : Bank) (j' : Nat) : word (setBank s p k x) j' = word s j' := rfl
@[simp] theorem byteAt_setBank (s : State) (p k : Nat) (x : Bank) (j' : Nat) : byteAt (setBank s p k x) j' = byteAt s j' := rfl
@[simp] theorem tileOf_setBank (s : State) (p k : Nat) (x : Bank) (j' : Nat) : tileOf (setBank s p k x) j' = tileOf s j' := rfl
@[simp] theorem coreOf_setBank (s : State) (p k : Nat) (x : Bank) (j' : Nat) : coreOf (setBank s p k x) j' = coreOf s j' := rfl
@[simp] theorem chanOf_setBank (s : State) (p k : Nat) (x : Bank) (j' : Nat) : chanOf (setBank s p k x) j' = chanOf s j' := rfl
@[simp] theorem streamOf_setBank (s : State) (p k : Nat) (x : Bank) (j' : Nat) : streamOf (setBank s p k x) j' = streamOf s j' := rfl
@[simp] theorem bruSlotOf_setBank (s : State) (p k : Nat) (x : Bank) (j' : Nat) : bruSlotOf (setBank s p k x) j' = bruSlotOf s j' := rfl
@[simp] theorem queueOf_setBank (s : State) (p k : Nat) (x : Bank) (j' : Nat) : queueOf (setBank s p k x) j' = queueOf s j' := rfl
@[simp] theorem slotOf_setBank (s : State) (p k : Nat) (x : Bank) (j' : Nat) : slotOf (setBank s p k x) j' = slotOf s j' := rfl
@[simp] theorem groupOf_setBank (s : State) (p k : Nat) (x : Bank) (j' : Nat) : groupOf (setBank s p k x) j' = groupOf s j' := rfl
@[simp] theorem granOf_setBank (s : State) (p k : Nat) (x : Bank) (j' : Nat) : granOf (setBank s p k x) j' = granOf s j' := rfl
@[simp] theorem shmOf_setBank (s : State) (p k : Nat) (x : Bank) (j' : Nat) : shmOf (setBank s p k x) j' = shmOf s j' := rfl
@[simp] theorem ddrOf_setBank (s : State) (p k : Nat) (x : Bank) (j' : Nat) : ddrOf (setBank s p k x) j' = ddrOf s j' := rfl
@[simp] theorem partOf_setBank (s : State) (p k : Nat) (x : Bank) (j' : Nat) : partOf (setBank s p k x) j' = partOf s j' := rfl
@[simp] theorem linkOf_setBank (s : State) (p k : Nat) (x : Bank) (j' : Nat) : linkOf (setBank s p k x) j' = linkOf s j' := rfl
@[simp] theorem windowOf_setBank (s : State) (p k : Nat) (x : Bank) (j' : Nat) : windowOf (setBank s p k x) j' = windowOf s j' := rfl
@[simp] theorem sessionOf_setBank (s : State) (p k : Nat) (x : Bank) (j' : Nat) : sessionOf (setBank s p k x) j' = sessionOf s j' := rfl
@[simp] theorem contextOf_setBank (s : State) (p k : Nat) (x : Bank) (j' : Nat) : contextOf (setBank s p k x) j' = contextOf s j' := rfl
@[simp] theorem jobOf_setBank (s : State) (p k : Nat) (x : Bank) (j' : Nat) : jobOf (setBank s p k x) j' = jobOf s j' := rfl
@[simp] theorem mboxOf_setBank (s : State) (p k : Nat) (x : Bank) (j' : Nat) : mboxOf (setBank s p k x) j' = mboxOf s j' := rfl
@[simp] theorem portOf_setBank (s : State) (p k : Nat) (x : Bank) (j' : Nat) : portOf (setBank s p k x) j' = portOf s j' := rfl
@[simp] theorem flagOf_setBank (s : State) (p k : Nat) (x : Bank) (j' : Nat) : flagOf (setBank s p k x) j' = flagOf s j' := rfl

@[simp] theorem word_setStream (s : State) (n : Nat) (x : Option Stream) (j' : Nat) : word (setStream s n x) j' = word s j' := rfl
@[simp] theorem byteAt_setStream (s : State) (n : Nat) (x : Option Stream) (j' : Nat) : byteAt (setStream s n x) j' = byteAt s j' := rfl
@[simp] theorem tileOf_setStream (s : State) (n : Nat) (x : Option Stream) (j' : Nat) : tileOf (setStream s n x) j' = tileOf s j' := rfl
@[simp] theorem coreOf_setStream (s : State) (n : Nat) (x : Option Stream) (j' : Nat) : coreOf (setStream s n x) j' = coreOf s j' := rfl
@[simp] theorem chanOf_setStream (s : State) (n : Nat) (x : Option Stream) (j' : Nat) : chanOf (setStream s n x) j' = chanOf s j' := rfl
@[simp] theorem bankOf_setStream (s : State) (n : Nat) (x : Option Stream) (j' j2' : Nat) : bankOf (setStream s n x) j' j2' = bankOf s j' j2' := rfl
@[simp] theorem bruSlotOf_setStream (s : State) (n : Nat) (x : Option Stream) (j' : Nat) : bruSlotOf (setStream s n x) j' = bruSlotOf s j' := rfl
@[simp] theorem queueOf_setStream (s : State) (n : Nat) (x : Option Stream) (j' : Nat) : queueOf (setStream s n x) j' = queueOf s j' := rfl
@[simp] theorem slotOf_setStream (s : State) (n : Nat) (x : Option Stream) (j' : Nat) : slotOf (setStream s n x) j' = slotOf s j' := rfl
@[simp] theorem groupOf_setStream (s : State) (n : Nat) (x : Option Stream) (j' : Nat) : groupOf (setStream s n x) j' = groupOf s j' := rfl
@[simp] theorem granOf_setStream (s : State) (n : Nat) (x : Option Stream) (j' : Nat) : granOf (setStream s n x) j' = granOf s j' := rfl
@[simp] theorem shmOf_setStream (s : State) (n : Nat) (x : Option Stream) (j' : Nat) : shmOf (setStream s n x) j' = shmOf s j' := rfl
@[simp] theorem ddrOf_setStream (s : State) (n : Nat) (x : Option Stream) (j' : Nat) : ddrOf (setStream s n x) j' = ddrOf s j' := rfl
@[simp] theorem partOf_setStream (s : State) (n : Nat) (x : Option Stream) (j' : Nat) : partOf (setStream s n x) j' = partOf s j' := rfl
@[simp] theorem linkOf_setStream (s : State) (n : Nat) (x : Option Stream) (j' : Nat) : linkOf (setStream s n x) j' = linkOf s j' := rfl
@[simp] theorem windowOf_setStream (s : State) (n : Nat) (x : Option Stream) (j' : Nat) : windowOf (setStream s n x) j' = windowOf s j' := rfl
@[simp] theorem sessionOf_setStream (s : State) (n : Nat) (x : Option Stream) (j' : Nat) : sessionOf (setStream s n x) j' = sessionOf s j' := rfl
@[simp] theorem contextOf_setStream (s : State) (n : Nat) (x : Option Stream) (j' : Nat) : contextOf (setStream s n x) j' = contextOf s j' := rfl
@[simp] theorem jobOf_setStream (s : State) (n : Nat) (x : Option Stream) (j' : Nat) : jobOf (setStream s n x) j' = jobOf s j' := rfl
@[simp] theorem mboxOf_setStream (s : State) (n : Nat) (x : Option Stream) (j' : Nat) : mboxOf (setStream s n x) j' = mboxOf s j' := rfl
@[simp] theorem portOf_setStream (s : State) (n : Nat) (x : Option Stream) (j' : Nat) : portOf (setStream s n x) j' = portOf s j' := rfl
@[simp] theorem flagOf_setStream (s : State) (n : Nat) (x : Option Stream) (j' : Nat) : flagOf (setStream s n x) j' = flagOf s j' := rfl

@[simp] theorem word_setBruSlot (s : State) (j : Nat) (x : BruSlot) (j' : Nat) : word (setBruSlot s j x) j' = word s j' := rfl
@[simp] theorem byteAt_setBruSlot (s : State) (j : Nat) (x : BruSlot) (j' : Nat) : byteAt (setBruSlot s j x) j' = byteAt s j' := rfl
@[simp] theorem tileOf_setBruSlot (s : State) (j : Nat) (x : BruSlot) (j' : Nat) : tileOf (setBruSlot s j x) j' = tileOf s j' := rfl
@[simp] theorem coreOf_setBruSlot (s : State) (j : Nat) (x : BruSlot) (j' : Nat) : coreOf (setBruSlot s j x) j' = coreOf s j' := rfl
@[simp] theorem chanOf_setBruSlot (s : State) (j : Nat) (x : BruSlot) (j' : Nat) : chanOf (setBruSlot s j x) j' = chanOf s j' := rfl
@[simp] theorem bankOf_setBruSlot (s : State) (j : Nat) (x : BruSlot) (j' j2' : Nat) : bankOf (setBruSlot s j x) j' j2' = bankOf s j' j2' := rfl
@[simp] theorem streamOf_setBruSlot (s : State) (j : Nat) (x : BruSlot) (j' : Nat) : streamOf (setBruSlot s j x) j' = streamOf s j' := rfl
@[simp] theorem queueOf_setBruSlot (s : State) (j : Nat) (x : BruSlot) (j' : Nat) : queueOf (setBruSlot s j x) j' = queueOf s j' := rfl
@[simp] theorem slotOf_setBruSlot (s : State) (j : Nat) (x : BruSlot) (j' : Nat) : slotOf (setBruSlot s j x) j' = slotOf s j' := rfl
@[simp] theorem groupOf_setBruSlot (s : State) (j : Nat) (x : BruSlot) (j' : Nat) : groupOf (setBruSlot s j x) j' = groupOf s j' := rfl
@[simp] theorem granOf_setBruSlot (s : State) (j : Nat) (x : BruSlot) (j' : Nat) : granOf (setBruSlot s j x) j' = granOf s j' := rfl
@[simp] theorem shmOf_setBruSlot (s : State) (j : Nat) (x : BruSlot) (j' : Nat) : shmOf (setBruSlot s j x) j' = shmOf s j' := rfl
@[simp] theorem ddrOf_setBruSlot (s : State) (j : Nat) (x : BruSlot) (j' : Nat) : ddrOf (setBruSlot s j x) j' = ddrOf s j' := rfl
@[simp] theorem partOf_setBruSlot (s : State) (j : Nat) (x : BruSlot) (j' : Nat) : partOf (setBruSlot s j x) j' = partOf s j' := rfl
@[simp] theorem linkOf_setBruSlot (s : State) (j : Nat) (x : BruSlot) (j' : Nat) : linkOf (setBruSlot s j x) j' = linkOf s j' := rfl
@[simp] theorem windowOf_setBruSlot (s : State) (j : Nat) (x : BruSlot) (j' : Nat) : windowOf (setBruSlot s j x) j' = windowOf s j' := rfl
@[simp] theorem sessionOf_setBruSlot (s : State) (j : Nat) (x : BruSlot) (j' : Nat) : sessionOf (setBruSlot s j x) j' = sessionOf s j' := rfl
@[simp] theorem contextOf_setBruSlot (s : State) (j : Nat) (x : BruSlot) (j' : Nat) : contextOf (setBruSlot s j x) j' = contextOf s j' := rfl
@[simp] theorem jobOf_setBruSlot (s : State) (j : Nat) (x : BruSlot) (j' : Nat) : jobOf (setBruSlot s j x) j' = jobOf s j' := rfl
@[simp] theorem mboxOf_setBruSlot (s : State) (j : Nat) (x : BruSlot) (j' : Nat) : mboxOf (setBruSlot s j x) j' = mboxOf s j' := rfl
@[simp] theorem portOf_setBruSlot (s : State) (j : Nat) (x : BruSlot) (j' : Nat) : portOf (setBruSlot s j x) j' = portOf s j' := rfl
@[simp] theorem flagOf_setBruSlot (s : State) (j : Nat) (x : BruSlot) (j' : Nat) : flagOf (setBruSlot s j x) j' = flagOf s j' := rfl

@[simp] theorem word_setQueue (s : State) (q : Nat) (x : Queue) (j' : Nat) : word (setQueue s q x) j' = word s j' := rfl
@[simp] theorem byteAt_setQueue (s : State) (q : Nat) (x : Queue) (j' : Nat) : byteAt (setQueue s q x) j' = byteAt s j' := rfl
@[simp] theorem tileOf_setQueue (s : State) (q : Nat) (x : Queue) (j' : Nat) : tileOf (setQueue s q x) j' = tileOf s j' := rfl
@[simp] theorem coreOf_setQueue (s : State) (q : Nat) (x : Queue) (j' : Nat) : coreOf (setQueue s q x) j' = coreOf s j' := rfl
@[simp] theorem chanOf_setQueue (s : State) (q : Nat) (x : Queue) (j' : Nat) : chanOf (setQueue s q x) j' = chanOf s j' := rfl
@[simp] theorem bankOf_setQueue (s : State) (q : Nat) (x : Queue) (j' j2' : Nat) : bankOf (setQueue s q x) j' j2' = bankOf s j' j2' := rfl
@[simp] theorem streamOf_setQueue (s : State) (q : Nat) (x : Queue) (j' : Nat) : streamOf (setQueue s q x) j' = streamOf s j' := rfl
@[simp] theorem bruSlotOf_setQueue (s : State) (q : Nat) (x : Queue) (j' : Nat) : bruSlotOf (setQueue s q x) j' = bruSlotOf s j' := rfl
@[simp] theorem slotOf_setQueue (s : State) (q : Nat) (x : Queue) (j' : Nat) : slotOf (setQueue s q x) j' = slotOf s j' := rfl
@[simp] theorem groupOf_setQueue (s : State) (q : Nat) (x : Queue) (j' : Nat) : groupOf (setQueue s q x) j' = groupOf s j' := rfl
@[simp] theorem granOf_setQueue (s : State) (q : Nat) (x : Queue) (j' : Nat) : granOf (setQueue s q x) j' = granOf s j' := rfl
@[simp] theorem shmOf_setQueue (s : State) (q : Nat) (x : Queue) (j' : Nat) : shmOf (setQueue s q x) j' = shmOf s j' := rfl
@[simp] theorem ddrOf_setQueue (s : State) (q : Nat) (x : Queue) (j' : Nat) : ddrOf (setQueue s q x) j' = ddrOf s j' := rfl
@[simp] theorem partOf_setQueue (s : State) (q : Nat) (x : Queue) (j' : Nat) : partOf (setQueue s q x) j' = partOf s j' := rfl
@[simp] theorem linkOf_setQueue (s : State) (q : Nat) (x : Queue) (j' : Nat) : linkOf (setQueue s q x) j' = linkOf s j' := rfl
@[simp] theorem windowOf_setQueue (s : State) (q : Nat) (x : Queue) (j' : Nat) : windowOf (setQueue s q x) j' = windowOf s j' := rfl
@[simp] theorem sessionOf_setQueue (s : State) (q : Nat) (x : Queue) (j' : Nat) : sessionOf (setQueue s q x) j' = sessionOf s j' := rfl
@[simp] theorem contextOf_setQueue (s : State) (q : Nat) (x : Queue) (j' : Nat) : contextOf (setQueue s q x) j' = contextOf s j' := rfl
@[simp] theorem jobOf_setQueue (s : State) (q : Nat) (x : Queue) (j' : Nat) : jobOf (setQueue s q x) j' = jobOf s j' := rfl
@[simp] theorem mboxOf_setQueue (s : State) (q : Nat) (x : Queue) (j' : Nat) : mboxOf (setQueue s q x) j' = mboxOf s j' := rfl
@[simp] theorem portOf_setQueue (s : State) (q : Nat) (x : Queue) (j' : Nat) : portOf (setQueue s q x) j' = portOf s j' := rfl
@[simp] theorem flagOf_setQueue (s : State) (q : Nat) (x : Queue) (j' : Nat) : flagOf (setQueue s q x) j' = flagOf s j' := rfl

@[simp] theorem word_setSlot (s : State) (i : Nat) (x : Slot) (j' : Nat) : word (setSlot s i x) j' = word s j' := rfl
@[simp] theorem byteAt_setSlot (s : State) (i : Nat) (x : Slot) (j' : Nat) : byteAt (setSlot s i x) j' = byteAt s j' := rfl
@[simp] theorem tileOf_setSlot (s : State) (i : Nat) (x : Slot) (j' : Nat) : tileOf (setSlot s i x) j' = tileOf s j' := rfl
@[simp] theorem coreOf_setSlot (s : State) (i : Nat) (x : Slot) (j' : Nat) : coreOf (setSlot s i x) j' = coreOf s j' := rfl
@[simp] theorem chanOf_setSlot (s : State) (i : Nat) (x : Slot) (j' : Nat) : chanOf (setSlot s i x) j' = chanOf s j' := rfl
@[simp] theorem bankOf_setSlot (s : State) (i : Nat) (x : Slot) (j' j2' : Nat) : bankOf (setSlot s i x) j' j2' = bankOf s j' j2' := rfl
@[simp] theorem streamOf_setSlot (s : State) (i : Nat) (x : Slot) (j' : Nat) : streamOf (setSlot s i x) j' = streamOf s j' := rfl
@[simp] theorem bruSlotOf_setSlot (s : State) (i : Nat) (x : Slot) (j' : Nat) : bruSlotOf (setSlot s i x) j' = bruSlotOf s j' := rfl
@[simp] theorem queueOf_setSlot (s : State) (i : Nat) (x : Slot) (j' : Nat) : queueOf (setSlot s i x) j' = queueOf s j' := rfl
@[simp] theorem groupOf_setSlot (s : State) (i : Nat) (x : Slot) (j' : Nat) : groupOf (setSlot s i x) j' = groupOf s j' := rfl
@[simp] theorem granOf_setSlot (s : State) (i : Nat) (x : Slot) (j' : Nat) : granOf (setSlot s i x) j' = granOf s j' := rfl
@[simp] theorem shmOf_setSlot (s : State) (i : Nat) (x : Slot) (j' : Nat) : shmOf (setSlot s i x) j' = shmOf s j' := rfl
@[simp] theorem ddrOf_setSlot (s : State) (i : Nat) (x : Slot) (j' : Nat) : ddrOf (setSlot s i x) j' = ddrOf s j' := rfl
@[simp] theorem partOf_setSlot (s : State) (i : Nat) (x : Slot) (j' : Nat) : partOf (setSlot s i x) j' = partOf s j' := rfl
@[simp] theorem linkOf_setSlot (s : State) (i : Nat) (x : Slot) (j' : Nat) : linkOf (setSlot s i x) j' = linkOf s j' := rfl
@[simp] theorem windowOf_setSlot (s : State) (i : Nat) (x : Slot) (j' : Nat) : windowOf (setSlot s i x) j' = windowOf s j' := rfl
@[simp] theorem sessionOf_setSlot (s : State) (i : Nat) (x : Slot) (j' : Nat) : sessionOf (setSlot s i x) j' = sessionOf s j' := rfl
@[simp] theorem contextOf_setSlot (s : State) (i : Nat) (x : Slot) (j' : Nat) : contextOf (setSlot s i x) j' = contextOf s j' := rfl
@[simp] theorem jobOf_setSlot (s : State) (i : Nat) (x : Slot) (j' : Nat) : jobOf (setSlot s i x) j' = jobOf s j' := rfl
@[simp] theorem mboxOf_setSlot (s : State) (i : Nat) (x : Slot) (j' : Nat) : mboxOf (setSlot s i x) j' = mboxOf s j' := rfl
@[simp] theorem portOf_setSlot (s : State) (i : Nat) (x : Slot) (j' : Nat) : portOf (setSlot s i x) j' = portOf s j' := rfl
@[simp] theorem flagOf_setSlot (s : State) (i : Nat) (x : Slot) (j' : Nat) : flagOf (setSlot s i x) j' = flagOf s j' := rfl

@[simp] theorem word_setGroup (s : State) (g : Nat) (x : Group) (j' : Nat) : word (setGroup s g x) j' = word s j' := rfl
@[simp] theorem byteAt_setGroup (s : State) (g : Nat) (x : Group) (j' : Nat) : byteAt (setGroup s g x) j' = byteAt s j' := rfl
@[simp] theorem tileOf_setGroup (s : State) (g : Nat) (x : Group) (j' : Nat) : tileOf (setGroup s g x) j' = tileOf s j' := rfl
@[simp] theorem coreOf_setGroup (s : State) (g : Nat) (x : Group) (j' : Nat) : coreOf (setGroup s g x) j' = coreOf s j' := rfl
@[simp] theorem chanOf_setGroup (s : State) (g : Nat) (x : Group) (j' : Nat) : chanOf (setGroup s g x) j' = chanOf s j' := rfl
@[simp] theorem bankOf_setGroup (s : State) (g : Nat) (x : Group) (j' j2' : Nat) : bankOf (setGroup s g x) j' j2' = bankOf s j' j2' := rfl
@[simp] theorem streamOf_setGroup (s : State) (g : Nat) (x : Group) (j' : Nat) : streamOf (setGroup s g x) j' = streamOf s j' := rfl
@[simp] theorem bruSlotOf_setGroup (s : State) (g : Nat) (x : Group) (j' : Nat) : bruSlotOf (setGroup s g x) j' = bruSlotOf s j' := rfl
@[simp] theorem queueOf_setGroup (s : State) (g : Nat) (x : Group) (j' : Nat) : queueOf (setGroup s g x) j' = queueOf s j' := rfl
@[simp] theorem slotOf_setGroup (s : State) (g : Nat) (x : Group) (j' : Nat) : slotOf (setGroup s g x) j' = slotOf s j' := rfl
@[simp] theorem granOf_setGroup (s : State) (g : Nat) (x : Group) (j' : Nat) : granOf (setGroup s g x) j' = granOf s j' := rfl
@[simp] theorem shmOf_setGroup (s : State) (g : Nat) (x : Group) (j' : Nat) : shmOf (setGroup s g x) j' = shmOf s j' := rfl
@[simp] theorem ddrOf_setGroup (s : State) (g : Nat) (x : Group) (j' : Nat) : ddrOf (setGroup s g x) j' = ddrOf s j' := rfl
@[simp] theorem partOf_setGroup (s : State) (g : Nat) (x : Group) (j' : Nat) : partOf (setGroup s g x) j' = partOf s j' := rfl
@[simp] theorem linkOf_setGroup (s : State) (g : Nat) (x : Group) (j' : Nat) : linkOf (setGroup s g x) j' = linkOf s j' := rfl
@[simp] theorem windowOf_setGroup (s : State) (g : Nat) (x : Group) (j' : Nat) : windowOf (setGroup s g x) j' = windowOf s j' := rfl
@[simp] theorem sessionOf_setGroup (s : State) (g : Nat) (x : Group) (j' : Nat) : sessionOf (setGroup s g x) j' = sessionOf s j' := rfl
@[simp] theorem contextOf_setGroup (s : State) (g : Nat) (x : Group) (j' : Nat) : contextOf (setGroup s g x) j' = contextOf s j' := rfl
@[simp] theorem jobOf_setGroup (s : State) (g : Nat) (x : Group) (j' : Nat) : jobOf (setGroup s g x) j' = jobOf s j' := rfl
@[simp] theorem mboxOf_setGroup (s : State) (g : Nat) (x : Group) (j' : Nat) : mboxOf (setGroup s g x) j' = mboxOf s j' := rfl
@[simp] theorem portOf_setGroup (s : State) (g : Nat) (x : Group) (j' : Nat) : portOf (setGroup s g x) j' = portOf s j' := rfl
@[simp] theorem flagOf_setGroup (s : State) (g : Nat) (x : Group) (j' : Nat) : flagOf (setGroup s g x) j' = flagOf s j' := rfl

@[simp] theorem word_setGran (s : State) (g : Nat) (x : Granule) (j' : Nat) : word (setGran s g x) j' = word s j' := rfl
@[simp] theorem byteAt_setGran (s : State) (g : Nat) (x : Granule) (j' : Nat) : byteAt (setGran s g x) j' = byteAt s j' := rfl
@[simp] theorem tileOf_setGran (s : State) (g : Nat) (x : Granule) (j' : Nat) : tileOf (setGran s g x) j' = tileOf s j' := rfl
@[simp] theorem coreOf_setGran (s : State) (g : Nat) (x : Granule) (j' : Nat) : coreOf (setGran s g x) j' = coreOf s j' := rfl
@[simp] theorem chanOf_setGran (s : State) (g : Nat) (x : Granule) (j' : Nat) : chanOf (setGran s g x) j' = chanOf s j' := rfl
@[simp] theorem bankOf_setGran (s : State) (g : Nat) (x : Granule) (j' j2' : Nat) : bankOf (setGran s g x) j' j2' = bankOf s j' j2' := rfl
@[simp] theorem streamOf_setGran (s : State) (g : Nat) (x : Granule) (j' : Nat) : streamOf (setGran s g x) j' = streamOf s j' := rfl
@[simp] theorem bruSlotOf_setGran (s : State) (g : Nat) (x : Granule) (j' : Nat) : bruSlotOf (setGran s g x) j' = bruSlotOf s j' := rfl
@[simp] theorem queueOf_setGran (s : State) (g : Nat) (x : Granule) (j' : Nat) : queueOf (setGran s g x) j' = queueOf s j' := rfl
@[simp] theorem slotOf_setGran (s : State) (g : Nat) (x : Granule) (j' : Nat) : slotOf (setGran s g x) j' = slotOf s j' := rfl
@[simp] theorem groupOf_setGran (s : State) (g : Nat) (x : Granule) (j' : Nat) : groupOf (setGran s g x) j' = groupOf s j' := rfl
@[simp] theorem shmOf_setGran (s : State) (g : Nat) (x : Granule) (j' : Nat) : shmOf (setGran s g x) j' = shmOf s j' := rfl
@[simp] theorem ddrOf_setGran (s : State) (g : Nat) (x : Granule) (j' : Nat) : ddrOf (setGran s g x) j' = ddrOf s j' := rfl
@[simp] theorem partOf_setGran (s : State) (g : Nat) (x : Granule) (j' : Nat) : partOf (setGran s g x) j' = partOf s j' := rfl
@[simp] theorem linkOf_setGran (s : State) (g : Nat) (x : Granule) (j' : Nat) : linkOf (setGran s g x) j' = linkOf s j' := rfl
@[simp] theorem windowOf_setGran (s : State) (g : Nat) (x : Granule) (j' : Nat) : windowOf (setGran s g x) j' = windowOf s j' := rfl
@[simp] theorem sessionOf_setGran (s : State) (g : Nat) (x : Granule) (j' : Nat) : sessionOf (setGran s g x) j' = sessionOf s j' := rfl
@[simp] theorem contextOf_setGran (s : State) (g : Nat) (x : Granule) (j' : Nat) : contextOf (setGran s g x) j' = contextOf s j' := rfl
@[simp] theorem jobOf_setGran (s : State) (g : Nat) (x : Granule) (j' : Nat) : jobOf (setGran s g x) j' = jobOf s j' := rfl
@[simp] theorem mboxOf_setGran (s : State) (g : Nat) (x : Granule) (j' : Nat) : mboxOf (setGran s g x) j' = mboxOf s j' := rfl
@[simp] theorem portOf_setGran (s : State) (g : Nat) (x : Granule) (j' : Nat) : portOf (setGran s g x) j' = portOf s j' := rfl
@[simp] theorem flagOf_setGran (s : State) (g : Nat) (x : Granule) (j' : Nat) : flagOf (setGran s g x) j' = flagOf s j' := rfl

@[simp] theorem word_setShm (s : State) (n : Nat) (x : ShmSlice) (j' : Nat) : word (setShm s n x) j' = word s j' := rfl
@[simp] theorem byteAt_setShm (s : State) (n : Nat) (x : ShmSlice) (j' : Nat) : byteAt (setShm s n x) j' = byteAt s j' := rfl
@[simp] theorem tileOf_setShm (s : State) (n : Nat) (x : ShmSlice) (j' : Nat) : tileOf (setShm s n x) j' = tileOf s j' := rfl
@[simp] theorem coreOf_setShm (s : State) (n : Nat) (x : ShmSlice) (j' : Nat) : coreOf (setShm s n x) j' = coreOf s j' := rfl
@[simp] theorem chanOf_setShm (s : State) (n : Nat) (x : ShmSlice) (j' : Nat) : chanOf (setShm s n x) j' = chanOf s j' := rfl
@[simp] theorem bankOf_setShm (s : State) (n : Nat) (x : ShmSlice) (j' j2' : Nat) : bankOf (setShm s n x) j' j2' = bankOf s j' j2' := rfl
@[simp] theorem streamOf_setShm (s : State) (n : Nat) (x : ShmSlice) (j' : Nat) : streamOf (setShm s n x) j' = streamOf s j' := rfl
@[simp] theorem bruSlotOf_setShm (s : State) (n : Nat) (x : ShmSlice) (j' : Nat) : bruSlotOf (setShm s n x) j' = bruSlotOf s j' := rfl
@[simp] theorem queueOf_setShm (s : State) (n : Nat) (x : ShmSlice) (j' : Nat) : queueOf (setShm s n x) j' = queueOf s j' := rfl
@[simp] theorem slotOf_setShm (s : State) (n : Nat) (x : ShmSlice) (j' : Nat) : slotOf (setShm s n x) j' = slotOf s j' := rfl
@[simp] theorem groupOf_setShm (s : State) (n : Nat) (x : ShmSlice) (j' : Nat) : groupOf (setShm s n x) j' = groupOf s j' := rfl
@[simp] theorem granOf_setShm (s : State) (n : Nat) (x : ShmSlice) (j' : Nat) : granOf (setShm s n x) j' = granOf s j' := rfl
@[simp] theorem ddrOf_setShm (s : State) (n : Nat) (x : ShmSlice) (j' : Nat) : ddrOf (setShm s n x) j' = ddrOf s j' := rfl
@[simp] theorem partOf_setShm (s : State) (n : Nat) (x : ShmSlice) (j' : Nat) : partOf (setShm s n x) j' = partOf s j' := rfl
@[simp] theorem linkOf_setShm (s : State) (n : Nat) (x : ShmSlice) (j' : Nat) : linkOf (setShm s n x) j' = linkOf s j' := rfl
@[simp] theorem windowOf_setShm (s : State) (n : Nat) (x : ShmSlice) (j' : Nat) : windowOf (setShm s n x) j' = windowOf s j' := rfl
@[simp] theorem sessionOf_setShm (s : State) (n : Nat) (x : ShmSlice) (j' : Nat) : sessionOf (setShm s n x) j' = sessionOf s j' := rfl
@[simp] theorem contextOf_setShm (s : State) (n : Nat) (x : ShmSlice) (j' : Nat) : contextOf (setShm s n x) j' = contextOf s j' := rfl
@[simp] theorem jobOf_setShm (s : State) (n : Nat) (x : ShmSlice) (j' : Nat) : jobOf (setShm s n x) j' = jobOf s j' := rfl
@[simp] theorem mboxOf_setShm (s : State) (n : Nat) (x : ShmSlice) (j' : Nat) : mboxOf (setShm s n x) j' = mboxOf s j' := rfl
@[simp] theorem portOf_setShm (s : State) (n : Nat) (x : ShmSlice) (j' : Nat) : portOf (setShm s n x) j' = portOf s j' := rfl
@[simp] theorem flagOf_setShm (s : State) (n : Nat) (x : ShmSlice) (j' : Nat) : flagOf (setShm s n x) j' = flagOf s j' := rfl

@[simp] theorem word_setDdr (s : State) (k : Nat) (x : DdrChan) (j' : Nat) : word (setDdr s k x) j' = word s j' := rfl
@[simp] theorem byteAt_setDdr (s : State) (k : Nat) (x : DdrChan) (j' : Nat) : byteAt (setDdr s k x) j' = byteAt s j' := rfl
@[simp] theorem tileOf_setDdr (s : State) (k : Nat) (x : DdrChan) (j' : Nat) : tileOf (setDdr s k x) j' = tileOf s j' := rfl
@[simp] theorem coreOf_setDdr (s : State) (k : Nat) (x : DdrChan) (j' : Nat) : coreOf (setDdr s k x) j' = coreOf s j' := rfl
@[simp] theorem chanOf_setDdr (s : State) (k : Nat) (x : DdrChan) (j' : Nat) : chanOf (setDdr s k x) j' = chanOf s j' := rfl
@[simp] theorem bankOf_setDdr (s : State) (k : Nat) (x : DdrChan) (j' j2' : Nat) : bankOf (setDdr s k x) j' j2' = bankOf s j' j2' := rfl
@[simp] theorem streamOf_setDdr (s : State) (k : Nat) (x : DdrChan) (j' : Nat) : streamOf (setDdr s k x) j' = streamOf s j' := rfl
@[simp] theorem bruSlotOf_setDdr (s : State) (k : Nat) (x : DdrChan) (j' : Nat) : bruSlotOf (setDdr s k x) j' = bruSlotOf s j' := rfl
@[simp] theorem queueOf_setDdr (s : State) (k : Nat) (x : DdrChan) (j' : Nat) : queueOf (setDdr s k x) j' = queueOf s j' := rfl
@[simp] theorem slotOf_setDdr (s : State) (k : Nat) (x : DdrChan) (j' : Nat) : slotOf (setDdr s k x) j' = slotOf s j' := rfl
@[simp] theorem groupOf_setDdr (s : State) (k : Nat) (x : DdrChan) (j' : Nat) : groupOf (setDdr s k x) j' = groupOf s j' := rfl
@[simp] theorem granOf_setDdr (s : State) (k : Nat) (x : DdrChan) (j' : Nat) : granOf (setDdr s k x) j' = granOf s j' := rfl
@[simp] theorem shmOf_setDdr (s : State) (k : Nat) (x : DdrChan) (j' : Nat) : shmOf (setDdr s k x) j' = shmOf s j' := rfl
@[simp] theorem partOf_setDdr (s : State) (k : Nat) (x : DdrChan) (j' : Nat) : partOf (setDdr s k x) j' = partOf s j' := rfl
@[simp] theorem linkOf_setDdr (s : State) (k : Nat) (x : DdrChan) (j' : Nat) : linkOf (setDdr s k x) j' = linkOf s j' := rfl
@[simp] theorem windowOf_setDdr (s : State) (k : Nat) (x : DdrChan) (j' : Nat) : windowOf (setDdr s k x) j' = windowOf s j' := rfl
@[simp] theorem sessionOf_setDdr (s : State) (k : Nat) (x : DdrChan) (j' : Nat) : sessionOf (setDdr s k x) j' = sessionOf s j' := rfl
@[simp] theorem contextOf_setDdr (s : State) (k : Nat) (x : DdrChan) (j' : Nat) : contextOf (setDdr s k x) j' = contextOf s j' := rfl
@[simp] theorem jobOf_setDdr (s : State) (k : Nat) (x : DdrChan) (j' : Nat) : jobOf (setDdr s k x) j' = jobOf s j' := rfl
@[simp] theorem mboxOf_setDdr (s : State) (k : Nat) (x : DdrChan) (j' : Nat) : mboxOf (setDdr s k x) j' = mboxOf s j' := rfl
@[simp] theorem portOf_setDdr (s : State) (k : Nat) (x : DdrChan) (j' : Nat) : portOf (setDdr s k x) j' = portOf s j' := rfl
@[simp] theorem flagOf_setDdr (s : State) (k : Nat) (x : DdrChan) (j' : Nat) : flagOf (setDdr s k x) j' = flagOf s j' := rfl

@[simp] theorem word_setPart (s : State) (p : Nat) (x : Partition) (j' : Nat) : word (setPart s p x) j' = word s j' := rfl
@[simp] theorem byteAt_setPart (s : State) (p : Nat) (x : Partition) (j' : Nat) : byteAt (setPart s p x) j' = byteAt s j' := rfl
@[simp] theorem tileOf_setPart (s : State) (p : Nat) (x : Partition) (j' : Nat) : tileOf (setPart s p x) j' = tileOf s j' := rfl
@[simp] theorem coreOf_setPart (s : State) (p : Nat) (x : Partition) (j' : Nat) : coreOf (setPart s p x) j' = coreOf s j' := rfl
@[simp] theorem chanOf_setPart (s : State) (p : Nat) (x : Partition) (j' : Nat) : chanOf (setPart s p x) j' = chanOf s j' := rfl
@[simp] theorem bankOf_setPart (s : State) (p : Nat) (x : Partition) (j' j2' : Nat) : bankOf (setPart s p x) j' j2' = bankOf s j' j2' := rfl
@[simp] theorem streamOf_setPart (s : State) (p : Nat) (x : Partition) (j' : Nat) : streamOf (setPart s p x) j' = streamOf s j' := rfl
@[simp] theorem bruSlotOf_setPart (s : State) (p : Nat) (x : Partition) (j' : Nat) : bruSlotOf (setPart s p x) j' = bruSlotOf s j' := rfl
@[simp] theorem queueOf_setPart (s : State) (p : Nat) (x : Partition) (j' : Nat) : queueOf (setPart s p x) j' = queueOf s j' := rfl
@[simp] theorem slotOf_setPart (s : State) (p : Nat) (x : Partition) (j' : Nat) : slotOf (setPart s p x) j' = slotOf s j' := rfl
@[simp] theorem groupOf_setPart (s : State) (p : Nat) (x : Partition) (j' : Nat) : groupOf (setPart s p x) j' = groupOf s j' := rfl
@[simp] theorem granOf_setPart (s : State) (p : Nat) (x : Partition) (j' : Nat) : granOf (setPart s p x) j' = granOf s j' := rfl
@[simp] theorem shmOf_setPart (s : State) (p : Nat) (x : Partition) (j' : Nat) : shmOf (setPart s p x) j' = shmOf s j' := rfl
@[simp] theorem ddrOf_setPart (s : State) (p : Nat) (x : Partition) (j' : Nat) : ddrOf (setPart s p x) j' = ddrOf s j' := rfl
@[simp] theorem linkOf_setPart (s : State) (p : Nat) (x : Partition) (j' : Nat) : linkOf (setPart s p x) j' = linkOf s j' := rfl
@[simp] theorem windowOf_setPart (s : State) (p : Nat) (x : Partition) (j' : Nat) : windowOf (setPart s p x) j' = windowOf s j' := rfl
@[simp] theorem sessionOf_setPart (s : State) (p : Nat) (x : Partition) (j' : Nat) : sessionOf (setPart s p x) j' = sessionOf s j' := rfl
@[simp] theorem contextOf_setPart (s : State) (p : Nat) (x : Partition) (j' : Nat) : contextOf (setPart s p x) j' = contextOf s j' := rfl
@[simp] theorem jobOf_setPart (s : State) (p : Nat) (x : Partition) (j' : Nat) : jobOf (setPart s p x) j' = jobOf s j' := rfl
@[simp] theorem mboxOf_setPart (s : State) (p : Nat) (x : Partition) (j' : Nat) : mboxOf (setPart s p x) j' = mboxOf s j' := rfl
@[simp] theorem portOf_setPart (s : State) (p : Nat) (x : Partition) (j' : Nat) : portOf (setPart s p x) j' = portOf s j' := rfl
@[simp] theorem flagOf_setPart (s : State) (p : Nat) (x : Partition) (j' : Nat) : flagOf (setPart s p x) j' = flagOf s j' := rfl

@[simp] theorem word_setLink (s : State) (k : Nat) (x : Link) (j' : Nat) : word (setLink s k x) j' = word s j' := rfl
@[simp] theorem byteAt_setLink (s : State) (k : Nat) (x : Link) (j' : Nat) : byteAt (setLink s k x) j' = byteAt s j' := rfl
@[simp] theorem tileOf_setLink (s : State) (k : Nat) (x : Link) (j' : Nat) : tileOf (setLink s k x) j' = tileOf s j' := rfl
@[simp] theorem coreOf_setLink (s : State) (k : Nat) (x : Link) (j' : Nat) : coreOf (setLink s k x) j' = coreOf s j' := rfl
@[simp] theorem chanOf_setLink (s : State) (k : Nat) (x : Link) (j' : Nat) : chanOf (setLink s k x) j' = chanOf s j' := rfl
@[simp] theorem bankOf_setLink (s : State) (k : Nat) (x : Link) (j' j2' : Nat) : bankOf (setLink s k x) j' j2' = bankOf s j' j2' := rfl
@[simp] theorem streamOf_setLink (s : State) (k : Nat) (x : Link) (j' : Nat) : streamOf (setLink s k x) j' = streamOf s j' := rfl
@[simp] theorem bruSlotOf_setLink (s : State) (k : Nat) (x : Link) (j' : Nat) : bruSlotOf (setLink s k x) j' = bruSlotOf s j' := rfl
@[simp] theorem queueOf_setLink (s : State) (k : Nat) (x : Link) (j' : Nat) : queueOf (setLink s k x) j' = queueOf s j' := rfl
@[simp] theorem slotOf_setLink (s : State) (k : Nat) (x : Link) (j' : Nat) : slotOf (setLink s k x) j' = slotOf s j' := rfl
@[simp] theorem groupOf_setLink (s : State) (k : Nat) (x : Link) (j' : Nat) : groupOf (setLink s k x) j' = groupOf s j' := rfl
@[simp] theorem granOf_setLink (s : State) (k : Nat) (x : Link) (j' : Nat) : granOf (setLink s k x) j' = granOf s j' := rfl
@[simp] theorem shmOf_setLink (s : State) (k : Nat) (x : Link) (j' : Nat) : shmOf (setLink s k x) j' = shmOf s j' := rfl
@[simp] theorem ddrOf_setLink (s : State) (k : Nat) (x : Link) (j' : Nat) : ddrOf (setLink s k x) j' = ddrOf s j' := rfl
@[simp] theorem partOf_setLink (s : State) (k : Nat) (x : Link) (j' : Nat) : partOf (setLink s k x) j' = partOf s j' := rfl
@[simp] theorem windowOf_setLink (s : State) (k : Nat) (x : Link) (j' : Nat) : windowOf (setLink s k x) j' = windowOf s j' := rfl
@[simp] theorem sessionOf_setLink (s : State) (k : Nat) (x : Link) (j' : Nat) : sessionOf (setLink s k x) j' = sessionOf s j' := rfl
@[simp] theorem contextOf_setLink (s : State) (k : Nat) (x : Link) (j' : Nat) : contextOf (setLink s k x) j' = contextOf s j' := rfl
@[simp] theorem jobOf_setLink (s : State) (k : Nat) (x : Link) (j' : Nat) : jobOf (setLink s k x) j' = jobOf s j' := rfl
@[simp] theorem mboxOf_setLink (s : State) (k : Nat) (x : Link) (j' : Nat) : mboxOf (setLink s k x) j' = mboxOf s j' := rfl
@[simp] theorem portOf_setLink (s : State) (k : Nat) (x : Link) (j' : Nat) : portOf (setLink s k x) j' = portOf s j' := rfl
@[simp] theorem flagOf_setLink (s : State) (k : Nat) (x : Link) (j' : Nat) : flagOf (setLink s k x) j' = flagOf s j' := rfl

@[simp] theorem word_setWindow (s : State) (w : Nat) (x : Window) (j' : Nat) : word (setWindow s w x) j' = word s j' := rfl
@[simp] theorem byteAt_setWindow (s : State) (w : Nat) (x : Window) (j' : Nat) : byteAt (setWindow s w x) j' = byteAt s j' := rfl
@[simp] theorem tileOf_setWindow (s : State) (w : Nat) (x : Window) (j' : Nat) : tileOf (setWindow s w x) j' = tileOf s j' := rfl
@[simp] theorem coreOf_setWindow (s : State) (w : Nat) (x : Window) (j' : Nat) : coreOf (setWindow s w x) j' = coreOf s j' := rfl
@[simp] theorem chanOf_setWindow (s : State) (w : Nat) (x : Window) (j' : Nat) : chanOf (setWindow s w x) j' = chanOf s j' := rfl
@[simp] theorem bankOf_setWindow (s : State) (w : Nat) (x : Window) (j' j2' : Nat) : bankOf (setWindow s w x) j' j2' = bankOf s j' j2' := rfl
@[simp] theorem streamOf_setWindow (s : State) (w : Nat) (x : Window) (j' : Nat) : streamOf (setWindow s w x) j' = streamOf s j' := rfl
@[simp] theorem bruSlotOf_setWindow (s : State) (w : Nat) (x : Window) (j' : Nat) : bruSlotOf (setWindow s w x) j' = bruSlotOf s j' := rfl
@[simp] theorem queueOf_setWindow (s : State) (w : Nat) (x : Window) (j' : Nat) : queueOf (setWindow s w x) j' = queueOf s j' := rfl
@[simp] theorem slotOf_setWindow (s : State) (w : Nat) (x : Window) (j' : Nat) : slotOf (setWindow s w x) j' = slotOf s j' := rfl
@[simp] theorem groupOf_setWindow (s : State) (w : Nat) (x : Window) (j' : Nat) : groupOf (setWindow s w x) j' = groupOf s j' := rfl
@[simp] theorem granOf_setWindow (s : State) (w : Nat) (x : Window) (j' : Nat) : granOf (setWindow s w x) j' = granOf s j' := rfl
@[simp] theorem shmOf_setWindow (s : State) (w : Nat) (x : Window) (j' : Nat) : shmOf (setWindow s w x) j' = shmOf s j' := rfl
@[simp] theorem ddrOf_setWindow (s : State) (w : Nat) (x : Window) (j' : Nat) : ddrOf (setWindow s w x) j' = ddrOf s j' := rfl
@[simp] theorem partOf_setWindow (s : State) (w : Nat) (x : Window) (j' : Nat) : partOf (setWindow s w x) j' = partOf s j' := rfl
@[simp] theorem linkOf_setWindow (s : State) (w : Nat) (x : Window) (j' : Nat) : linkOf (setWindow s w x) j' = linkOf s j' := rfl
@[simp] theorem sessionOf_setWindow (s : State) (w : Nat) (x : Window) (j' : Nat) : sessionOf (setWindow s w x) j' = sessionOf s j' := rfl
@[simp] theorem contextOf_setWindow (s : State) (w : Nat) (x : Window) (j' : Nat) : contextOf (setWindow s w x) j' = contextOf s j' := rfl
@[simp] theorem jobOf_setWindow (s : State) (w : Nat) (x : Window) (j' : Nat) : jobOf (setWindow s w x) j' = jobOf s j' := rfl
@[simp] theorem mboxOf_setWindow (s : State) (w : Nat) (x : Window) (j' : Nat) : mboxOf (setWindow s w x) j' = mboxOf s j' := rfl
@[simp] theorem portOf_setWindow (s : State) (w : Nat) (x : Window) (j' : Nat) : portOf (setWindow s w x) j' = portOf s j' := rfl
@[simp] theorem flagOf_setWindow (s : State) (w : Nat) (x : Window) (j' : Nat) : flagOf (setWindow s w x) j' = flagOf s j' := rfl

@[simp] theorem word_setSession (s : State) (n : Nat) (x : Option Session) (j' : Nat) : word (setSession s n x) j' = word s j' := rfl
@[simp] theorem byteAt_setSession (s : State) (n : Nat) (x : Option Session) (j' : Nat) : byteAt (setSession s n x) j' = byteAt s j' := rfl
@[simp] theorem tileOf_setSession (s : State) (n : Nat) (x : Option Session) (j' : Nat) : tileOf (setSession s n x) j' = tileOf s j' := rfl
@[simp] theorem coreOf_setSession (s : State) (n : Nat) (x : Option Session) (j' : Nat) : coreOf (setSession s n x) j' = coreOf s j' := rfl
@[simp] theorem chanOf_setSession (s : State) (n : Nat) (x : Option Session) (j' : Nat) : chanOf (setSession s n x) j' = chanOf s j' := rfl
@[simp] theorem bankOf_setSession (s : State) (n : Nat) (x : Option Session) (j' j2' : Nat) : bankOf (setSession s n x) j' j2' = bankOf s j' j2' := rfl
@[simp] theorem streamOf_setSession (s : State) (n : Nat) (x : Option Session) (j' : Nat) : streamOf (setSession s n x) j' = streamOf s j' := rfl
@[simp] theorem bruSlotOf_setSession (s : State) (n : Nat) (x : Option Session) (j' : Nat) : bruSlotOf (setSession s n x) j' = bruSlotOf s j' := rfl
@[simp] theorem queueOf_setSession (s : State) (n : Nat) (x : Option Session) (j' : Nat) : queueOf (setSession s n x) j' = queueOf s j' := rfl
@[simp] theorem slotOf_setSession (s : State) (n : Nat) (x : Option Session) (j' : Nat) : slotOf (setSession s n x) j' = slotOf s j' := rfl
@[simp] theorem groupOf_setSession (s : State) (n : Nat) (x : Option Session) (j' : Nat) : groupOf (setSession s n x) j' = groupOf s j' := rfl
@[simp] theorem granOf_setSession (s : State) (n : Nat) (x : Option Session) (j' : Nat) : granOf (setSession s n x) j' = granOf s j' := rfl
@[simp] theorem shmOf_setSession (s : State) (n : Nat) (x : Option Session) (j' : Nat) : shmOf (setSession s n x) j' = shmOf s j' := rfl
@[simp] theorem ddrOf_setSession (s : State) (n : Nat) (x : Option Session) (j' : Nat) : ddrOf (setSession s n x) j' = ddrOf s j' := rfl
@[simp] theorem partOf_setSession (s : State) (n : Nat) (x : Option Session) (j' : Nat) : partOf (setSession s n x) j' = partOf s j' := rfl
@[simp] theorem linkOf_setSession (s : State) (n : Nat) (x : Option Session) (j' : Nat) : linkOf (setSession s n x) j' = linkOf s j' := rfl
@[simp] theorem windowOf_setSession (s : State) (n : Nat) (x : Option Session) (j' : Nat) : windowOf (setSession s n x) j' = windowOf s j' := rfl
@[simp] theorem contextOf_setSession (s : State) (n : Nat) (x : Option Session) (j' : Nat) : contextOf (setSession s n x) j' = contextOf s j' := rfl
@[simp] theorem jobOf_setSession (s : State) (n : Nat) (x : Option Session) (j' : Nat) : jobOf (setSession s n x) j' = jobOf s j' := rfl
@[simp] theorem mboxOf_setSession (s : State) (n : Nat) (x : Option Session) (j' : Nat) : mboxOf (setSession s n x) j' = mboxOf s j' := rfl
@[simp] theorem portOf_setSession (s : State) (n : Nat) (x : Option Session) (j' : Nat) : portOf (setSession s n x) j' = portOf s j' := rfl
@[simp] theorem flagOf_setSession (s : State) (n : Nat) (x : Option Session) (j' : Nat) : flagOf (setSession s n x) j' = flagOf s j' := rfl

@[simp] theorem word_setContext (s : State) (c : Nat) (x : Option Context) (j' : Nat) : word (setContext s c x) j' = word s j' := rfl
@[simp] theorem byteAt_setContext (s : State) (c : Nat) (x : Option Context) (j' : Nat) : byteAt (setContext s c x) j' = byteAt s j' := rfl
@[simp] theorem tileOf_setContext (s : State) (c : Nat) (x : Option Context) (j' : Nat) : tileOf (setContext s c x) j' = tileOf s j' := rfl
@[simp] theorem coreOf_setContext (s : State) (c : Nat) (x : Option Context) (j' : Nat) : coreOf (setContext s c x) j' = coreOf s j' := rfl
@[simp] theorem chanOf_setContext (s : State) (c : Nat) (x : Option Context) (j' : Nat) : chanOf (setContext s c x) j' = chanOf s j' := rfl
@[simp] theorem bankOf_setContext (s : State) (c : Nat) (x : Option Context) (j' j2' : Nat) : bankOf (setContext s c x) j' j2' = bankOf s j' j2' := rfl
@[simp] theorem streamOf_setContext (s : State) (c : Nat) (x : Option Context) (j' : Nat) : streamOf (setContext s c x) j' = streamOf s j' := rfl
@[simp] theorem bruSlotOf_setContext (s : State) (c : Nat) (x : Option Context) (j' : Nat) : bruSlotOf (setContext s c x) j' = bruSlotOf s j' := rfl
@[simp] theorem queueOf_setContext (s : State) (c : Nat) (x : Option Context) (j' : Nat) : queueOf (setContext s c x) j' = queueOf s j' := rfl
@[simp] theorem slotOf_setContext (s : State) (c : Nat) (x : Option Context) (j' : Nat) : slotOf (setContext s c x) j' = slotOf s j' := rfl
@[simp] theorem groupOf_setContext (s : State) (c : Nat) (x : Option Context) (j' : Nat) : groupOf (setContext s c x) j' = groupOf s j' := rfl
@[simp] theorem granOf_setContext (s : State) (c : Nat) (x : Option Context) (j' : Nat) : granOf (setContext s c x) j' = granOf s j' := rfl
@[simp] theorem shmOf_setContext (s : State) (c : Nat) (x : Option Context) (j' : Nat) : shmOf (setContext s c x) j' = shmOf s j' := rfl
@[simp] theorem ddrOf_setContext (s : State) (c : Nat) (x : Option Context) (j' : Nat) : ddrOf (setContext s c x) j' = ddrOf s j' := rfl
@[simp] theorem partOf_setContext (s : State) (c : Nat) (x : Option Context) (j' : Nat) : partOf (setContext s c x) j' = partOf s j' := rfl
@[simp] theorem linkOf_setContext (s : State) (c : Nat) (x : Option Context) (j' : Nat) : linkOf (setContext s c x) j' = linkOf s j' := rfl
@[simp] theorem windowOf_setContext (s : State) (c : Nat) (x : Option Context) (j' : Nat) : windowOf (setContext s c x) j' = windowOf s j' := rfl
@[simp] theorem sessionOf_setContext (s : State) (c : Nat) (x : Option Context) (j' : Nat) : sessionOf (setContext s c x) j' = sessionOf s j' := rfl
@[simp] theorem jobOf_setContext (s : State) (c : Nat) (x : Option Context) (j' : Nat) : jobOf (setContext s c x) j' = jobOf s j' := rfl
@[simp] theorem mboxOf_setContext (s : State) (c : Nat) (x : Option Context) (j' : Nat) : mboxOf (setContext s c x) j' = mboxOf s j' := rfl
@[simp] theorem portOf_setContext (s : State) (c : Nat) (x : Option Context) (j' : Nat) : portOf (setContext s c x) j' = portOf s j' := rfl
@[simp] theorem flagOf_setContext (s : State) (c : Nat) (x : Option Context) (j' : Nat) : flagOf (setContext s c x) j' = flagOf s j' := rfl

@[simp] theorem word_setJob (s : State) (j : Nat) (x : Option Job) (j' : Nat) : word (setJob s j x) j' = word s j' := rfl
@[simp] theorem byteAt_setJob (s : State) (j : Nat) (x : Option Job) (j' : Nat) : byteAt (setJob s j x) j' = byteAt s j' := rfl
@[simp] theorem tileOf_setJob (s : State) (j : Nat) (x : Option Job) (j' : Nat) : tileOf (setJob s j x) j' = tileOf s j' := rfl
@[simp] theorem coreOf_setJob (s : State) (j : Nat) (x : Option Job) (j' : Nat) : coreOf (setJob s j x) j' = coreOf s j' := rfl
@[simp] theorem chanOf_setJob (s : State) (j : Nat) (x : Option Job) (j' : Nat) : chanOf (setJob s j x) j' = chanOf s j' := rfl
@[simp] theorem bankOf_setJob (s : State) (j : Nat) (x : Option Job) (j' j2' : Nat) : bankOf (setJob s j x) j' j2' = bankOf s j' j2' := rfl
@[simp] theorem streamOf_setJob (s : State) (j : Nat) (x : Option Job) (j' : Nat) : streamOf (setJob s j x) j' = streamOf s j' := rfl
@[simp] theorem bruSlotOf_setJob (s : State) (j : Nat) (x : Option Job) (j' : Nat) : bruSlotOf (setJob s j x) j' = bruSlotOf s j' := rfl
@[simp] theorem queueOf_setJob (s : State) (j : Nat) (x : Option Job) (j' : Nat) : queueOf (setJob s j x) j' = queueOf s j' := rfl
@[simp] theorem slotOf_setJob (s : State) (j : Nat) (x : Option Job) (j' : Nat) : slotOf (setJob s j x) j' = slotOf s j' := rfl
@[simp] theorem groupOf_setJob (s : State) (j : Nat) (x : Option Job) (j' : Nat) : groupOf (setJob s j x) j' = groupOf s j' := rfl
@[simp] theorem granOf_setJob (s : State) (j : Nat) (x : Option Job) (j' : Nat) : granOf (setJob s j x) j' = granOf s j' := rfl
@[simp] theorem shmOf_setJob (s : State) (j : Nat) (x : Option Job) (j' : Nat) : shmOf (setJob s j x) j' = shmOf s j' := rfl
@[simp] theorem ddrOf_setJob (s : State) (j : Nat) (x : Option Job) (j' : Nat) : ddrOf (setJob s j x) j' = ddrOf s j' := rfl
@[simp] theorem partOf_setJob (s : State) (j : Nat) (x : Option Job) (j' : Nat) : partOf (setJob s j x) j' = partOf s j' := rfl
@[simp] theorem linkOf_setJob (s : State) (j : Nat) (x : Option Job) (j' : Nat) : linkOf (setJob s j x) j' = linkOf s j' := rfl
@[simp] theorem windowOf_setJob (s : State) (j : Nat) (x : Option Job) (j' : Nat) : windowOf (setJob s j x) j' = windowOf s j' := rfl
@[simp] theorem sessionOf_setJob (s : State) (j : Nat) (x : Option Job) (j' : Nat) : sessionOf (setJob s j x) j' = sessionOf s j' := rfl
@[simp] theorem contextOf_setJob (s : State) (j : Nat) (x : Option Job) (j' : Nat) : contextOf (setJob s j x) j' = contextOf s j' := rfl
@[simp] theorem mboxOf_setJob (s : State) (j : Nat) (x : Option Job) (j' : Nat) : mboxOf (setJob s j x) j' = mboxOf s j' := rfl
@[simp] theorem portOf_setJob (s : State) (j : Nat) (x : Option Job) (j' : Nat) : portOf (setJob s j x) j' = portOf s j' := rfl
@[simp] theorem flagOf_setJob (s : State) (j : Nat) (x : Option Job) (j' : Nat) : flagOf (setJob s j x) j' = flagOf s j' := rfl

@[simp] theorem word_setMbox (s : State) (c : Nat) (x : Mailbox) (j' : Nat) : word (setMbox s c x) j' = word s j' := rfl
@[simp] theorem byteAt_setMbox (s : State) (c : Nat) (x : Mailbox) (j' : Nat) : byteAt (setMbox s c x) j' = byteAt s j' := rfl
@[simp] theorem tileOf_setMbox (s : State) (c : Nat) (x : Mailbox) (j' : Nat) : tileOf (setMbox s c x) j' = tileOf s j' := rfl
@[simp] theorem coreOf_setMbox (s : State) (c : Nat) (x : Mailbox) (j' : Nat) : coreOf (setMbox s c x) j' = coreOf s j' := rfl
@[simp] theorem chanOf_setMbox (s : State) (c : Nat) (x : Mailbox) (j' : Nat) : chanOf (setMbox s c x) j' = chanOf s j' := rfl
@[simp] theorem bankOf_setMbox (s : State) (c : Nat) (x : Mailbox) (j' j2' : Nat) : bankOf (setMbox s c x) j' j2' = bankOf s j' j2' := rfl
@[simp] theorem streamOf_setMbox (s : State) (c : Nat) (x : Mailbox) (j' : Nat) : streamOf (setMbox s c x) j' = streamOf s j' := rfl
@[simp] theorem bruSlotOf_setMbox (s : State) (c : Nat) (x : Mailbox) (j' : Nat) : bruSlotOf (setMbox s c x) j' = bruSlotOf s j' := rfl
@[simp] theorem queueOf_setMbox (s : State) (c : Nat) (x : Mailbox) (j' : Nat) : queueOf (setMbox s c x) j' = queueOf s j' := rfl
@[simp] theorem slotOf_setMbox (s : State) (c : Nat) (x : Mailbox) (j' : Nat) : slotOf (setMbox s c x) j' = slotOf s j' := rfl
@[simp] theorem groupOf_setMbox (s : State) (c : Nat) (x : Mailbox) (j' : Nat) : groupOf (setMbox s c x) j' = groupOf s j' := rfl
@[simp] theorem granOf_setMbox (s : State) (c : Nat) (x : Mailbox) (j' : Nat) : granOf (setMbox s c x) j' = granOf s j' := rfl
@[simp] theorem shmOf_setMbox (s : State) (c : Nat) (x : Mailbox) (j' : Nat) : shmOf (setMbox s c x) j' = shmOf s j' := rfl
@[simp] theorem ddrOf_setMbox (s : State) (c : Nat) (x : Mailbox) (j' : Nat) : ddrOf (setMbox s c x) j' = ddrOf s j' := rfl
@[simp] theorem partOf_setMbox (s : State) (c : Nat) (x : Mailbox) (j' : Nat) : partOf (setMbox s c x) j' = partOf s j' := rfl
@[simp] theorem linkOf_setMbox (s : State) (c : Nat) (x : Mailbox) (j' : Nat) : linkOf (setMbox s c x) j' = linkOf s j' := rfl
@[simp] theorem windowOf_setMbox (s : State) (c : Nat) (x : Mailbox) (j' : Nat) : windowOf (setMbox s c x) j' = windowOf s j' := rfl
@[simp] theorem sessionOf_setMbox (s : State) (c : Nat) (x : Mailbox) (j' : Nat) : sessionOf (setMbox s c x) j' = sessionOf s j' := rfl
@[simp] theorem contextOf_setMbox (s : State) (c : Nat) (x : Mailbox) (j' : Nat) : contextOf (setMbox s c x) j' = contextOf s j' := rfl
@[simp] theorem jobOf_setMbox (s : State) (c : Nat) (x : Mailbox) (j' : Nat) : jobOf (setMbox s c x) j' = jobOf s j' := rfl
@[simp] theorem portOf_setMbox (s : State) (c : Nat) (x : Mailbox) (j' : Nat) : portOf (setMbox s c x) j' = portOf s j' := rfl
@[simp] theorem flagOf_setMbox (s : State) (c : Nat) (x : Mailbox) (j' : Nat) : flagOf (setMbox s c x) j' = flagOf s j' := rfl

@[simp] theorem word_setPort (s : State) (p : Nat) (x : NetPort) (j' : Nat) : word (setPort s p x) j' = word s j' := rfl
@[simp] theorem byteAt_setPort (s : State) (p : Nat) (x : NetPort) (j' : Nat) : byteAt (setPort s p x) j' = byteAt s j' := rfl
@[simp] theorem tileOf_setPort (s : State) (p : Nat) (x : NetPort) (j' : Nat) : tileOf (setPort s p x) j' = tileOf s j' := rfl
@[simp] theorem coreOf_setPort (s : State) (p : Nat) (x : NetPort) (j' : Nat) : coreOf (setPort s p x) j' = coreOf s j' := rfl
@[simp] theorem chanOf_setPort (s : State) (p : Nat) (x : NetPort) (j' : Nat) : chanOf (setPort s p x) j' = chanOf s j' := rfl
@[simp] theorem bankOf_setPort (s : State) (p : Nat) (x : NetPort) (j' j2' : Nat) : bankOf (setPort s p x) j' j2' = bankOf s j' j2' := rfl
@[simp] theorem streamOf_setPort (s : State) (p : Nat) (x : NetPort) (j' : Nat) : streamOf (setPort s p x) j' = streamOf s j' := rfl
@[simp] theorem bruSlotOf_setPort (s : State) (p : Nat) (x : NetPort) (j' : Nat) : bruSlotOf (setPort s p x) j' = bruSlotOf s j' := rfl
@[simp] theorem queueOf_setPort (s : State) (p : Nat) (x : NetPort) (j' : Nat) : queueOf (setPort s p x) j' = queueOf s j' := rfl
@[simp] theorem slotOf_setPort (s : State) (p : Nat) (x : NetPort) (j' : Nat) : slotOf (setPort s p x) j' = slotOf s j' := rfl
@[simp] theorem groupOf_setPort (s : State) (p : Nat) (x : NetPort) (j' : Nat) : groupOf (setPort s p x) j' = groupOf s j' := rfl
@[simp] theorem granOf_setPort (s : State) (p : Nat) (x : NetPort) (j' : Nat) : granOf (setPort s p x) j' = granOf s j' := rfl
@[simp] theorem shmOf_setPort (s : State) (p : Nat) (x : NetPort) (j' : Nat) : shmOf (setPort s p x) j' = shmOf s j' := rfl
@[simp] theorem ddrOf_setPort (s : State) (p : Nat) (x : NetPort) (j' : Nat) : ddrOf (setPort s p x) j' = ddrOf s j' := rfl
@[simp] theorem partOf_setPort (s : State) (p : Nat) (x : NetPort) (j' : Nat) : partOf (setPort s p x) j' = partOf s j' := rfl
@[simp] theorem linkOf_setPort (s : State) (p : Nat) (x : NetPort) (j' : Nat) : linkOf (setPort s p x) j' = linkOf s j' := rfl
@[simp] theorem windowOf_setPort (s : State) (p : Nat) (x : NetPort) (j' : Nat) : windowOf (setPort s p x) j' = windowOf s j' := rfl
@[simp] theorem sessionOf_setPort (s : State) (p : Nat) (x : NetPort) (j' : Nat) : sessionOf (setPort s p x) j' = sessionOf s j' := rfl
@[simp] theorem contextOf_setPort (s : State) (p : Nat) (x : NetPort) (j' : Nat) : contextOf (setPort s p x) j' = contextOf s j' := rfl
@[simp] theorem jobOf_setPort (s : State) (p : Nat) (x : NetPort) (j' : Nat) : jobOf (setPort s p x) j' = jobOf s j' := rfl
@[simp] theorem mboxOf_setPort (s : State) (p : Nat) (x : NetPort) (j' : Nat) : mboxOf (setPort s p x) j' = mboxOf s j' := rfl
@[simp] theorem flagOf_setPort (s : State) (p : Nat) (x : NetPort) (j' : Nat) : flagOf (setPort s p x) j' = flagOf s j' := rfl

@[simp] theorem word_setFlag (s : State) (f : Nat) (v : Word) (j' : Nat) : word (setFlag s f v) j' = word s j' := rfl
@[simp] theorem byteAt_setFlag (s : State) (f : Nat) (v : Word) (j' : Nat) : byteAt (setFlag s f v) j' = byteAt s j' := rfl
@[simp] theorem tileOf_setFlag (s : State) (f : Nat) (v : Word) (j' : Nat) : tileOf (setFlag s f v) j' = tileOf s j' := rfl
@[simp] theorem coreOf_setFlag (s : State) (f : Nat) (v : Word) (j' : Nat) : coreOf (setFlag s f v) j' = coreOf s j' := rfl
@[simp] theorem chanOf_setFlag (s : State) (f : Nat) (v : Word) (j' : Nat) : chanOf (setFlag s f v) j' = chanOf s j' := rfl
@[simp] theorem bankOf_setFlag (s : State) (f : Nat) (v : Word) (j' j2' : Nat) : bankOf (setFlag s f v) j' j2' = bankOf s j' j2' := rfl
@[simp] theorem streamOf_setFlag (s : State) (f : Nat) (v : Word) (j' : Nat) : streamOf (setFlag s f v) j' = streamOf s j' := rfl
@[simp] theorem bruSlotOf_setFlag (s : State) (f : Nat) (v : Word) (j' : Nat) : bruSlotOf (setFlag s f v) j' = bruSlotOf s j' := rfl
@[simp] theorem queueOf_setFlag (s : State) (f : Nat) (v : Word) (j' : Nat) : queueOf (setFlag s f v) j' = queueOf s j' := rfl
@[simp] theorem slotOf_setFlag (s : State) (f : Nat) (v : Word) (j' : Nat) : slotOf (setFlag s f v) j' = slotOf s j' := rfl
@[simp] theorem groupOf_setFlag (s : State) (f : Nat) (v : Word) (j' : Nat) : groupOf (setFlag s f v) j' = groupOf s j' := rfl
@[simp] theorem granOf_setFlag (s : State) (f : Nat) (v : Word) (j' : Nat) : granOf (setFlag s f v) j' = granOf s j' := rfl
@[simp] theorem shmOf_setFlag (s : State) (f : Nat) (v : Word) (j' : Nat) : shmOf (setFlag s f v) j' = shmOf s j' := rfl
@[simp] theorem ddrOf_setFlag (s : State) (f : Nat) (v : Word) (j' : Nat) : ddrOf (setFlag s f v) j' = ddrOf s j' := rfl
@[simp] theorem partOf_setFlag (s : State) (f : Nat) (v : Word) (j' : Nat) : partOf (setFlag s f v) j' = partOf s j' := rfl
@[simp] theorem linkOf_setFlag (s : State) (f : Nat) (v : Word) (j' : Nat) : linkOf (setFlag s f v) j' = linkOf s j' := rfl
@[simp] theorem windowOf_setFlag (s : State) (f : Nat) (v : Word) (j' : Nat) : windowOf (setFlag s f v) j' = windowOf s j' := rfl
@[simp] theorem sessionOf_setFlag (s : State) (f : Nat) (v : Word) (j' : Nat) : sessionOf (setFlag s f v) j' = sessionOf s j' := rfl
@[simp] theorem contextOf_setFlag (s : State) (f : Nat) (v : Word) (j' : Nat) : contextOf (setFlag s f v) j' = contextOf s j' := rfl
@[simp] theorem jobOf_setFlag (s : State) (f : Nat) (v : Word) (j' : Nat) : jobOf (setFlag s f v) j' = jobOf s j' := rfl
@[simp] theorem mboxOf_setFlag (s : State) (f : Nat) (v : Word) (j' : Nat) : mboxOf (setFlag s f v) j' = mboxOf s j' := rfl
@[simp] theorem portOf_setFlag (s : State) (f : Nat) (v : Word) (j' : Nat) : portOf (setFlag s f v) j' = portOf s j' := rfl

@[simp] theorem word_raise (s : State) (e : FaultEv) (j' : Nat) : word (raise s e) j' = word s j' := rfl
@[simp] theorem byteAt_raise (s : State) (e : FaultEv) (j' : Nat) : byteAt (raise s e) j' = byteAt s j' := rfl
@[simp] theorem tileOf_raise (s : State) (e : FaultEv) (j' : Nat) : tileOf (raise s e) j' = tileOf s j' := rfl
@[simp] theorem coreOf_raise (s : State) (e : FaultEv) (j' : Nat) : coreOf (raise s e) j' = coreOf s j' := rfl
@[simp] theorem chanOf_raise (s : State) (e : FaultEv) (j' : Nat) : chanOf (raise s e) j' = chanOf s j' := rfl
@[simp] theorem bankOf_raise (s : State) (e : FaultEv) (j' j2' : Nat) : bankOf (raise s e) j' j2' = bankOf s j' j2' := rfl
@[simp] theorem streamOf_raise (s : State) (e : FaultEv) (j' : Nat) : streamOf (raise s e) j' = streamOf s j' := rfl
@[simp] theorem bruSlotOf_raise (s : State) (e : FaultEv) (j' : Nat) : bruSlotOf (raise s e) j' = bruSlotOf s j' := rfl
@[simp] theorem queueOf_raise (s : State) (e : FaultEv) (j' : Nat) : queueOf (raise s e) j' = queueOf s j' := rfl
@[simp] theorem slotOf_raise (s : State) (e : FaultEv) (j' : Nat) : slotOf (raise s e) j' = slotOf s j' := rfl
@[simp] theorem groupOf_raise (s : State) (e : FaultEv) (j' : Nat) : groupOf (raise s e) j' = groupOf s j' := rfl
@[simp] theorem granOf_raise (s : State) (e : FaultEv) (j' : Nat) : granOf (raise s e) j' = granOf s j' := rfl
@[simp] theorem shmOf_raise (s : State) (e : FaultEv) (j' : Nat) : shmOf (raise s e) j' = shmOf s j' := rfl
@[simp] theorem ddrOf_raise (s : State) (e : FaultEv) (j' : Nat) : ddrOf (raise s e) j' = ddrOf s j' := rfl
@[simp] theorem partOf_raise (s : State) (e : FaultEv) (j' : Nat) : partOf (raise s e) j' = partOf s j' := rfl
@[simp] theorem linkOf_raise (s : State) (e : FaultEv) (j' : Nat) : linkOf (raise s e) j' = linkOf s j' := rfl
@[simp] theorem windowOf_raise (s : State) (e : FaultEv) (j' : Nat) : windowOf (raise s e) j' = windowOf s j' := rfl
@[simp] theorem sessionOf_raise (s : State) (e : FaultEv) (j' : Nat) : sessionOf (raise s e) j' = sessionOf s j' := rfl
@[simp] theorem contextOf_raise (s : State) (e : FaultEv) (j' : Nat) : contextOf (raise s e) j' = contextOf s j' := rfl
@[simp] theorem jobOf_raise (s : State) (e : FaultEv) (j' : Nat) : jobOf (raise s e) j' = jobOf s j' := rfl
@[simp] theorem mboxOf_raise (s : State) (e : FaultEv) (j' : Nat) : mboxOf (raise s e) j' = mboxOf s j' := rfl
@[simp] theorem portOf_raise (s : State) (e : FaultEv) (j' : Nat) : portOf (raise s e) j' = portOf s j' := rfl
@[simp] theorem flagOf_raise (s : State) (e : FaultEv) (j' : Nat) : flagOf (raise s e) j' = flagOf s j' := rfl

end Sys2Proof.Laws
end

