-- ==== Sys2Proof/WellFormed.lean ====
section
/-!
DEFINITION. Sys2Proof/WellFormed.lean: the ranges the spec gives the numbers a command names (R1, R2, R19, R32, R34, R246,
R300, R310, R380). A meaning is total on ill-formed commands too: an object that does not exist is left alone.
-/
namespace Sys2Proof
open Machine

/-- Whether a source names something the part has (R19, R310). -/
def wfSrc : Src → Bool
  | .tile n => decide (n < 72)
  | .core n => decide (n < 8)
  | .dma n => decide (n < 128)
  | .bru j => decide (j < 64)
  | .port p => decide (p < 16)
  | .trig p => decide (p < 16)
  | .slot i => decide (i < 256)
  | .queue q => decide (q < 512)
  | .stroke n => decide (n < 32)
  | .mgmt n => decide (n < 2)
  | .mbox c => decide (c < 16)
  | .bridge k => decide (k < 4)
  | .net => true
  | .aon => true
  | .ddr k => decide (k < 4)
  | .app n => decide (n < 8)
  | .plate n => decide (n < 4)
  | .colour n => decide (n < 2)
  | .endpoint _ => true

/-- Whether an island is one of the 125 of R19. -/
def wfDomain : Domain → Bool
  | .tile n => decide (n < 72)
  | .core n => decide (n < 8)
  | .port p => decide (p < 16)
  | .plate n => decide (n < 4)
  | .colour n => decide (n < 2)
  | .stat => true
  | .pcm => true
  | .bru => true
  | .stipple n => decide (n < 2)
  | .dma k => decide (k < 4)
  | .ddr k => decide (k < 4)
  | .bridge k => decide (k < 4)
  | .network => true
  | .appCluster k => decide (k < 2)
  | .mgmt => true
  | .smi => true
  | .aon => true

/-- Whether an address lies in the 40-bit map (R32). -/
def wfAddr (a : Nat) : Bool := decide (a < 2 ^ 40)

/-- Whether a command's operands are in range. -/
def wf : Instr → Bool
  | .registerWrite src a _ => wfSrc src && wfAddr a
  | .counterClearWrite src a _ => wfSrc src && wfAddr a
  | .misalignedRegisterAccess src a _ _ => wfSrc src && wfAddr a
  | .absentWindowAccess src a _ => wfSrc src && wfAddr a
  | .unmappedWindowAccess src a _ => wfSrc src && wfAddr a
  | .pairLowWordRead src a => wfSrc src && wfAddr a
  | .pairHighWordRead src a => wfSrc src && wfAddr a
  | .resetEndpointRequest src a _ => wfSrc src && wfAddr a
  | .slow d => wfDomain d
  | .slowClear d => wfDomain d
  | .segmentMoveSwitch n => decide (n < 72)
  | .domainReset d => wfDomain d
  | .domainResetDone d => wfDomain d
  | .resetNAssert => true
  | .resetNRelease => true
  | .smiResetNEvent _ => true
  | .smiWatchdogFire => true
  | .csiFrameStart p vc _ _ => decide (p < 16) && decide (vc < 16)
  | .csiLineStart p vc _ _ => decide (p < 16) && decide (vc < 16)
  | .csiLongPacket pk => decide (pk.port < 16) && decide (pk.vc < 16) && decide (pk.dt < 64)
  | .csiFrameEnd p vc _ => decide (p < 16) && decide (vc < 16)
  | .frameTimeout p k => decide (p < 16) && decide (k < 16)
  | .triggerFrameMissing p k => decide (p < 16) && decide (k < 16)
  | .externalTrigger p => decide (p < 16)
  | .trigPulseEnd p => decide (p < 16)
  | .sensorSettingsWrite b => decide (b < 16)
  | .sensorWriteNack b => decide (b < 16)
  | .plateStripeTake n => decide (n < 4)
  | .plateStripeDone n => decide (n < 4)
  | .statRecordWrite n => decide (n < 32)
  | .plCommit src n _ => wfSrc src && decide (n < 32)
  | .clCommit src n _ => wfSrc src && decide (n < 32)
  | .colourStripeTake n => decide (n < 2)
  | .colourFrameEnd n => decide (n < 2)
  | .strokeLaunch n => decide (n < 32)
  | .frameAdmit n => decide (n < 32)
  | .stripeDispatch n => decide (n < 32)
  | .resultRecordWrite n => decide (n < 32)
  | .strokeBarrierComplete n => decide (n < 32)
  | .layer n _ => decide (n < 72)
  | .loop n => decide (n < 72)
  | .endloop n => decide (n < 72)
  | .wait n => decide (n < 72)
  | .signal n => decide (n < 72)
  | .rotate n => decide (n < 72)
  | .rotateArrived n => decide (n < 72)
  | .halt n => decide (n < 72)
  | .haltComplete n => decide (n < 72)
  | .fetchDone n _ => decide (n < 72)
  | .outputWriteNack n a => decide (n < 72) && wfAddr a
  | .fetchReadNack n => decide (n < 72)
  | .fetchTranslationFault n _ => decide (n < 72)
  | .tileStart src n => wfSrc src && decide (n < 72)
  | .tileCancel src n => wfSrc src && decide (n < 72)
  | .tileStopDone n => decide (n < 72)
  | .tileCounterClear src n => wfSrc src && decide (n < 72)
  | .tileWatchdog n => decide (n < 72)
  | .stringRestart n k => decide (n < 32) && decide (k < 8)
  | .bruSubmit src _ => wfSrc src
  | .bruCancel src _ => wfSrc src
  | .bruIterationStart => true
  | .bruIterationDone => true
  | .bruSlotRead src j => wfSrc src && decide (j < 64)
  | .bundleIssue n _ => decide (n < 8)
  | .etchStart src n => wfSrc src && decide (n < 8)
  | .etchCancel src n => wfSrc src && decide (n < 8)
  | .etchStopDone n => decide (n < 8)
  | .etchCounterClear src n => wfSrc src && decide (n < 8)
  | .dmaStart src c => wfSrc src && decide (c < 128)
  | .dmaCancel src c => wfSrc src && decide (c < 128)
  | .dmaResume src c => wfSrc src && decide (c < 128)
  | .dmaAbort src c => wfSrc src && decide (c < 128)
  | .dmaClear src c => wfSrc src && decide (c < 128)
  | .move c => decide (c < 128)
  | .burstIssue k => decide (k < 4)
  | .burstReadReturn c _ _ => decide (c < 128)
  | .burstWriteAnswer c _ => decide (c < 128)
  | .moveComplete c => decide (c < 128)
  | .dmaLoop c => decide (c < 128)
  | .dmaWait c => decide (c < 128)
  | .dmaSignal c => decide (c < 128)
  | .dmaProgramEnd c => decide (c < 128)
  | .dmaTranslationFault c => decide (c < 128)
  | .dmaStopDone c => decide (c < 128)
  | .patrolScrubRead k _ => decide (k < 4)
  | .selfRefreshEntry k => decide (k < 4)
  | .selfRefreshExit k => decide (k < 4)
  | .ddrChannelFailure k => decide (k < 4)
  | .shmModeChangeDone n => decide (n < 16)
  | .shmBankPowerUp b => decide (b < 256)
  | .iommuInvalidate src _ => wfSrc src
  | .iommuInvalidateDone => true
  | .granuleGrant g c _ => decide (g < 8448) && decide (c < 64)
  | .granuleRelease g _ => decide (g < 8448)
  | .granuleHoldExpiry g => decide (g < 8448)
  | .dirtyGranuleAccess src a _ => wfSrc src && wfAddr a
  | .scrubStart g => decide (g < 8448)
  | .scrubDone g => decide (g < 8448)
  | .flagUpdate src f _ _ => wfSrc src && decide (f < 65536)
  | .flagWrite src f _ => wfSrc src && decide (f < 65536)
  | .flagRead src f => wfSrc src && decide (f < 65536)
  | .waitExpiry w => decide (w < 1104)
  | .deadlockCheck w => decide (w < 1104)
  | .queueEnable src q _ => wfSrc src && decide (q < 512)
  | .queueEntryStart q => decide (q < 512)
  | .launchSlotArm src i _ => wfSrc src && decide (i < 256)
  | .launchSlotDisarm src i _ => wfSrc src && decide (i < 256)
  | .launchSlotFire i => decide (i < 256)
  | .contextCancelWrite src _ => wfSrc src
  | .contextCancelApply c => decide (c < 64)
  | .timeSourceSelect src _ => wfSrc src
  | .gptpSyncMessage p _ => decide (p < 4)
  | .bridgeTimeMessage k _ _ => decide (k < 4)
  | .timeSourceLost => true
  | .deviceTimeStep => true
  | .networkFrameReceive f => decide (f.port < 4)
  | .acpMessageReceive m => decide (m.bytes.length ≤ 4096)
  | .hello r => decide (r.typ = 0x0001)
  | .query _ => true
  | .setConfig _ => true
  | .topology _ => true
  | .attest _ => true
  | .openContext _ => true
  | .closeContext r => decide (r.ctx < 64)
  | .setEnergyBudget r => decide (r.ctx < 64)
  | .loadPackage r => decide (r.ctx < 64)
  | .unloadPackage r => decide (r.ctx < 64)
  | .createStream r => decide (r.ctx < 64)
  | .startStream r => decide (r.ctx < 64)
  | .stop r => decide (r.ctx < 64)
  | .cancel r => decide (r.ctx < 64)
  | .setSettings r => decide (r.ctx < 64)
  | .launchJob r => decide (r.ctx < 64)
  | .destroyStream r => decide (r.ctx < 64)
  | .snapshot r => decide (r.ctx < 64)
  | .installLicence _ => true
  | .fwUpdate _ => true
  | .resetPartition _ => true
  | .acpRouteForward _ => true
  | .sessionTimeout _ => true
  | .transferAbandon _ _ => true
  | .mailboxClaim src c => wfSrc src && decide (c < 16)
  | .mailboxRing src c => wfSrc src && decide (c < 16)
  | .mailboxAck src c => wfSrc src && decide (c < 16)
  | .mailboxTake c => decide (c < 16)
  | .noticePlace c => decide (c < 16)
  | .linkTraining k _ => decide (k < 4)
  | .linkRetrain k _ => decide (k < 4)
  | .linkRetrainRequest src k _ => wfSrc src && decide (k < 4)
  | .routeUpdate k _ _ => decide (k < 4)
  | .routeLossTimeout _ => true
  | .remoteAccess a => decide (a.link < 4)
  | .flagWindowWrite a => decide (a.link < 4)
  | .importTimeout _ => true
  | .windowClose _ => true
  | .windowCloseDone _ => true
  | .inletWrite src off _ => wfSrc src && decide (off < 0x40000)
  | .inletCommit src _ => wfSrc src
  | .smiMessageTake => true
  | .measure => true
  | .fwChunk => true
  | .fwCommit => true
  | .smiFwDone => true
  | .calInstall => true
  | .paramSet => true
  | .licence => true
  | .logRead => true
  | .keyStatement => true
  | .smiBoot => true
  | .sealChange _ => true
  | .vddSmiChange _ => true
  | .energySample l => decide (l.length ≤ 52)
  | .energyWindow => true
  | .launchHoldTimeout _ => true
  | .partitionEnable src p => wfSrc src && decide (p < 48)
  | .partitionDisable src p => wfSrc src && decide (p < 48)
  | .partitionPowerUpDone p => decide (p < 48)
  | .partitionPowerDownDone p => decide (p < 48)
  | .partitionIdleTimeout p => decide (p < 48)
  | .deviceIdleEntry => true
  | .parkEntry => true
  | .parkWake f => decide (f.port < 4)
  | .temperatureSample l => decide (l.length ≤ 24)
  | .thermalCapRelease => true
  | .recoveryBroadcast => true
  | .recoveryImageStart _ => true
  | .bringupStart _ => true
  | .readinessCheck => true
  | .bootWatchdog => true
  | .fwActivation => true
  | .fwHandoverDone => true
  | .fwRollback => true
  | .probationEnd => true
  | .fwRewriteDone => true
  | .managementWatchdogFire n => decide (n < 2)
  | .managementCoreRestartDone n => decide (n < 2)
  | .flashTransaction => true
  | .flashProgramDone => true
  | .ringBlockReclaim n => decide (n < 4)
  | .powerCut => true
  | .referenceClockLoss => true
  | .referenceClockRestored => true
  | .avsVoltageSet mv => decide (mv < 2000)
  | .jtagInstruction _ => true
  | .faultEvent e => decide (e.code < 0x700) && decide (e.status < 256)
  | .faultRecordHandling => true
  | .colourStripeDone n => decide (n < 2)
  | .phyLockChange p _ => decide (p < 16)
  | .deskewSequence p _ => decide (p < 16)
  | .networkLinkChange p _ => decide (p < 4)
  | .shmBankPowerDown src b => wfSrc src && decide (b < 256)
  | .importRequest _ _ _ => true
  | .importGranted _ _ _ _ _ _ => true

end Sys2Proof
end

