-- ==== Sys2Proof/Tests/Slice0.lean ====
section
/-!
SUPPORT. Sys2Proof/Tests/Slice0.lean: the model's own tests, and for every statement with hypotheses a state that meets them.
-/
namespace Sys2Proof.Tests
open Sys2Proof.Machine
set_option Elab.async false
set_option maxRecDepth 100000

/-! ### States of the tests -/

/-- Every partition on, the device READY, both management cores at work, the first 64 tiles in service. -/
def live : State :=
  { State.reset with
    power := { state := .active, parts := (List.range 48).map (fun p => (p, { st := .on })) }
    boot := { st := .ready, mgmt := [(0, { running := true }), (1, { running := true })] }
    pins := { resetN := true }
    retire := { inService := List.range 64 }
    smi := { st := .running } }

/-- Words with some set, by byte offset. -/
def wordsWith (n : Nat) (l : List (Nat × Nat)) : List Word :=
  l.foldl (fun d e => d.set (e.1 / 4) (BitVec.ofNat 32 e.2)) (List.replicate n 0#32)

/-- Words with their checkword after them. -/
def sealedWords (l : List Word) : List Word := l ++ [crcWords l]

/-- Bytes of words. -/
def bytesOf (l : List Word) : List Byte := l.flatMap (fun w => leBytes 4 w.toNat)

/-- A request of a session from a network port. -/
def request (typ : Nat) (tlvs : List (Nat × List Byte)) : AcpReq :=
  { origin := .net 0 0, sess := 0, major := 3, minor := 2, typ := typ, ctx := 0, seq := 1, tlvs := tlvs, profile := none, plan := none }

/-- An open session that executes some requests. -/
def sessionOfReqs (l : List AcpReq) : Session :=
  { origin := .net 0 0, hostId := 1, major := 3, minor := 2, mgmtOnly := false, timeout := 60, lastReq := 0, open' := true, executing := l }

/-- The live device with such a session and its open context 0. -/
def asking (r : AcpReq) : State :=
  { live with host := { sessions := [(0, some (sessionOfReqs [r]))], contexts := [(0, some { sess := 0 })] } }

/-- The live device whose translation context 0 maps I/O addresses 0 to 2 MiB onto themselves, readable and writable. -/
def mapped : State :=
  { live with
    regs := [(iommuBase, 1), (iommuBase + 8, 0x10000)]
    mem := [(0x10000, 1), (0x10005, 0x20), (0x10006, 1), (0x12000, 3), (0x12001, 0x40), (0x12002, 1), (0x14000, 13)] }

/-- A firmware image that passes every check. -/
def image0 : FwImage :=
  { headerOk := true, keyOk := true, sigOk := true, digestOk := true, minStepping := 0xB0, release := 2, security := 0, handMin := 1,
    handOut := 1, length := 4096, digest := 7 }

/-- The device in RECOVERY with that image staged. -/
def recovering : State := { live with boot := { live.boot with st := .recovery, staged := some image0 } }

/-- A self-test that finds nothing. -/
def cleanTest : SelfTest :=
  { tiles := [], cores := [], ports := [], plates := [], colours := [], bru := false, stipples := [], netPorts := [], appCores := [],
    mgmt := [], service := true }

/-- A memory export of 1 MiB and a flag export of group 0. -/
def expMem : ExportBuf :=
  { ident := 1, ctx := 0, xlate := 0, base := 0, bytes := 0x100000, flagGroup := false, read := true, write := true, obj := (0, 0),
    granules := [], closedAt := none }
def expFlag : ExportBuf := { expMem with ident := 2, bytes := 256, flagGroup := true }

/-- The mapped device with link 0 up to device 2, both exports open, flag group 0 context 0's. -/
def linked : State :=
  { mapped with
    licences := [31]
    groups := [(0, { owner := some 0 })]
    bridge := {
      links := [(0, { st := .up, width := 4, version := 2, peer := 2, peerSystem := 5 })]
      record := some { device := 1, system := 5, master := 0, takeTime := false, seq := 1, links := [(4, true, 2, 0)] }
      exports := [expMem, expFlag] } }

/-- That device with link 0 in training after some attempts. -/
def trainingLink (n : Nat) : State := { linked with bridge := { linked.bridge with links := [(0, { st := .training, attempts := n })] } }

/-- A training attempt that settles on ×8, and one without a common width. -/
def goodTrain : TrainResult :=
  { lanes := List.replicate 8 true, peerWidth := 4, peerV1 := true, peerV2 := true, peerSystem := 5, peerDevice := 2, peerLink := 0, eyePass := true }
def badTrain : TrainResult := { goodTrain with peerWidth := 0 }

/-- A remote read of the memory export, a remote write to the flag export. -/
def remoteRead : RemoteReq := { link := 0, sender := 2, endpoint := 0, num := 0, exportId := 1, offset := 0, write := false, data := [], bytes := 4 }
def remoteAdd : RemoteReq := { remoteRead with exportId := 2, write := true, data := [1, 0, 0, 0], bytes := 0 }

/-- A request that waits for two imports. -/
def reqImport : AcpReq := request 0x0020 []
def wait7 : ImportWait := { ident := 7, owner := 2, ctx := 0, xlate := 0, io := 0x200000, until' := 100, sess := 0, seq := 1 }
def wait8 : ImportWait := { wait7 with ident := 8 }
def importing : State :=
  { mapped with
    host := (asking reqImport).host
    bridge := { imports := [wait7, wait8] } }

/-- A job of the BRU that ranks `n` records of 8 bytes at I/O address `a`. -/
def rankJob (n a : Nat) : List Word :=
  sealedWords (wordsWith 31 [(0, 0x800101), (0x10, 1), (0x18, a), (0x28, 0x8000), (0x30, 0x1000), (0x38, n), (0x3C, 8)])

/-- A device whose BRU slot 63 waits with its condition met. -/
def ranking (d : List Word) (s : State) : State := { s with bru := { slots := [(63, { st := .waiting, desc := d, metAt := some 0 })] } }

/-- A sensor profile. -/
def prof0 : SensorProfile :=
  { routes := [(0, 0x2C)], width := 16, height := 16, exposures := 1, interleaved := false, embDt := none, embLines := [], lanes := 4, rateMbps := 4000,
    contClock := true, deskew := true, laneMap := 0, invert := 0, frameTag := none, bus := 0, i2c := true, addr := 0x10,
    expo := { regs := [{ exposure := 0, reg := 0, shift := 0, bits := 16 }], mul := 1, div := 1, latency := 1 }, gain := { regs := [{ exposure := 0, reg := 2, shift := 0, bits := 16 }], mul := 1, div := 1, latency := 1 },
    groupHold := none,
    triggered := false, trigPin := 0, lineNumbers := false, period := 1000000, tol := 100, timeout := 1000, pad := 0 }

/-- A running Stroke of 16 × 16 frames in stripes of 8 rows, without strings, frame 0 taken in, its first stripe a marker. -/
def frame0 : FrameRec := { seq := 0, csiNo := 1, start := 0 }
def stroke0 : Stream :=
  { ctx := 0, sess := 0, desc := wordsWith 64 [(8, 8), (0xC, 0x100010), (0x74, 1)], profile := prof0, bank := 0, rate := 30, options := 0,
    phase := .running, frames := [frame0], markers := [0] }

/-- The live device with one stream. -/
def streaming (x : Stream) : State := { live with streams := [(0, some x)] }

/-- The same with a colour stage at work on the marker. -/
def colouring (s : State) : State :=
  { s with
    streams := [(0, some stroke0)]
    colours := [(0, some { stream := 0, stripe := 0, frame := 0, index := 0, marker := true })]
    clLatch := [(0, [(0, 1)])] }

/-- A channel program with its header. -/
def dmaProg (instr : List Nat) : List Word :=
  let b := instr.map (BitVec.ofNat 32)
  let h := [BitVec.ofNat 32 (1 + (4 + instr.length) * 65536), 0, 0]
  h ++ [crcWords (h ++ b)] ++ b

/-- Channel 0 of context 0, untranslated or through translation context 0, with a program at 0x1000. -/
def dmaAt (phys : Bool) (x : Chan) (instr : List Nat) (s : State) : State :=
  store { s with
    regs := [(dmReg 0 8, 0x1000), (dmReg 0 0x10, if phys then 0x30000 else 0x20000)] ++ s.regs
    groups := [(0, { owner := some 0 })]
    chans := [(0, x)] } 0x1000 (bytesOf (dmaProg instr))

/-- A channel about to execute its first instruction. -/
def chan0 : Chan := { st := .running, pc := 4 }

/-- The words of a MOVE of `n` bytes. -/
def moveWords (w0 n src dst : Nat) : List Nat := [w0, 0, src, 0, dst, 0, n, 0, 0, 0, 0, 0, 0, 0, 0, 0]

/-- A MOVE of 8 bytes in progress. -/
def move8 (w0 : Nat) : MoveWork :=
  { words := (moveWords w0 8 0x2000 0x3000).map (BitVec.ofNat 32), src := 0x2000, dst := 0x3000, target := 0, cur := [0, 0, 0, 0], down := false,
    issuedAll := false, nacked := false, redo := 0, fmt := 0 }
def burst8 : Burst := { pos := [0, 0, 0, 0], reads := [(0x2000, 8)], writes := [(0x3000, 8)], got := false, old := false }

/-- Channel 0 untranslated, in a state of its own. -/
def dma0 (x : Chan) : State := dmaAt true x [] live

/-- Core 0 about to issue the bundle of some words. -/
def coreAt (x : Core) (ws : List Nat) : State :=
  store { live with
    regs := [(ecReg 0 0x10, 0)]
    groups := [(0, { owner := some 0 })]
    cores := [(0, x)] } (eimemBase 0) (bytesOf (ws.map (BitVec.ofNat 32)))
def core0 : Core := { st := .running }

/-- Tile 0 with a fetch of 64 bytes to issue. -/
def fetch64 : Fetch := { src := 0x2000, dst := 0, wm := false, row := 64, rows := 1, stride := 64, issued := 0, faulted := false }
def fetching : State := { mapped with tiles := [(0, { st := .running, fetch := [fetch64] })] }

theorem one_context : ∀ c, 64 ≤ c → contextOf (asking (request 1 [])) c = none := by
  intro c hc
  have h : c ≠ 0 := by omega
  simp [contextOf, asking, tget, h]

theorem one_charge : ∀ (c : Nat) (x : Machine.Context), contextOf (asking (request 1 [])) c = some x →
    x.charged + ((List.range 52).map (fun p => (List.replicate 52 0xFFFFFF).getD p 0 % 2 ^ 24)).sum < 2 ^ 64 := by
  intro c x h
  have hx : x.charged = 0 := by
    simp only [contextOf, asking, tget] at h
    split at h
    · cases h; rfl
    · cases h
  rw [hx]
  decide +kernel

/-- The live device with a session of some form and its open context 0. -/
def askingIn (x : Session) (s : State) : State :=
  { s with host := { sessions := [(0, some x)], contexts := [(0, some { sess := 0 })] } }

/-- The TLV that names an object. -/
def objTlv (k i : Nat) : Nat × List Byte := (0x8037, leBytes 4 k ++ leBytes 4 i)

/-- A topology record without links. -/
def topo0 : List Byte := leBytes 48 1 ++ leBytes 4 (crc32c (leBytes 48 1)).toNat

/-- A licence key, the signature of a licence of feature 0 with it, and that licence for serial number 5EED; both computed
outside the model. -/
def licKey : List Byte := beBytes 64
  0x8e533b6fa0bf7b4625bb30667c01fb607ef9f8b8a80fef5b300628703187b2a373eb1dbde03318366d069f83a6f5900053c73633cb041b21c55e1a86c1f400b4
def licSig : List Byte := beBytes 64
  0x51590b7a515140d2d784c85608668fdfef8c82fd1f5be52421554a0dc3d033edab2aea972333249acc717084c91d738c22665e9d730a78574880857e746e6e52
def licence : List Byte := [1] ++ List.replicate 7 0 ++ leBytes 16 0x5EED ++ [1] ++ List.replicate 39 0 ++ licSig ++ licKey
def licHash : Nat := 0x2238f0e348c0445a60affd248bfe765db34318c0a10bfc9fc7423170e019d490
def licensing (l : List Nat) : State :=
  { asking (request 1 [(0x8044, licence)]) with licences := l, fuses := { licKeyHash := licHash, serial := 0x5EED } }

/-- A wait of a core, due. -/
def wait0 : WaitEntry := { who := 72, flag := 0xFFFF, eq := true, value := 1, start := 0, expiry := 0, granted := false }

/-- An open port whose bank 0 takes 16 × 16 frames of 8-bit samples of virtual channel 0 for Stroke 0. -/
def intake (b : Bank) (w0 : Nat) : State :=
  { live with
    regs := [(intakeBase 0, 1), (intakeBase 0 + 8, 1), (intakeBase 0 + 0x40, BitVec.ofNat 32 (1 + 0x2A * 32)),
      (bankKey 0 0 0, BitVec.ofNat 32 w0), (bankKey 0 0 0x10, BitVec.ofNat 32 (16 + 16 * 0x10000 + 0x40000000)), (bankKey 0 0 0x34, 0x80)]
    banks := [(0, b)] }
def inFrame0 : InFrame :=
  { seq := 0, csiNo := 1, start := 0, flags := 0, placed := [0], interleave := 0, baseLine := none, padRows := 0, tag := none }

/-- A command of a session, as a datagram; an answer already sent. -/
def dgram (typ ctx seq : Nat) : AcpDatagram :=
  { origin := .net 0 0, macsec := false, bytes := [3, 2, 0, 0] ++ leBytes 2 typ ++ leBytes 2 ctx ++ leBytes 4 seq ++ leBytes 4 0,
    profile := none, plan := none }
def sent0 : Sent := { sess := 0, kind := 0x80, status := stOK, typ := 0x10, ctx := 0, seq := 1, tlvs := [] }
def openSess (x : Session) : State := askingIn x live

/-- The live device with port 0 up; frames on it. -/
def netLive : State := { live with host := { ports := [(0, { up := true })] } }
def frameOfBytes (n : Nat) (k : FrameKind) : EthFrame :=
  { port := 0, macsecOk := false, bytes := n, dstMac := 0, vlan := some 0, kind := k, payload := [] }

/-- The live device with mailbox 4 in some state, bound to application core 0, and a partition in some state. -/
def mailbox (b : MboxState) : State :=
  { live with regs := [(mboxBase 4 + 0x1008, 1)], host := { mboxes := [(4, { st := b })] } }
def withPart (p : Nat) (x : Partition) (up : Nat) : State :=
  { live with power := { live.power with parts := (p, x) :: live.power.parts }, clk := { up := up } }
def withPower (x : Power) (up : Nat) : State :=
  { live with power := { x with parts := live.power.parts }, clk := { up := up } }

/-- A waiter of a package that is its flag's only signaller. -/
def planOf (l : List FlagDecl) : PlanContent :=
  { networks := [], inlet := false, heights := 0, radii := [], fixed := false, variants := [], decls := l, bindings := [], dmas := [],
    cores := [], stippleFmts := [], shmBanks := 0 }
def selfWait : State :=
  { live with
    checks := [{ who := 208, ctx := none, flag := some 0xFFFF }]
    host := {
      packages := [{
        ident := 0
        ctx := 0
        content := planOf [{ flag := 0xFFFF, waiters := [], signallers := [.bru 0], barrier := false, participants := [] }] }] } }

/-- A Stroke whose closed frame waits for the Plate. -/
def platePort : Stream := { stroke0 with desc := stroke0.desc.set 8 8#32, frames := [{ frame0 with close := some 0, plate := [(0, 1)] }] }
def plating (f : FrameRec) : State :=
  { live with
    plates := [(3, some { stream := 0, frame := 0, stripe := 0, port := 0, bank := 0, started := 0 })]
    streams := [(0, some { stroke0 with frames := [f] })] }

/-- Launch queue 511 of context 0 with its first entry. -/
def queued (e : List Nat) (q : Queue) (s : State) : State :=
  store { s with
    regs := [(queueReg 511 0, 0x8000), (queueReg 511 8, 0x80000010), (queueReg 511 0xC, 1)] ++ s.regs
    groups := [(0, { owner := some 0 })]
    queues := [(511, q)] } 0x8000 (bytesOf (e.map (BitVec.ofNat 32)))
def tileOwned (ctl : Nat) : State := { live with regs := [(gtReg 63 0x10, 0), (gtReg 63 0, BitVec.ofNat 32 ctl)] }

/-- A Stroke with a sensor setting for its next frame, due or issued. -/
def setJob (issued : Bool) : SetJob :=
  { ident := 0, target := 1, values := [(0, 5)], shifted := false, expoIssued := issued, gainIssued := true, status := stOK }
def setting (issued : Bool) : Stream := { stroke0 with sets := [setJob issued] }

/-- The mapped device whose Stroke has a frame that is through, its records at 0x4000. -/
def doneFrame : FrameRec := { frame0 with colourEnd := some 0 }
def recording : Stream :=
  { stroke0 with desc := wordsWith 64 [(8, 8), (0xC, 0x100010), (0x38, 0x4000), (0x40, 1), (0x74, 1)], frames := [doneFrame] }
def recState : State := { mapped with streams := [(0, some recording)] }
def recStored : State :=
  (xlateStore recState (.stroke 0) (dXlate recording) (dResult recording + 64 + recording.written % dResultN recording * 128)
    (frameRecord 0 recording (if (dReal recording && decide (0 < lateness recState recording doneFrame)) = true then
      orFlags flDEADLINE doneFrame else doneFrame) (recordStatus recording doneFrame (lateness recState recording doneFrame))
      (lateness recState recording doneFrame) recState.clk.now)).getD live
def recCounted : State := (xlateStore recStored (.stroke 0) (dXlate recording) (dResult recording) (leBytes 4 (recording.written + 1))).getD live

theorem pair_none {α : Type} {p : State × Option α} (h : p.2.isNone = true) : p = (p.1, none) := by
  obtain ⟨a, b⟩ := p
  cases b with
  | none => rfl
  | some t => simp at h

theorem get_some {o : Option State} (h : o.isSome = true) : o = some (o.getD live) := by
  cases o with
  | none => simp at h
  | some t => rfl

/-- The SMI at work on a message. -/
def smiWith (x : Smi) : State := { live with smi := { x with st := .running } }
def nextOf (o : Host.Outcome State Fault Refusal) : State := match o with | .next t => t | _ => live

/-- A message of the SMI: header with the words at 32 and 36, content, checkword. The signatures after it were made outside the
model, with the licence key. -/
def smiMsg (kind a32 a36 : Nat) (content : List Byte) : List Byte :=
  let h := [1, 0, BitVec.ofNat 8 kind] ++ List.replicate 21 0 ++ leBytes 4 (64 + content.length)
  let t := leBytes 4 a32 ++ leBytes 4 a36 ++ List.replicate 24 0 ++ content
  h ++ leBytes 4 (crc32c (h ++ [0, 0, 0, 0] ++ t)).toNat ++ t
def signedMsg (kind a32 a36 : Nat) (content : List Byte) (sig : Nat) : List Byte :=
  smiMsg kind a32 a36 (content ++ licKey ++ beBytes 64 sig)
def commitMsg : List Byte := signedMsg 0x11 1 0 []
  0x51590b7a515140d2d784c85608668fdfef8c82fd1f5be52421554a0dc3d033ed2c4ba837e3b2fba40fb5e0a53689c97b39e6bf3928ff99a688432371d0f50f00
def calMsg : List Byte := signedMsg 0x20 7 1 (List.replicate 60 0)
  0x51590b7a515140d2d784c85608668fdfef8c82fd1f5be52421554a0dc3d033ed986f83305623312242170a1feaa3d2474c5b5b702303077db821c9eb5deb7ff8
def paramMsg : List Byte := signedMsg 0x21 4 0 [5, 0, 0, 0]
  0x51590b7a515140d2d784c85608668fdfef8c82fd1f5be52421554a0dc3d033ed3c06cca9bec7d880703ef22e84ccd5cf573dcfb509cdf0bdbcd7ffa000d6e414
/-- The same with a key that is not the device's. -/
def badMsg (m : List Byte) : List Byte :=
  let b := m.set (m.length - 128) 0
  b.take 28 ++ leBytes 4 (crc32c (blankCheck b)).toNat ++ b.drop 32
def licMsg : List Byte := smiMsg 0x30 0 0 licence

/-- The SMI at work on a message, sealed or not, with one byte of firmware staged. -/
def smiHas (sealed' : Bool) (bs : List Byte) : State :=
  { live with
    smi := { st := .running, sealed := sealed', work := some bs, staged := [(0, [1])], keyHash := some licHash,
             licKeyHash := licHash, serial := 0x5EED } }

/-- The first tile about to take a record, alone in its context 0. -/
def tileAt (t : Tile) (ws : List Nat) (s : State) : State :=
  store { s with
    regs := (gtReg 0 0x10, 0) :: s.regs
    groups := [(0, { owner := some 0 })]
    tiles := [(0, t)] } (imemBase 0) (bytesOf (ws.map (BitVec.ofNat 32)))
def tile0 : Tile := { st := .running }
def loop0 (n : Nat) : LoopFrame := { level := n, body := 0, stop := 1, count := 2, iter := 0, steps := [] }

/-- A plan with one variant of one segment that takes 2 ns a stripe, for Strokes and jobs of context 0. -/
def aff0 : Affine := { a := 1, b := 0, c := 0 }
def seg0 : Segment := { logical := 0, first := 0, last := 0, outer := 0, ring := 0, am := aff0, wm := aff0, pm := aff0, imem := aff0, cycles := aff0 }
def variant0 : Variant :=
  { segs := [seg0], tiles := [{ logical := 0, words := [7], wm := [], nlf := [], ptrs := [] }], energy0 := 1, energyUnit := 0, perPixel := false, inFlag := 0, inCredit := 1, outFlag := 2, handFlag := 3, handCredit := 4, energy := true, buffers := 1,
    parkOff := 0, parkBank := 0, parkRow := 0, parkBytes := 0 }
def plan0 : PlanContent := { planOf [] with variants := [variant0] }
def pack0 : Package := { ident := 0, ctx := 0, content := plan0 }

/-- A string of tile 0; a Stroke with it whose first stripe's rows are in the ring. -/
def string0 : Strg :=
  { index := 0, tiles := [0], dispatch := true, inFlight := [], parked := [], credits := 1, remap := [] }
def rows0 (missing : Bool) : List RingRow :=
  (List.range 16).map (fun r => { frame := 0, row := r, slot := r, missing := missing, ready := true })
def readyStroke (missing : Bool) : Stream :=
  { stroke0 with
    desc := wordsWith 64 [(8, 8), (0xC, 0x100010), (0x28, 100), (0x38, 0x4000), (0x40, 1), (0x74, 1)]
    frames := [{ frame0 with admitted := true }], strings := [string0], ring := rows0 missing }
def withStroke (x : Stream) (balance : Int) (s : State) : State :=
  { s with
    streams := [(0, some x)]
    host := { sessions := [(0, some (sessionOfReqs []))], contexts := [(0, some { sess := 0, balance := balance })], packages := [pack0] } }
/-- Its tile 0 waits while its segment moves to tile 1, whose memories are granted; the same for a job on tile 0. -/
def moving0 : State :=
  { live with
    moves := [(0, 1)]
    tiles := [(0, { st := .waiting })]
    granules := (tileGranules 1).map (fun g => (g, { st := .owned, owner := some 0 })) }
def moving : State := withStroke (readyStroke false) 0 moving0
def waitingStroke : Stream := { readyStroke false with frames := [frame0] }

/-- The mapped device whose Stroke's frame has its statistics, to be written at 0x4000. -/
def statDone0 : FrameRec :=
  { frame0 with close := some 0, platedRows := 16, plate := [(0, 0x100), (0x58, 0x4000), (0x60, 1)] }
def statStroke : Stream := { stroke0 with frames := [statDone0] }
def statState : State := { mapped with streams := [(0, some statStroke)], groups := [(0, { owner := some 0 })] }
def statPlaced : State :=
  setStream statState 0 (some (dropFinished (updFrame statStroke 0 (fun r => { r with statDone := true }))))
def statHeader : State := setWord statPlaced (plReg 0 104) 0
def statBytes : List Byte := statRecord 0 statDone0 (bankExps statState (dPort statStroke) statStroke.bank)
def statStored : State := (xlateStore statHeader (.endpoint 0) (dXlate statStroke) (0x4000 + 64) statBytes).getD live
def statCounted : State :=
  (xlateStore (setWord statStored (plReg 0 100) 1) (.endpoint 0) (dXlate statStroke) 0x4000 (leBytes 4 1)).getD live

/-- The same with the fetch's reads all issued. -/
def fetched : State := { mapped with tiles := [(0, { st := .running, fetch := [{ fetch64 with issued := 64 }] })] }

/-- The live device in a phase of a firmware update, the flash in some state. -/
def updating (p : UpdPhase) (f : Flash) : State :=
  { live with
    boot := { live.boot with phase := p, image := some image0, handOver := some { host := {}, streams := [], groups := [] } }
    flash := f }
def rec0 : FlashRec := { typ := 0x20, inst := 0, seq := 1, time := 0, payload := [1], done := true }
def tx0 : FlashTx := { recs := [rec0], reply := none }

/-- Granules of tile n granted to context 0. -/
def tileGrants (n : Nat) : Tbl Granule := (tileGranules n).map (fun g => (g, { st := .owned, owner := some 0 }))

/-- A job held for its flags. -/
def job0 : Job :=
  { ctx := 0, plan := 0, network := 0, variant := 0, req := request 0x36 [], st := .held, shape := [], estimate := 0, corrected := 0,
    measured := 0, heldAt := 0, energyShort := false, tiles := [], cores := [], chans := [], keep := false, drain := false, launchAt := 0,
    first := [] }

def movingJob : State := { moving0 with host := { jobs := [(0, some { job0 with st := .running, tiles := [0] })] } }

/-- A request for a Stroke without a plan, in stripes of raw samples, and the device that executes it. -/
def streamTlv : List Byte :=
  bytesOf (wordsWith 46 [(8, 30), (16, 3), (20, 0x10001), (24, 0x4000), (48, 0x8000), (56, 64), (156, 1), (168, 1040), (172, 0x20002)])
def streamReq : AcpReq := { request 0x30 [(0x8030, streamTlv)] with profile := some prof0 }
def creating : State :=
  { askingIn (sessionOfReqs [streamReq]) mapped with granules := [(8192, { st := .clean }), (8193, { st := .clean })] }

/-- A plan package with empty sections, signed with the licence key outside the model; a request that carries it. -/
def package1 : List Byte :=
  leBytes 64 (0x50535A34 + 4 * 2 ^ 32 + 6 * 2 ^ 48 + 256 * 2 ^ 64 + 2 ^ 128) ++
    ([1, 2, 3, 4, 5].flatMap (fun t => leBytes 16 (t + 192 * 2 ^ 32))) ++ leBytes 16 (0xFF + 192 * 2 ^ 32 + 64 * 2 ^ 64) ++ List.replicate 32 0 ++
    beBytes 64 0x51590b7a515140d2d784c85608668fdfef8c82fd1f5be52421554a0dc3d033ed02087dcaba0bbd875945738ee4375d522f7338d60c01d96c2d051c3604c0d234
def loadReq : AcpReq := { request 0x20 [(0x8020, leBytes 8 0 ++ package1)] with plan := some plan0 }
def transfer0 : Transfer := { ident := 0, typ := 0x20, ctx := 0, length := none, chunks := [], last := 0 }
def loadSess : Session := { sessionOfReqs [loadReq] with transfers := [transfer0] }
def loading (keys : List (Nat × List Byte)) : State :=
  { live with host := { (askingIn loadSess live).host with planKeys := keys } }

/-- A request to run a job of a loaded plan, and the device that executes it. -/
def net0 : Network := { index := 0, stroke := false, maxW := 16, maxH := 16, maxN := 1, maxT := 1, outPlanes := 1, outBits := 16 }
def jobPack : Package := { pack0 with content := { plan0 with networks := [net0] } }
def jobTlv0 : List Byte := leBytes 6 0 ++ [16, 0, 16, 0, 1, 0, 1, 0] ++ leBytes 4 0
def jobReq : AcpReq := request 0x35 [(0x8036, jobTlv0)]
def running : State :=
  { live with
    groups := [(0, { owner := some 0 })]
    host := { (asking jobReq).host with packages := [jobPack] } }

/-- A layer record with some words, sealed; the words of a layer of 1 × 1 × 1. -/
def layerRec (l : List (Nat × Nat)) : List Word := 1 :: sealedWords (wordsWith 31 l)
def dims1 : List (Nat × Nat) := [(24, 0x10001), (28, 1)]
def layerAt (t : Tile) (ws : List Word) : State := tileAt t (ws.map (fun w => w.toNat)) live

def stripped (s : State) (ws : List Word) : List Word × (Fetch → Fetch) := stripeLayer s 0 (steppedLayer (tileOf s 0) (ws.drop 1))

/-- A record of tile 0, which leaves its segment to tile 1, or takes it from tile 1. -/
def leavingTile (ws : List Nat) : State :=
  tileAt tile0 ws { withStroke { readyStroke false with strings := [{ string0 with tiles := [1] }] } 0 live with
    leaving := [{ slow := 0, spare := 1, left := 0, wait := 1 }] }
def takingTile (ws : List Nat) : State :=
  tileAt tile0 ws { withStroke { readyStroke false with strings := [{ string0 with inFlight := [0] }] } 0 live with
    leaving := [{ slow := 1, spare := 0, left := 1, wait := 1 }] }

/-- The same with energy for it. -/
def rich : State := { running with host := { running.host with contexts := [(0, some { sess := 0, balance := 100 })] } }

/-- A request that carries a part of a package. -/
def loadSessOf (b : List Byte) : Session := { sessionOfReqs [request 0x20 [(0x8020, b)]] with transfers := [transfer0] }
def loadingOf (b : List Byte) : State := askingIn (loadSessOf b) live

/-- The Stroke that the request makes, and the device asked to start it. -/
def rawFit : Fit := { h := rawHeight, variant := 0, strings := [] }
def newStream : Stream :=
  withRing creating (withFit
    { ctx := 0, sess := 0, desc := newDesc 0 0 1 (stageOf creating 0) prof0 streamTlv, profile := prof0, bank := 0, rate := 30,
      options := 0 } none rawFit)
def begunRegs : State :=
  let s := beginReq creating streamReq
  streamRegs { s with host := { s.host with strokeIds := 1 } } 0 newStream streamTlv
def launching : State :=
  { creating with
    regs := (clReg 0 0, 0x31) :: (plReg 0 0, 1) :: creating.regs
    host := (askingIn (sessionOfReqs [request 0x31 [objTlv 1 0]]) live).host
    streams := [(0, some newStream)] }

theorem no_job {s : State} (h : s.host.jobs = []) {p : Nat → Job → Prop} : ∀ k j, jobOf s k = some j → p k j := by
  intro k j hj
  simp [jobOf, h, tget] at hj
/-- A plan that reads the SMI's inlet. -/
def inletReq : AcpReq := { loadReq with plan := some { plan0 with inlet := true } }

theorem no_jobs : ∀ (j : Nat) (y : Job), jobOf (asking jobReq) j = some y → y.req ≠ jobReq := by
  intro j y h
  simp [jobOf, asking, tget] at h
theorem no_jobs_running : ∀ (j : Nat) (y : Job), jobOf running j = some y → y.req ≠ jobReq := by
  intro j y h
  simp [jobOf, running, asking, tget] at h

/-- Registers outside the range of a shadow leave it as it is; the free value of a new stream is such a register. -/
theorem filter_tset {α : Type} [DecidableEq α] {d v : α} {k : Nat} {p : Nat × α → Bool} (h : ∀ x, p (k, x) = false) (t : Tbl α) :
    (tset d t k v).filter p = t.filter p := by
  induction t generalizing v with
  | nil => by_cases hv : v = d <;> simp [tset, hv, h]
  | cons a t ih =>
    obtain ⟨a, w⟩ := a
    by_cases hk : k = a
    · subst hk
      by_cases hv : v = d <;> simp [tset, hv, h, ih]
    · by_cases hv : v = d
      · simp [tset, hk, hv, ih, List.filter_cons]
      · by_cases hl : k < a <;> simp [tset, hk, hv, hl, ih, List.filter_cons, h]

theorem plShadow_setWord {s : State} {k n : Nat} {v : Word} (h : ¬(plReg n 0 ≤ k ∧ k < plReg n 0x100)) :
    plShadow (setWord s k v) n = plShadow s n := by
  unfold plShadow
  rw [show (setWord s k v).regs = tset (keyReset k) s.regs k v from rfl, filter_tset]
  intro x
  simpa using h

theorem clShadow_setWord {s : State} {k n : Nat} {v : Word} (h : ¬(clReg n 0 ≤ k ∧ k < clReg n 0x100)) :
    clShadow (setWord s k v) n = clShadow s n := by
  unfold clShadow
  rw [show (setWord s k v).regs = tset (keyReset k) s.regs k v from rfl, filter_tset]
  intro x
  simpa using h

theorem new_plate :
    plBad (plShadow (begunRegs) 0) = false := by
  unfold begunRegs streamRegs
  rw [plShadow_setWord (by decide +kernel)]
  decide +kernel

theorem new_colour :
    clBad (clShadow (begunRegs) 0) = false := by
  unfold begunRegs streamRegs
  rw [clShadow_setWord (by decide +kernel)]
  decide +kernel

/-- Pages mapped before or after a register write that the IOMMU does not depend on. -/
theorem allocPages_setWord (s : State) (k n : Nat) (v : Word) :
    allocPages (setWord s k v) 64 n = (allocPages s 64 n).map (fun p => (p.1, setWord p.2 k v)) := by
  dsimp only [allocPages]
  rw [apply_ite (Option.map _)]
  rfl

theorem subTable_setWord (s : State) (k e : Nat) (v : Word) :
    subTable (setWord s k v) e = (subTable s e).map (fun p => (p.1, setWord p.2 k v)) := by
  unfold subTable
  rw [allocPages_setWord]
  dsimp only
  rw [apply_ite (Option.map _)]
  cases allocPages s 64 4096 <;> rfl

theorem mapPage_setWord (s : State) {k : Nat} (v : Word) (x io pa : Nat) (h : ∀ st : State, xlateEntry (setWord st k v) x = xlateEntry st x) :
    mapPage (setWord s k v) x io pa = (mapPage s x io pa).map (fun t => setWord t k v) := by
  have hn : ∀ a n, numAt (setWord s k v) a n = numAt s a n := fun _ _ => rfl
  simp only [mapPage, h, hn, subTable_setWord]
  generalize subTable s _ = o
  rcases o with _ | p
  · rfl
  · simp only [Option.map_some, subTable_setWord]
    generalize subTable p.2 _ = q
    rcases q with _ | q <;> rfl

theorem mapRange_setWord (s : State) {k : Nat} (v : Word) (x io pa n : Nat) (h : ∀ st : State, xlateEntry (setWord st k v) x = xlateEntry st x) :
    mapRange (setWord s k v) x io pa n = (mapRange s x io pa n).map (fun t => setWord t k v) := by
  unfold mapRange
  generalize List.range n = l
  suffices H : ∀ o : Option State, l.foldl (fun st i => st.bind (fun s => mapPage s x (io + 4096 * i) (pa + 4096 * i))) (o.map (fun t => setWord t k v)) =
      (l.foldl (fun st i => st.bind (fun s => mapPage s x (io + 4096 * i) (pa + 4096 * i))) o).map (fun t => setWord t k v) from H (some s)
  induction l with
  | nil => intro o; rfl
  | cons a l ih =>
    intro o
    rw [List.foldl_cons, List.foldl_cons, ← ih]
    cases o with
    | none => rfl
    | some t => simp only [Option.map_some, Option.bind_some, mapPage_setWord t v x _ _ h]

theorem new_ring : (mapRing begunRegs newStream).isSome = true := by
  unfold mapRing begunRegs streamRegs
  rw [mapRange_setWord]
  · rw [Option.isSome_map]; decide +kernel
  · intro st
    unfold xlateEntry wfld
    rw [Sys2Proof.Laws.word_setWord, Sys2Proof.Laws.word_setWord, if_neg (by decide +kernel), if_neg (by decide +kernel)]

/-- A request for the contents of SHM bank 0, held for its context. -/
def snapReq : AcpReq := request 1 [objTlv 9 0x10100, (0x8074, leBytes 12 0x100000)]
def snapping : State :=
  { askingIn (sessionOfReqs [snapReq]) mapped with licences := [16], granules := [(8192, { hold := some (.snapshot 0 5) })] }
def snapBytes : List Byte :=
  ((objectGranules 0x10100).filter (snapHeld snapping 0)).flatMap (fun g => bytesAt snapping (granuleRange g).1 (granuleRange g).2)
def snapped : State := (xlateStore (beginReq snapping snapReq) (.mgmt 0) 0 0x100000 snapBytes).getD live

theorem snap_store : xlateStore (beginReq snapping snapReq) (.mgmt 0) 0 0x100000 snapBytes = some snapped := by
  have hl : snapBytes.length = 0x40000 := by
    unfold snapBytes
    rw [show (objectGranules 0x10100).filter (snapHeld snapping 0) = [8192] by decide +kernel]
    simp [bytesAt, memBytes, granuleRange]
  apply get_some
  unfold xlateStore
  rw [hl, Option.isSome_map]
  decide +kernel

theorem commit_signed : msgSigned (msgBody commitMsg) (some licHash) = true := by decide +kernel
theorem cal_signed : msgSigned (msgBody calMsg) (some licHash) = true := by decide +kernel
theorem param_signed : msgSigned (msgBody paramMsg) (some licHash) = true := by decide +kernel
theorem licence_good : licenceStatus licence licHash 0x5EED = none := by decide +kernel
theorem licence_msg : licenceStatus (List.drop 64 (msgBody licMsg)) licHash 0x5EED = none := by
  rw [show List.drop 64 (msgBody licMsg) = licence by decide +kernel]
  exact licence_good

/-! ### Witnesses: for every clause with hypotheses, a state and operands that meet them -/

theorem witness_AbsentBeforeReset :
    (∃ (s : State) (src : Src) (addr : Nat), (locate addr ≠ Loc.nowhere) ∧ (locate addr = Loc.ddr → addr < s.ddrBytes) ∧ (locAbsent s src (locate addr) = true)) ∧
    (∃ (s : State) (src : Src) (addr : Nat) (d : Domain), (locate addr ≠ Loc.nowhere) ∧ (locate addr = Loc.ddr → addr < s.ddrBytes) ∧ (locAbsent s src (locate addr) = false) ∧ (locDomain addr (locate addr) = some d) ∧ (heldInReset s d = true)) :=
  ⟨⟨live, .app 0, tileBase 71, by decide +kernel, by decide +kernel, by decide +kernel⟩,
   ⟨State.reset, .mgmt 0, tileBase 0, .tile 0, by decide +kernel, by decide +kernel, by decide +kernel, by decide +kernel, by decide +kernel⟩⟩

theorem witness_BootStates :
    (∃ (s : State), (s.pins.resetN = true)) ∧
    (∃ (s : State), (s.pins.resetN = false) ∧ (s.pins.refClock = false)) ∧
    (∃ (s : State), (s.pins.resetN = false) ∧ (s.pins.refClock = true) ∧ (s.power.tripped = false)) ∧
    (∃ (s : State), (s.boot.st = DevState.recovery) ∧ (heldInReset s Domain.network = false) ∧ (heldInReset s Domain.mgmt = false)) ∧
    (∃ (s : State), (s.boot.st ≠ DevState.recovery ∨ heldInReset s Domain.network = true ∨ heldInReset s Domain.mgmt = true)) ∧
    (∃ (s : State) (i : FwImage), (s.boot.st = DevState.recovery) ∧ (s.boot.staged = some i) ∧ (imageReason s i = none) ∧ (heldInReset s Domain.mgmt = false)) ∧
    (∃ (s : State) (i : FwImage), (s.boot.st ≠ DevState.recovery ∨ s.boot.staged ≠ some i ∨ imageReason s i ≠ none ∨ heldInReset s Domain.mgmt = true)) ∧
    (∃ (s : State), (s.boot.st = DevState.bringup) ∧ (s.boot.testsDone = false) ∧ (heldInReset s Domain.mgmt = false)) ∧
    (∃ (s : State), (s.boot.st ≠ DevState.bringup ∨ s.boot.testsDone = true ∨ heldInReset s Domain.mgmt = true)) ∧
    (∃ (s : State) (bad : Option Nat), (s.boot.st = DevState.bringup) ∧ (s.boot.testsDone = true) ∧ (heldInReset s Domain.mgmt = false) ∧ (∀ k < 4, (linkOf s k).st ≠ LinkState.training) ∧ (bad = List.find? (fun k => decide ((linkEntry s k).1 ≠ 0) && !(linkEntry s k).2.1 && linkMissing s k) (List.range 4))) ∧
    (∃ (s : State), (s.boot.st ≠ DevState.bringup ∨ s.boot.testsDone = false ∨ heldInReset s Domain.mgmt = true ∨ ∃ k < 4, (linkOf s k).st = LinkState.training)) ∧
    (∃ (s : State), (s.boot.st = DevState.bootRom ∨ s.boot.st = DevState.bringup) ∧ (s.boot.checked = false) ∧ (s.boot.releasedAt + 30000000000 ≤ s.clk.up) ∧ (heldInReset s Domain.mgmt = false) ∧ (s.power.tripped = false)) ∧
    (∃ (s : State), (s.boot.st ≠ DevState.bootRom ∧ s.boot.st ≠ DevState.bringup ∨ s.boot.checked = true ∨ s.clk.up < s.boot.releasedAt + 30000000000 ∨ heldInReset s Domain.mgmt = true)) ∧
    (∃ (s : State), (s.pins.refClock = true) ∧ (s.pins.resetN = true)) ∧
    (∃ (s : State), (s.pins.refClock = true) ∧ (s.pins.resetN = false)) ∧
    (∃ (s : State), (s.pins.refClock = false)) ∧
    (∃ (s : State), (s.pins.refClock = true)) ∧
    (∃ (s : State), (s.pins.refClock = false) ∧ (s.pins.resetN = false)) ∧
    (∃ (s : State), (s.pins.refClock = false) ∧ (s.pins.resetN = true) ∧ (s.power.tripped = false)) ∧
    (∃ (s : State) (mv : Nat), (mv % 5 = 0) ∧ (500 ≤ mv) ∧ (mv ≤ 750) ∧ (s.pins.resetN = true)) ∧
    (∃ (s : State) (mv : Nat), (mv % 5 ≠ 0 ∨ mv < 500 ∨ 750 < mv ∨ s.pins.resetN = false)) :=
  ⟨⟨live, by decide +kernel⟩,
   ⟨{ State.reset with pins := { refClock := false } }, by decide +kernel, by decide +kernel⟩,
   ⟨State.reset, by decide +kernel, by decide +kernel, by decide +kernel⟩,
   ⟨recovering, by decide +kernel, by decide +kernel, by decide +kernel⟩,
   ⟨live, by decide +kernel⟩,
   ⟨recovering, image0, by decide +kernel, by decide +kernel, by decide +kernel, by decide +kernel⟩,
   ⟨live, image0, by decide +kernel⟩,
   ⟨{ live with boot := { live.boot with st := .bringup } }, by decide +kernel, by decide +kernel, by decide +kernel⟩,
   ⟨live, by decide +kernel⟩,
   ⟨{ live with boot := { live.boot with st := .bringup, testsDone := true } }, none, by decide +kernel, by decide +kernel, by decide +kernel, by decide +kernel, by decide +kernel⟩,
   ⟨live, by decide +kernel⟩,
   ⟨{ live with boot := { live.boot with st := .bringup }, clk := { up := 30000000000 } }, by decide +kernel, by decide +kernel, by decide +kernel, by decide +kernel, by decide +kernel⟩,
   ⟨live, by decide +kernel⟩,
   ⟨live, by decide +kernel, by decide +kernel⟩,
   ⟨State.reset, by decide +kernel, by decide +kernel⟩,
   ⟨{ live with pins := { refClock := false } }, by decide +kernel⟩,
   ⟨live, by decide +kernel⟩,
   ⟨{ live with pins := { refClock := false } }, by decide +kernel, by decide +kernel⟩,
   ⟨{ live with pins := { refClock := false, resetN := true } }, by decide +kernel, by decide +kernel, by decide +kernel⟩,
   ⟨live, 750, by decide +kernel, by decide +kernel, by decide +kernel, by decide +kernel⟩,
   ⟨live, 755, by decide +kernel⟩⟩

theorem witness_BridgeLinks :
    (∃ (s : State) (k : Nat) (w : Nat) (v : Nat) (r : TrainResult), (mayTrain s k = true) ∧ ((linkOf s k).st = LinkState.training) ∧ (w = min (laneWidth r.lanes) r.peerWidth) ∧ (v = if r.peerV2 = true then 2 else if r.peerV1 = true then 1 else 0) ∧ (w = 0) ∧ ((linkOf s k).attempts < 2)) ∧
    (∃ (s : State) (k : Nat) (w : Nat) (v : Nat) (r : TrainResult), (mayTrain s k = true) ∧ ((linkOf s k).st = LinkState.training) ∧ (w = min (laneWidth r.lanes) r.peerWidth) ∧ (v = if r.peerV2 = true then 2 else if r.peerV1 = true then 1 else 0) ∧ (w = 0) ∧ (2 ≤ (linkOf s k).attempts)) ∧
    (∃ (s : State) (k : Nat) (w : Nat) (v : Nat) (r : TrainResult), (mayTrain s k = true) ∧ ((linkOf s k).st = LinkState.training) ∧ (w = min (laneWidth r.lanes) r.peerWidth) ∧ (v = if r.peerV2 = true then 2 else if r.peerV1 = true then 1 else 0) ∧ (w ≠ 0)) ∧
    (∃ (s : State) (k : Nat), (mayTrain s k = false ∨ (linkOf s k).st ≠ LinkState.training)) ∧
    (∃ (s : State) (k : Nat) (w : Nat) (r : TrainResult), ((linkOf s k).st = LinkState.up) ∧ (heldInReset s (Domain.bridge k) = false) ∧ (w = min (laneWidth r.lanes) r.peerWidth)) ∧
    (∃ (s : State) (src : Src) (k : Nat) (a : Nat) (v : Word), (k < 4) ∧ (a = bridgeBase + k * 256) ∧ (meets s src a = Meets.here) ∧ (isApgil src = true) ∧ (bitOf v 1 = true)) ∧
    (∃ (s : State) (src : Src) (k : Nat) (a : Nat) (v : Word), (k < 4) ∧ (a = bridgeBase + k * 256) ∧ (meets s src a = Meets.here) ∧ (isApgil src = true) ∧ (bitOf v 1 = false) ∧ (bitOf v 0 = true)) ∧
    (∃ (s : State) (src : Src) (k : Nat) (a : Nat) (v : Word), (k < 4) ∧ (a = bridgeBase + k * 256) ∧ (meets s src a = Meets.here) ∧ (isApgil src = true) ∧ (bitOf v 1 = false) ∧ (bitOf v 0 = false)) ∧
    (∃ (s : State) (src : Src) (k : Nat) (a : Nat), (k < 4) ∧ (a = bridgeBase + k * 256) ∧ (meets s src a = Meets.here) ∧ (isApgil src = false)) ∧
    (∃ (s : State) (k : Nat), (linkCarries s true k = true)) ∧
    (∃ (s : State) (k : Nat), (linkCarries s true k = false)) ∧
    (∃ (s : State) (d : Nat), ((routeTo s false d).isNone = true) ∧ (tget 0 s.bridge.lostSince d ≠ 0) ∧ (tget 0 s.bridge.lostSince d + 10000000 ≤ s.clk.up + 1)) ∧
    (∃ (s : State) (d : Nat), ((routeTo s false d).isSome = true ∨ tget 0 s.bridge.lostSince d = 0 ∨ s.clk.up + 1 < tget 0 s.bridge.lostSince d + 10000000)) :=
  ⟨⟨trainingLink 1, 0, 0, 2, badTrain, by decide +kernel, by decide +kernel, by decide +kernel, by decide +kernel, by decide +kernel, by decide +kernel⟩,
   ⟨trainingLink 2, 0, 0, 2, badTrain, by decide +kernel, by decide +kernel, by decide +kernel, by decide +kernel, by decide +kernel, by decide +kernel⟩,
   ⟨trainingLink 2, 0, 4, 2, goodTrain, by decide +kernel, by decide +kernel, by decide +kernel, by decide +kernel, by decide +kernel⟩,
   ⟨linked, 0, by decide +kernel⟩,
   ⟨linked, 0, 4, goodTrain, by decide +kernel, by decide +kernel, by decide +kernel⟩,
   ⟨linked, .mgmt 0, 3, _, 2, by decide +kernel, rfl, by decide +kernel, by decide +kernel, by decide +kernel⟩,
   ⟨linked, .mgmt 0, 3, _, 1, by decide +kernel, rfl, by decide +kernel, by decide +kernel, by decide +kernel, by decide +kernel⟩,
   ⟨linked, .mgmt 0, 3, _, 0, by decide +kernel, rfl, by decide +kernel, by decide +kernel, by decide +kernel, by decide +kernel⟩,
   ⟨linked, .app 0, 3, _, by decide +kernel, rfl, by decide +kernel, by decide +kernel⟩,
   ⟨linked, 0, by decide +kernel⟩,
   ⟨live, 0, by decide +kernel⟩,
   ⟨{ live with bridge := { lostSince := [(2, 1)] }, clk := { up := 10000000 } }, 2, by decide +kernel, by decide +kernel, by decide +kernel⟩,
   ⟨linked, 2, by decide +kernel⟩⟩

theorem witness_BridgeWindows :
    (∃ (s : State) (b : State) (a : RemoteReq), (linkCarries s false a.link = true) ∧ (heldInReset s (Domain.bridge a.link) = false) ∧ (a.num = tget 0 s.bridge.expect (sendKey a)) ∧ (∀ q ∈ s.bridge.early, sendKey q ≠ sendKey a) ∧ (b = { s with bridge := { s.bridge with expect := tset 0 s.bridge.expect (sendKey a) (a.num + 1) } }) ∧ (exportOf s a.exportId = none ∨ ∃ e, exportOf s a.exportId = some e ∧ e.closedAt.isSome = true ∧ e.flagGroup = false)) ∧
    (∃ (s : State) (b : State) (a : RemoteReq) (e : ExportBuf), (linkCarries s false a.link = true) ∧ (heldInReset s (Domain.bridge a.link) = false) ∧ (a.num = tget 0 s.bridge.expect (sendKey a)) ∧ (∀ q ∈ s.bridge.early, sendKey q ≠ sendKey a) ∧ (b = { s with bridge := { s.bridge with expect := tset 0 s.bridge.expect (sendKey a) (a.num + 1) } }) ∧ (exportOf s a.exportId = some e) ∧ (e.closedAt = none) ∧ (e.flagGroup = true) ∧ (a.write = false) ∧ (a.offset % 4 = 0) ∧ (a.bytes = 4) ∧ (a.offset < 256)) ∧
    (∃ (s : State) (b : State) (a : RemoteReq) (e : ExportBuf) (n : Nat), (linkCarries s false a.link = true) ∧ (heldInReset s (Domain.bridge a.link) = false) ∧ (a.num = tget 0 s.bridge.expect (sendKey a)) ∧ (∀ q ∈ s.bridge.early, sendKey q ≠ sendKey a) ∧ (b = { s with bridge := { s.bridge with expect := tset 0 s.bridge.expect (sendKey a) (a.num + 1) } }) ∧ (exportOf s a.exportId = some e) ∧ (e.closedAt = none) ∧ (e.flagGroup = false) ∧ (n = if a.write = true then a.data.length else a.bytes) ∧ (e.bytes < a.offset + n ∨ (if a.write = true then e.write else e.read) = false) ∧ (a.write = true)) ∧
    (∃ (s : State) (b : State) (a : RemoteReq) (e : ExportBuf) (n : Nat), (linkCarries s false a.link = true) ∧ (heldInReset s (Domain.bridge a.link) = false) ∧ (a.num = tget 0 s.bridge.expect (sendKey a)) ∧ (∀ q ∈ s.bridge.early, sendKey q ≠ sendKey a) ∧ (b = { s with bridge := { s.bridge with expect := tset 0 s.bridge.expect (sendKey a) (a.num + 1) } }) ∧ (exportOf s a.exportId = some e) ∧ (e.closedAt = none) ∧ (e.flagGroup = false) ∧ (n = if a.write = true then a.data.length else a.bytes) ∧ (e.bytes < a.offset + n ∨ (if a.write = true then e.write else e.read) = false) ∧ (a.write = false)) ∧
    (∃ (s : State) (b : State) (a : RemoteReq) (e : ExportBuf) (n : Nat), (linkCarries s false a.link = true) ∧ (heldInReset s (Domain.bridge a.link) = false) ∧ (a.num = tget 0 s.bridge.expect (sendKey a)) ∧ (∀ q ∈ s.bridge.early, sendKey q ≠ sendKey a) ∧ (b = { s with bridge := { s.bridge with expect := tset 0 s.bridge.expect (sendKey a) (a.num + 1) } }) ∧ (exportOf s a.exportId = some e) ∧ (e.closedAt = none) ∧ (e.flagGroup = false) ∧ (n = if a.write = true then a.data.length else a.bytes) ∧ (a.offset + n ≤ e.bytes) ∧ ((if a.write = true then e.write else e.read) = true) ∧ (0 < n) ∧ ((e.base + a.offset) % 256 + n ≤ 256) ∧ (Machine.translate s e.xlate a.write (e.base + a.offset) = none)) ∧
    (∃ (s : State) (b : State) (a : RemoteReq) (e : ExportBuf) (n : Nat) (p : Nat) (d : Domain), (linkCarries s false a.link = true) ∧ (heldInReset s (Domain.bridge a.link) = false) ∧ (a.num = tget 0 s.bridge.expect (sendKey a)) ∧ (∀ q ∈ s.bridge.early, sendKey q ≠ sendKey a) ∧ (b = { s with bridge := { s.bridge with expect := tset 0 s.bridge.expect (sendKey a) (a.num + 1) } }) ∧ (exportOf s a.exportId = some e) ∧ (e.closedAt = none) ∧ (e.flagGroup = false) ∧ (n = if a.write = true then a.data.length else a.bytes) ∧ (a.offset + n ≤ e.bytes) ∧ ((if a.write = true then e.write else e.read) = true) ∧ (0 < n) ∧ ((e.base + a.offset) % 256 + n ≤ 256) ∧ (Machine.translate s e.xlate a.write (e.base + a.offset) = some p) ∧ (locDomain p (locate p) = some d) ∧ (heldInReset s d = true)) ∧
    (∃ (s : State) (b : State) (a : RemoteReq) (e : ExportBuf) (n : Nat) (p : Nat), (linkCarries s false a.link = true) ∧ (heldInReset s (Domain.bridge a.link) = false) ∧ (a.num = tget 0 s.bridge.expect (sendKey a)) ∧ (∀ q ∈ s.bridge.early, sendKey q ≠ sendKey a) ∧ (b = { s with bridge := { s.bridge with expect := tset 0 s.bridge.expect (sendKey a) (a.num + 1) } }) ∧ (exportOf s a.exportId = some e) ∧ (e.closedAt = none) ∧ (e.flagGroup = false) ∧ (n = if a.write = true then a.data.length else a.bytes) ∧ (a.offset + n ≤ e.bytes) ∧ ((if a.write = true then e.write else e.read) = true) ∧ (0 < n) ∧ ((e.base + a.offset) % 256 + n ≤ 256) ∧ (Machine.translate s e.xlate a.write (e.base + a.offset) = some p) ∧ (p + n ≤ s.ddrBytes) ∧ (locate p = Loc.ddr) ∧ (heldInReset s (Domain.ddr (p / 256 % 4)) = false) ∧ (a.write = false)) ∧
    (∃ (s : State) (b : State) (a : RemoteReq) (e : ExportBuf) (n : Nat) (p : Nat), (linkCarries s false a.link = true) ∧ (heldInReset s (Domain.bridge a.link) = false) ∧ (a.num = tget 0 s.bridge.expect (sendKey a)) ∧ (∀ q ∈ s.bridge.early, sendKey q ≠ sendKey a) ∧ (b = { s with bridge := { s.bridge with expect := tset 0 s.bridge.expect (sendKey a) (a.num + 1) } }) ∧ (exportOf s a.exportId = some e) ∧ (e.closedAt = none) ∧ (e.flagGroup = false) ∧ (n = if a.write = true then a.data.length else a.bytes) ∧ (a.offset + n ≤ e.bytes) ∧ ((if a.write = true then e.write else e.read) = true) ∧ (0 < n) ∧ ((e.base + a.offset) % 256 + n ≤ 256) ∧ (Machine.translate s e.xlate a.write (e.base + a.offset) = some p) ∧ (p + n ≤ s.ddrBytes) ∧ (locate p = Loc.ddr) ∧ (heldInReset s (Domain.ddr (p / 256 % 4)) = false) ∧ (a.write = true)) ∧
    (∃ (s : State) (a : RemoteReq), (linkCarries s false a.link = true) ∧ (heldInReset s (Domain.bridge a.link) = false) ∧ (exportOf s a.exportId = none) ∧ (tget 0 s.bridge.expect (sendKey a) < a.num) ∧ (∀ q ∈ s.bridge.early, sendKey q = sendKey a → q.num ≠ a.num)) ∧
    (∃ (s : State) (a : RemoteReq), (linkCarries s false a.link = true) ∧ (heldInReset s (Domain.bridge a.link) = false) ∧ (exportOf s a.exportId = none) ∧ (a.num < tget 0 s.bridge.expect (sendKey a))) ∧
    (∃ (s : State) (a : RemoteReq) (q : RemoteReq), (linkCarries s false a.link = true) ∧ (heldInReset s (Domain.bridge a.link) = false) ∧ (exportOf s a.exportId = none) ∧ (a.num = tget 0 s.bridge.expect (sendKey a)) ∧ (s.bridge.early = [q]) ∧ (sendKey q = sendKey a) ∧ (q.num = a.num + 1) ∧ (exportOf s q.exportId = none)) ∧
    (∃ (s : State) (a : RemoteReq), (linkCarries s false a.link = false ∨ heldInReset s (Domain.bridge a.link) = true)) ∧
    (∃ (s : State) (b : State) (a : RemoteReq) (e : ExportBuf), (linkCarries s false a.link = true) ∧ (heldInReset s (Domain.bridge a.link) = false) ∧ (a.num = tget 0 s.bridge.expect (sendKey a)) ∧ (∀ q ∈ s.bridge.early, sendKey q ≠ sendKey a) ∧ (b = { s with bridge := { s.bridge with expect := tset 0 s.bridge.expect (sendKey a) (a.num + 1) } }) ∧ (a.write = true) ∧ (exportOf s a.exportId = some e) ∧ (e.flagGroup = true) ∧ (e.closedAt.isSome = true)) ∧
    (∃ (s : State) (b : State) (a : RemoteReq) (e : ExportBuf) (f : Nat) (v : Nat), (linkCarries s false a.link = true) ∧ (heldInReset s (Domain.bridge a.link) = false) ∧ (a.num = tget 0 s.bridge.expect (sendKey a)) ∧ (∀ q ∈ s.bridge.early, sendKey q ≠ sendKey a) ∧ (b = { s with bridge := { s.bridge with expect := tset 0 s.bridge.expect (sendKey a) (a.num + 1) } }) ∧ (a.write = true) ∧ (exportOf s a.exportId = some e) ∧ (e.flagGroup = true) ∧ (e.closedAt = none) ∧ (a.data.length = 4) ∧ (a.offset % 4 = 0) ∧ (f = 64 * e.base + a.offset / 4) ∧ (v = leAt a.data 0 4) ∧ (e.write = false ∨ (linkOf s a.link).version < 2)) ∧
    (∃ (s : State) (b : State) (a : RemoteReq) (e : ExportBuf) (f : Nat) (v : Nat), (linkCarries s false a.link = true) ∧ (heldInReset s (Domain.bridge a.link) = false) ∧ (a.num = tget 0 s.bridge.expect (sendKey a)) ∧ (∀ q ∈ s.bridge.early, sendKey q ≠ sendKey a) ∧ (b = { s with bridge := { s.bridge with expect := tset 0 s.bridge.expect (sendKey a) (a.num + 1) } }) ∧ (a.write = true) ∧ (exportOf s a.exportId = some e) ∧ (e.flagGroup = true) ∧ (e.closedAt = none) ∧ (a.data.length = 4) ∧ (a.offset % 4 = 0) ∧ (f = 64 * e.base + a.offset / 4) ∧ (v = leAt a.data 0 4) ∧ (e.write = true) ∧ (2 ≤ (linkOf s a.link).version) ∧ (256 ≤ a.offset)) ∧
    (∃ (s : State) (b : State) (a : RemoteReq) (e : ExportBuf) (f : Nat) (v : Nat), (linkCarries s false a.link = true) ∧ (heldInReset s (Domain.bridge a.link) = false) ∧ (a.num = tget 0 s.bridge.expect (sendKey a)) ∧ (∀ q ∈ s.bridge.early, sendKey q ≠ sendKey a) ∧ (b = { s with bridge := { s.bridge with expect := tset 0 s.bridge.expect (sendKey a) (a.num + 1) } }) ∧ (a.write = true) ∧ (exportOf s a.exportId = some e) ∧ (e.flagGroup = true) ∧ (e.closedAt = none) ∧ (a.data.length = 4) ∧ (a.offset % 4 = 0) ∧ (f = 64 * e.base + a.offset / 4) ∧ (v = leAt a.data 0 4) ∧ (e.write = true) ∧ (2 ≤ (linkOf s a.link).version) ∧ (a.offset < 256) ∧ (v = 0)) ∧
    (∃ (s : State) (b : State) (a : RemoteReq) (e : ExportBuf) (f : Nat) (v : Nat), (linkCarries s false a.link = true) ∧ (heldInReset s (Domain.bridge a.link) = false) ∧ (a.num = tget 0 s.bridge.expect (sendKey a)) ∧ (∀ q ∈ s.bridge.early, sendKey q ≠ sendKey a) ∧ (b = { s with bridge := { s.bridge with expect := tset 0 s.bridge.expect (sendKey a) (a.num + 1) } }) ∧ (a.write = true) ∧ (exportOf s a.exportId = some e) ∧ (e.flagGroup = true) ∧ (e.closedAt = none) ∧ (a.data.length = 4) ∧ (a.offset % 4 = 0) ∧ (f = 64 * e.base + a.offset / 4) ∧ (v = leAt a.data 0 4) ∧ (e.write = true) ∧ (2 ≤ (linkOf s a.link).version) ∧ (a.offset < 256) ∧ (v ≠ 0) ∧ (heldInReset s Domain.network = false) ∧ (s.clk.updates < 8) ∧ (s.updates = []) ∧ (flagAllowed s (some e.ctx) f = true)) ∧
    (∃ (s : State) (id : Nat) (e : ExportBuf), (exportOf s id = some e)) ∧
    (∃ (s : State) (id : Nat), (exportOf s id = none)) ∧
    (∃ (s : State) (id : Nat) (owner : Nat), (List.find? (fun i => decide (i.ident = id) && decide (i.owner = owner)) s.bridge.imports = none)) ∧
    (∃ (s : State) (id : Nat) (owner : Nat) (bytes : Nat) (rd : Bool) (wr : Bool) (i : ImportWait) (w : Nat) (b : Nat) (m : State), (List.find? (fun i => decide (i.ident = id) && decide (i.owner = owner)) s.bridge.imports = some i) ∧ (bytes ≤ 2097152) ∧ (findBelow (fun w => decide ((windowOf s w).st = WinState.closed)) 256 = some w) ∧ (apertureFree s 1 = some b) ∧ (mapBig s i.xlate i.io (apertureBase + b * 2097152) (1 + b2n rd * 4 + b2n wr * 8) = some m) ∧ (∃ q ∈ s.bridge.imports, q ≠ i ∧ q.sess = i.sess ∧ q.seq = i.seq)) ∧
    (∃ (s : State) (id : Nat) (owner : Nat) (bytes : Nat) (i : ImportWait) (y : Session) (r : AcpReq), (List.find? (fun i => decide (i.ident = id) && decide (i.owner = owner)) s.bridge.imports = some i) ∧ (sessionOf s i.sess = some y) ∧ (List.find? (fun r => decide (r.seq = i.seq)) y.executing = some r) ∧ (r.sess = i.sess) ∧ ((∀ w < 256, (windowOf s w).st ≠ WinState.closed) ∨ apertureFree s (max 1 (ceilDiv bytes 2097152)) = none)) ∧
    (∃ (s : State) (id : Nat) (i : ImportWait) (y : Session) (r : AcpReq), (List.find? (fun i => decide (i.ident = id) && decide (i.until' ≤ s.clk.up)) s.bridge.imports = some i) ∧ (sessionOf s i.sess = some y) ∧ (List.find? (fun r => decide (r.seq = i.seq)) y.executing = some r) ∧ (r.sess = i.sess)) ∧
    (∃ (s : State) (id : Nat), (∀ i ∈ s.bridge.imports, i.ident = id → s.clk.up < i.until')) ∧
    (∃ (s : State) (id : Nat), (∀ i ∈ s.bridge.imports, i.ident ≠ id)) ∧
    (∃ (s : State) (id : Nat) (i : ImportWait) (y : Session) (r : AcpReq), (List.find? (fun i => decide (i.ident = id)) s.bridge.imports = some i) ∧ (sessionOf s i.sess = some y) ∧ (List.find? (fun r => decide (r.seq = i.seq)) y.executing = some r) ∧ (r.sess = i.sess)) :=
  ⟨⟨linked, _, { remoteRead with exportId := 9 }, by decide +kernel, by decide +kernel, by decide +kernel, by decide +kernel, rfl, .inl (by decide +kernel)⟩,
   ⟨linked, _, { remoteRead with exportId := 2, offset := 252 }, expFlag, by decide +kernel, by decide +kernel, by decide +kernel, by decide +kernel, rfl, by decide +kernel, by decide +kernel, by decide +kernel, by decide +kernel, by decide +kernel, by decide +kernel, by decide +kernel⟩,
   ⟨linked, _, { remoteRead with write := true, data := List.replicate 8 1, offset := 0xFFFF9 }, expMem, 8, by decide +kernel, by decide +kernel, by decide +kernel, by decide +kernel, rfl, by decide +kernel, by decide +kernel, by decide +kernel, by decide +kernel, by decide +kernel, by decide +kernel⟩,
   ⟨linked, _, { remoteRead with offset := 0xFFFFD }, expMem, 4, by decide +kernel, by decide +kernel, by decide +kernel, by decide +kernel, rfl, by decide +kernel, by decide +kernel, by decide +kernel, by decide +kernel, by decide +kernel, by decide +kernel⟩,
   ⟨{ linked with bridge := { linked.bridge with exports := [{ expMem with base := 0x200000 }] } }, _, remoteRead, { expMem with base := 0x200000 }, 4, by decide +kernel, by decide +kernel, by decide +kernel, by decide +kernel, rfl, by decide +kernel, by decide +kernel, by decide +kernel, by decide +kernel, by decide +kernel, by decide +kernel, by decide +kernel, by decide +kernel, by decide +kernel⟩,
   ⟨{ linked with resetting := [.ddr 0] }, _, remoteRead, expMem, 4, 0, .ddr 0, by decide +kernel, by decide +kernel, by decide +kernel, by decide +kernel, rfl, by decide +kernel, by decide +kernel, by decide +kernel, by decide +kernel, by decide +kernel, by decide +kernel, by decide +kernel, by decide +kernel, by decide +kernel, by decide +kernel, by decide +kernel⟩,
   ⟨linked, _, remoteRead, expMem, 4, 0, by decide +kernel, by decide +kernel, by decide +kernel, by decide +kernel, rfl, by decide +kernel, by decide +kernel, by decide +kernel, by decide +kernel, by decide +kernel, by decide +kernel, by decide +kernel, by decide +kernel, by decide +kernel, by decide +kernel, by decide +kernel, by decide +kernel, by decide +kernel⟩,
   ⟨linked, _, { remoteRead with write := true, data := [1, 2, 3, 4], offset := 0xFFFFC }, expMem, 4, 0xFFFFC, by decide +kernel, by decide +kernel, by decide +kernel, by decide +kernel, rfl, by decide +kernel, by decide +kernel, by decide +kernel, by decide +kernel, by decide +kernel, by decide +kernel, by decide +kernel, by decide +kernel, by decide +kernel, by decide +kernel, by decide +kernel, by decide +kernel, by decide +kernel⟩,
   ⟨linked, { remoteRead with exportId := 9, num := 1 }, by decide +kernel, by decide +kernel, by decide +kernel, by decide +kernel, by decide +kernel⟩,
   ⟨{ linked with bridge := { linked.bridge with expect := tset 0 [] (sendKey remoteRead) 1 } }, { remoteRead with exportId := 9 }, by decide +kernel, by decide +kernel, by decide +kernel, by decide +kernel⟩,
   ⟨{ linked with bridge := { linked.bridge with early := [{ remoteRead with exportId := 9, num := 1 }] } }, { remoteRead with exportId := 9 }, { remoteRead with exportId := 9, num := 1 }, by decide +kernel, by decide +kernel, by decide +kernel, by decide +kernel, by decide +kernel, by decide +kernel, by decide +kernel, by decide +kernel⟩,
   ⟨live, remoteRead, by decide +kernel⟩,
   ⟨{ linked with bridge := { linked.bridge with exports := [{ expFlag with closedAt := some 0 }] } }, _, remoteAdd, { expFlag with closedAt := some 0 }, by decide +kernel, by decide +kernel, by decide +kernel, by decide +kernel, rfl, by decide +kernel, by decide +kernel, by decide +kernel, by decide +kernel⟩,
   ⟨{ linked with bridge := { linked.bridge with exports := [{ expFlag with write := false }] } }, _, remoteAdd, { expFlag with write := false }, 0, 1, by decide +kernel, by decide +kernel, by decide +kernel, by decide +kernel, rfl, by decide +kernel, by decide +kernel, by decide +kernel, by decide +kernel, by decide +kernel, by decide +kernel, by decide +kernel, by decide +kernel, by decide +kernel⟩,
   ⟨linked, _, { remoteAdd with offset := 256 }, expFlag, 64, 1, by decide +kernel, by decide +kernel, by decide +kernel, by decide +kernel, rfl, by decide +kernel, by decide +kernel, by decide +kernel, by decide +kernel, by decide +kernel, by decide +kernel, by decide +kernel, by decide +kernel, by decide +kernel, by decide +kernel, by decide +kernel⟩,
   ⟨linked, _, { remoteAdd with data := [0, 0, 0, 0], offset := 252 }, expFlag, 63, 0, by decide +kernel, by decide +kernel, by decide +kernel, by decide +kernel, rfl, by decide +kernel, by decide +kernel, by decide +kernel, by decide +kernel, by decide +kernel, by decide +kernel, by decide +kernel, by decide +kernel, by decide +kernel, by decide +kernel, by decide +kernel, by decide +kernel⟩,
   ⟨linked, _, { remoteAdd with offset := 252 }, expFlag, 63, 1, by decide +kernel, by decide +kernel, by decide +kernel, by decide +kernel, rfl, by decide +kernel, by decide +kernel, by decide +kernel, by decide +kernel, by decide +kernel, by decide +kernel, by decide +kernel, by decide +kernel, by decide +kernel, by decide +kernel, by decide +kernel, by decide +kernel, by decide +kernel, by decide +kernel, by decide +kernel, by decide +kernel⟩,
   ⟨linked, 1, expMem, by decide +kernel⟩,
   ⟨linked, 9, by decide +kernel⟩,
   ⟨linked, 9, 2, by decide +kernel⟩,
   ⟨importing, 7, 2, 0x200000, true, true, wait7, 0, 0, _, by decide +kernel, by decide +kernel, by decide +kernel, by decide +kernel, rfl, by decide +kernel⟩,
   ⟨importing, 7, 2, 0x1000200001, wait7, sessionOfReqs [reqImport], reqImport, by decide +kernel, by decide +kernel, by decide +kernel, by decide +kernel, by decide +kernel⟩,
   ⟨{ importing with clk := { up := 100 } }, 7, wait7, sessionOfReqs [reqImport], reqImport, by decide +kernel, by decide +kernel, by decide +kernel, by decide +kernel⟩,
   ⟨{ importing with clk := { up := 99 } }, 7, by decide +kernel⟩,
   ⟨importing, 9, by decide +kernel⟩,
   ⟨importing, 7, wait7, sessionOfReqs [reqImport], reqImport, by decide +kernel, by decide +kernel, by decide +kernel, by decide +kernel⟩⟩

theorem witness_BruIterations :
    (∃ (s : State), (s.bru.running.isSome = true ∨ heldInReset s Domain.bru = true ∨ bruPick s = none)) ∧
    (∃ (s : State) (j : Nat) (d : List Word) (table : List (Nat × Nat)), (s.bru.running = none) ∧ (heldInReset s Domain.bru = false) ∧ (bruPick s = some j) ∧ (d = (bruSlotOf s j).desc) ∧ (table = if bMode d = 0 then [(bAddr d 100, bLevels d * 64)] else []) ∧ (crcWords (List.take 31 d) ≠ bw d 124)) ∧
    (∃ (s : State) (j : Nat) (d : List Word) (table : List (Nat × Nat)) (a : Nat), (s.bru.running = none) ∧ (heldInReset s Domain.bru = false) ∧ (bruPick s = some j) ∧ (d = (bruSlotOf s j).desc) ∧ (table = if bMode d = 0 then [(bAddr d 100, bLevels d * 64)] else []) ∧ (crcWords (List.take 31 d) = bw d 124) ∧ (bEmpty d = false) ∧ (firstFault s (bXlate d) false table = some a ∨ firstFault s (bXlate d) false table = none ∧ firstFault s (bXlate d) false (bruReads s j) = some a)) ∧
    (∃ (s : State) (j : Nat) (d : List Word) (table : List (Nat × Nat)), (s.bru.running = none) ∧ (heldInReset s Domain.bru = false) ∧ (bruPick s = some j) ∧ (d = (bruSlotOf s j).desc) ∧ (table = if bMode d = 0 then [(bAddr d 100, bLevels d * 64)] else []) ∧ (crcWords (List.take 31 d) = bw d 124) ∧ (bEmpty d = false) ∧ (firstFault s (bXlate d) false table = none) ∧ (firstFault s (bXlate d) false (bruReads s j) = none)) ∧
    (∃ (s : State) (s1 : State) (j : Nat) (d : List Word), (s.bru.running = some j) ∧ (d = (bruSlotOf s j).desc) ∧ (s1 = forAll (List.map (fun w => (w.1, stampOut s.clk.now w.2)) s.bru.out) (bruPut j d) s) ∧ (firstFault s (bXlate d) true (List.map (fun w => (w.1, (stampOut s.clk.now w.2).length)) s.bru.out) = none)) ∧
    (∃ (s : State) (s1 : State) (j : Nat) (d : List Word) (a : Nat), (s.bru.running = some j) ∧ (d = (bruSlotOf s j).desc) ∧ (s1 = forAll (List.map (fun w => (w.1, stampOut s.clk.now w.2)) s.bru.out) (bruPut j d) s) ∧ (firstFault s (bXlate d) true (List.map (fun w => (w.1, (stampOut s.clk.now w.2).length)) s.bru.out) = some a)) ∧
    (∃ (s : State), (s.bru.running = none)) :=
  ⟨⟨live, by decide +kernel⟩,
   ⟨ranking [1] live, 63, _, _, by decide +kernel, by decide +kernel, by decide +kernel, rfl, rfl, by decide +kernel⟩,
   ⟨ranking (rankJob 1 0x2000) live, 63, _, _, 0x2000, by decide +kernel, by decide +kernel, by decide +kernel, rfl, rfl, by decide +kernel, by decide +kernel, .inr ⟨by decide +kernel, by decide +kernel⟩⟩,
   ⟨ranking (rankJob 1 0x2000) mapped, 63, _, _, by decide +kernel, by decide +kernel, by decide +kernel, rfl, rfl, by decide +kernel, by decide +kernel, by decide +kernel, by decide +kernel⟩,
   ⟨{ ranking (rankJob 1 0x2000) mapped with bru := { slots := [(63, { st := .running, desc := rankJob 1 0x2000 })], running := some 63, out := [(0x8000, [1, 2, 3])] } }, _, 63, rankJob 1 0x2000, by decide +kernel, by decide +kernel, rfl, by decide +kernel⟩,
   ⟨{ ranking (rankJob 1 0x2000) live with bru := { slots := [(63, { st := .running, desc := rankJob 1 0x2000 })], running := some 63, out := [(0x8000, [1, 2, 3])] } }, _, 63, rankJob 1 0x2000, 0x8000, by decide +kernel, by decide +kernel, rfl, by decide +kernel⟩,
   ⟨live, by decide +kernel⟩⟩

theorem witness_BruSlots :
    (∃ (s : State) (src : Src) (v : Word), (meets s src (bruBase + 8) = Meets.here) ∧ (isApgil src = true) ∧ (bitOf v 0 = true) ∧ ((bruSlotOf s (fld v 13 8)).st ≠ BruState.free) ∧ (∃ k < 64, (bruSlotOf s k).st = BruState.free)) ∧
    (∃ (s : State) (src : Src) (v : Word), (meets s src (bruBase + 8) = Meets.here) ∧ (isApgil src = true) ∧ (bitOf v 0 = true) ∧ (∀ k < 64, (bruSlotOf s k).st ≠ BruState.free)) ∧
    (∃ (s : State) (src : Src) (v : Word) (d : List Word) (st : Nat), (meets s src (bruBase + 8) = Meets.here) ∧ (isApgil src = true) ∧ (bitOf v 0 = true) ∧ ((bruSlotOf s (fld v 13 8)).st = BruState.free) ∧ (d = List.map (fun i => wordAt s (wfld s bruBase 31 6 * 64 + wfld s (bruBase + 4) 7 0 * 2 ^ 32 + 4 * i)) (List.range 32)) ∧ (bruCheck s (Src.bru (fld v 13 8)) d = some st)) ∧
    (∃ (s : State) (src : Src) (v : Word) (d : List Word), (meets s src (bruBase + 8) = Meets.here) ∧ (isApgil src = true) ∧ (bitOf v 0 = true) ∧ ((bruSlotOf s (fld v 13 8)).st = BruState.free) ∧ (d = List.map (fun i => wordAt s (wfld s bruBase 31 6 * 64 + wfld s (bruBase + 4) 7 0 * 2 ^ 32 + 4 * i)) (List.range 32)) ∧ (bruCheck s (Src.bru (fld v 13 8)) d = none)) ∧
    (∃ (s : State) (src : Src) (v : Word), (meets s src (bruBase + 8) = Meets.here) ∧ (isApgil src = true) ∧ (bitOf v 1 = true) ∧ ((bruSlotOf s (fld v 13 8)).st = BruState.waiting ∨ (bruSlotOf s (fld v 13 8)).st = BruState.running)) ∧
    (∃ (s : State) (src : Src) (v : Word), (meets s src (bruBase + 8) = Meets.here) ∧ (isApgil src = true) ∧ (bitOf v 1 = true) ∧ ((bruSlotOf s (fld v 13 8)).st ≠ BruState.waiting) ∧ ((bruSlotOf s (fld v 13 8)).st ≠ BruState.running)) ∧
    (∃ (s : State) (src : Src), (meets s src (bruBase + 8) = Meets.here) ∧ (isApgil src = false)) ∧
    (∃ (s : State) (src : Src) (j : Nat), (j < 64) ∧ (meets s src (bruBase + 256 + 4 * j) = Meets.here)) :=
  ⟨⟨ranking [1] live, .mgmt 0, 0x3F01, by decide +kernel, by decide +kernel, by decide +kernel, by decide +kernel, by decide +kernel⟩,
   ⟨{ live with bru := { slots := (List.range 64).map (fun k => (k, { st := .waiting })) } }, .mgmt 0, 1, by decide +kernel, by decide +kernel, by decide +kernel, by decide +kernel⟩,
   ⟨live, .mgmt 0, 0x3F01, _, stVERSION, by decide +kernel, by decide +kernel, by decide +kernel, by decide +kernel, rfl, by decide +kernel⟩,
   ⟨store live 0 (bytesOf (rankJob 1 0x2000)), .mgmt 0, 0x3F01, _, by decide +kernel, by decide +kernel, by decide +kernel, by decide +kernel, rfl, by decide +kernel⟩,
   ⟨ranking [1] live, .mgmt 0, 0x3F02, by decide +kernel, by decide +kernel, by decide +kernel, by decide +kernel⟩,
   ⟨ranking [1] live, .mgmt 0, 2, by decide +kernel, by decide +kernel, by decide +kernel, by decide +kernel, by decide +kernel⟩,
   ⟨live, .app 0, by decide +kernel, by decide +kernel⟩,
   ⟨live, .mgmt 0, 63, by decide +kernel, by decide +kernel⟩⟩

theorem witness_ColourStage :
    (∃ (s : State) (stage : Nat) (n : Nat) (x : Machine.Stream) (m : Bool), (stage < 2) ∧ (heldInReset s (Domain.colour stage) = false) ∧ (tget none s.colours stage = none) ∧ (minBy (fun c => stripeDeadline s c.2.1 c.2.1.head) (colourCandidates s stage) = some (n, x, m))) ∧
    (∃ (s : State) (s1 : State) (stage : Nat) (job : ColourJob) (x : Machine.Stream) (f : FrameRec), (tget none s.colours stage = some job) ∧ (streamOf s job.stream = some x) ∧ (frameOf x job.frame = some f) ∧ (f.cancelled = false) ∧ (writeLines s job.stream (dXlate x) (stageWrites s x f job) = (s1, none))) ∧
    (∃ (s : State) (s1 : State) (stage : Nat) (job : ColourJob) (x : Machine.Stream) (f : FrameRec) (a : Nat), (tget none s.colours stage = some job) ∧ (streamOf s job.stream = some x) ∧ (frameOf x job.frame = some f) ∧ (f.cancelled = false) ∧ (writeLines s job.stream (dXlate x) (stageWrites s x f job) = (s1, some a))) ∧
    (∃ (s : State) (stage : Nat) (job : ColourJob) (x : Machine.Stream) (f : FrameRec), (tget none s.colours stage = some job) ∧ (streamOf s job.stream = some x) ∧ (frameOf x job.frame = some f) ∧ (f.cancelled = true)) ∧
    (∃ (s : State) (stage : Nat) (n : Nat) (q : Nat) (x : Machine.Stream) (f : FrameRec), (frameEndHit s stage = some (n, x, q)) ∧ (frameOf x q = some f) ∧ (f.cancelled = true)) ∧
    (∃ (s : State) (stage : Nat) (n : Nat) (q : Nat) (x : Machine.Stream) (f : FrameRec), (frameEndHit s stage = some (n, x, q)) ∧ (frameOf x q = some f) ∧ (f.cancelled = false)) :=
  ⟨⟨streaming stroke0, 0, 0, stroke0, true, by decide +kernel, by decide +kernel, by decide +kernel, by decide +kernel⟩,
   ⟨colouring mapped, (writeLines (colouring mapped) 0 (dXlate stroke0) (stageWrites (colouring mapped) stroke0 frame0 { stream := 0, stripe := 0, frame := 0, index := 0, marker := true })).1, 0, { stream := 0, stripe := 0, frame := 0, index := 0, marker := true }, stroke0, frame0, by decide +kernel, by decide +kernel, by decide +kernel, by decide +kernel, pair_none (by decide +kernel)⟩,
   ⟨colouring live, _, 0, { stream := 0, stripe := 0, frame := 0, index := 0, marker := true }, stroke0, frame0, _, by decide +kernel, by decide +kernel, by decide +kernel, by decide +kernel, rfl⟩,
   ⟨{ colouring mapped with streams := [(0, some { stroke0 with frames := [{ frame0 with cancelled := true }] })] }, 0, { stream := 0, stripe := 0, frame := 0, index := 0, marker := true }, { stroke0 with frames := [{ frame0 with cancelled := true }] }, { frame0 with cancelled := true }, by decide +kernel, by decide +kernel, by decide +kernel, by decide +kernel⟩,
   ⟨streaming { stroke0 with colourFrame := some 0, frames := [{ frame0 with cancelled := true }] }, 0, 0, 0, { stroke0 with colourFrame := some 0, frames := [{ frame0 with cancelled := true }] }, { frame0 with cancelled := true }, by decide +kernel, by decide +kernel, by decide +kernel⟩,
   ⟨streaming { stroke0 with colourFrame := some 0 }, 0, 0, 0, { stroke0 with colourFrame := some 0 }, frame0, by decide +kernel, by decide +kernel, by decide +kernel⟩⟩

theorem witness_Commits :
    (∃ (s : State) (src : Src) (n : Nat) (v : Word), (n < 32) ∧ (meets s src (plReg n 4) = Meets.here) ∧ (anyCarries s = false ∨ isApgil src = true) ∧ (bitOf v 0 = true)) ∧
    (∃ (s : State) (src : Src) (n : Nat) (v : Word), (n < 32) ∧ (meets s src (clReg n 4) = Meets.here) ∧ (anyCarries s = false ∨ isApgil src = true) ∧ (bitOf v 0 = true)) ∧
    (∃ (s : State) (src : Src) (n : Nat), (n < 32) ∧ (anyCarries s = true) ∧ (isApgil src = false) ∧ (meets s src (plReg n 4) = Meets.here)) ∧
    (∃ (s : State) (src : Src) (n : Nat), (n < 32) ∧ (anyCarries s = true) ∧ (isApgil src = false) ∧ (meets s src (clReg n 4) = Meets.here)) ∧
    (∃ (s : State) (src : Src) (n : Nat) (v : Word), (anyCarries s = false ∨ isApgil src = true) ∧ (bitOf v 0 = false) ∧ (meets s src (plReg n 4) = Meets.here)) ∧
    (∃ (s : State) (src : Src) (n : Nat) (v : Word), (anyCarries s = false ∨ isApgil src = true) ∧ (bitOf v 0 = false) ∧ (meets s src (clReg n 4) = Meets.here)) :=
  ⟨⟨live, .mgmt 0, 31, 1, by decide +kernel, by decide +kernel, by decide +kernel, by decide +kernel⟩,
   ⟨live, .mgmt 0, 31, 1, by decide +kernel, by decide +kernel, by decide +kernel, by decide +kernel⟩,
   ⟨streaming stroke0, .app 0, 31, by decide +kernel, by decide +kernel, by decide +kernel, by decide +kernel⟩,
   ⟨streaming stroke0, .app 0, 31, by decide +kernel, by decide +kernel, by decide +kernel, by decide +kernel⟩,
   ⟨live, .app 0, 31, 0, by decide +kernel, by decide +kernel, by decide +kernel⟩,
   ⟨live, .app 0, 31, 0, by decide +kernel, by decide +kernel, by decide +kernel⟩⟩

theorem witness_DeviceCommands :
    (∃ (s : State) (r : AcpReq) (n : Nat) (timeout : Nat) (host : Nat), (r ∈ s.host.hellos) ∧ (timeout = match tlv r 3 with | some v => leAt v 0 4 | none => 30) ∧ (host = match tlv r 2 with | some v => leAt v 0 4 | none => 0) ∧ (1 ≤ timeout) ∧ (timeout ≤ 3600) ∧ (unanswered s r = true → isNext s r = true) ∧ (helloNumber { s with host := { s.host with hellos := List.filter (fun q => decide (q ≠ r)) s.host.hellos } } r host = some n)) ∧
    (∃ (s : State) (r : AcpReq) (x : Session) (k : Nat) (i : Nat), (asks s r) ∧ (sessionOf s r.sess = some x) ∧ (objectOf r = some (k, i)) ∧ (x.mgmtOnly = true ∧ k ≠ 0)) ∧
    (∃ (s : State) (r : AcpReq) (x : Session) (k : Nat) (i : Nat) (st : Nat), (asks s r) ∧ (sessionOf s r.sess = some x) ∧ (objectOf r = some (k, i)) ∧ (x.mgmtOnly = false ∨ k = 0) ∧ (objectStatus s r k i = some st)) ∧
    (∃ (s : State) (r : AcpReq) (x : Session) (k : Nat) (i : Nat), (asks s r) ∧ (sessionOf s r.sess = some x) ∧ (objectOf r = some (k, i)) ∧ (x.mgmtOnly = false ∨ k = 0) ∧ (objectStatus s r k i = none)) ∧
    (∃ (s : State) (r : AcpReq), (asks s r)) ∧
    (∃ (s : State) (r : AcpReq) (st : Nat) (k : Nat), (asks s r) ∧ (deviceBusy s = false) ∧ (List.findSome? (fun e => Option.map (fun st => (st, e.1)) (configEngine s e.1 e.2)) (configKeys r) = some (st, k))) ∧
    (∃ (s : State) (r : AcpReq) (st : Nat) (k : Nat), (asks s r) ∧ (deviceBusy s = false) ∧ (∀ e ∈ configKeys r, configEngine s e.1 e.2 = none) ∧ (List.findSome? (fun e => Option.map (fun st => (st, e.1)) (configStatus s e.1 e.2)) (configKeys r) = some (st, k))) ∧
    (∃ (s : State) (r : AcpReq), (asks s r) ∧ (deviceBusy s = false) ∧ (∀ e ∈ configKeys r, configEngine s e.1 e.2 = none) ∧ (∀ e ∈ configKeys r, configStatus s e.1 e.2 = none) ∧ (16 < (keyPlaces s (configKeys r)).length)) ∧
    (∃ (s : State) (r : AcpReq), (asks s r) ∧ (deviceBusy s = false) ∧ (∀ e ∈ configKeys r, configEngine s e.1 e.2 = none) ∧ (∀ e ∈ configKeys r, configStatus s e.1 e.2 = none) ∧ ((keyPlaces s (configKeys r)).length ≤ 16) ∧ (∀ e ∈ configKeys r, e.1 = 5)) ∧
    (∃ (s : State) (r : AcpReq), (asks s r) ∧ (deviceBusy s = false) ∧ (∀ e ∈ configKeys r, configEngine s e.1 e.2 = none) ∧ (∀ e ∈ configKeys r, configStatus s e.1 e.2 = none) ∧ ((keyPlaces s (configKeys r)).length ≤ 16) ∧ (∃ e ∈ configKeys r, e.1 ≠ 5)) ∧
    (∃ (s : State) (r : AcpReq) (t : State), (asks s r) ∧ (deviceBusy s = false) ∧ (∀ e ∈ configKeys r, configEngine s e.1 e.2 = none) ∧ (∀ e ∈ configKeys r, configStatus s e.1 e.2 = none) ∧ ((keyPlaces s (configKeys r)).length ≤ 16) ∧ (∀ e ∈ configKeys r, e.1 ≠ 5) ∧ (exec (Instr.setConfig r) s = Host.Outcome.next t)) ∧
    (∃ (s : State) (r : AcpReq), (asks s r) ∧ (tlv r 32883 = none)) ∧
    (∃ (s : State) (r : AcpReq) (v : List Byte) (st : Nat) (i : Nat), (asks s r) ∧ (tlv r 32883 = some v) ∧ (deviceBusy s = false) ∧ (topoStatus s v = some (st, i))) ∧
    (∃ (s : State) (r : AcpReq) (v : List Byte), (asks s r) ∧ (tlv r 32883 = some v) ∧ (deviceBusy s = false) ∧ (topoStatus s v = none)) ∧
    (∃ (s : State) (r : AcpReq) (c : Nat), (asks s r) ∧ (badLen r 32784 4 = false) ∧ ((if (tlv r 32784).getD [] = [] then 0 else leAt ((tlv r 32784).getD []) 2 2) ≤ 10000) ∧ (findBelow (fun c => (contextOf s c).isNone) 64 = some c) ∧ ((openXlate s c c).isSome = true)) ∧
    (∃ (s : State) (r : AcpReq) (c : Machine.Context) (v : List Byte), (asks s r) ∧ (contextOf s r.ctx = some c) ∧ (v = (tlv r 32785).getD []) ∧ (v.length = 8) ∧ (leAt v 0 4 ≤ 1000) ∧ (1 ≤ leAt v 4 1) ∧ (leAt v 4 1 ≤ 16) ∧ (leAt v 5 1 ≤ 1) ∧ (leAt v 6 2 = 0) ∧ (c.reserved ≤ leAt v 0 4)) ∧
    (∃ (s : State) (r : AcpReq) (c : Machine.Context) (v : List Byte), (asks s r) ∧ (contextOf s r.ctx = some c) ∧ (v = (tlv r 32785).getD []) ∧ (v.length ≠ 8 ∨ 1000 < leAt v 0 4 ∨ leAt v 0 4 < c.reserved)) ∧
    (∃ (s : State) (r : AcpReq) (i : Nat), (asks s r) ∧ (objectOf r = some (9, i)) ∧ (objectStatus s r 9 i = none) ∧ (licensed s 4 = false)) ∧
    (∃ (s : State) (r : AcpReq) (i : Nat) (v : List Byte), (asks s r) ∧ (objectOf r = some (9, i)) ∧ (objectStatus s r 9 i = none) ∧ (licensed s 4 = true) ∧ (v = (tlv r 32884).getD []) ∧ (v.length = 12) ∧ (xlateIs s (leAt v 8 1) r.ctx = true) ∧ (List.filter (snapHeld s r.ctx) (objectGranules i) = [])) ∧
    (∃ (s : State) (r : AcpReq) (i : Nat) (v : List Byte) (s1 : State), (asks s r) ∧ (objectOf r = some (9, i)) ∧ (objectStatus s r 9 i = none) ∧ (licensed s 4 = true) ∧ (v = (tlv r 32884).getD []) ∧ (v.length = 12) ∧ (xlateIs s (leAt v 8 1) r.ctx = true) ∧ (List.filter (snapHeld s r.ctx) (objectGranules i) ≠ []) ∧ (xlateStore (beginReq s r) (Src.mgmt 0) (leAt v 8 1) (leAt v 0 8) (List.flatMap (fun g => bytesAt s (granuleRange g).1 (granuleRange g).2) (List.filter (snapHeld s r.ctx) (objectGranules i))) = some s1)) ∧
    (∃ (s : State) (r : AcpReq) (v : List Byte) (st : Nat), (asks s r) ∧ (deviceBusy s = false) ∧ (v = (tlv r 32836).getD []) ∧ (licenceStatus v s.fuses.licKeyHash s.fuses.serial = some st)) ∧
    (∃ (s : State) (r : AcpReq) (v : List Byte), (asks s r) ∧ (deviceBusy s = false) ∧ (v = (tlv r 32836).getD []) ∧ (licenceStatus v s.fuses.licKeyHash s.fuses.serial = none) ∧ (features s ||| leAt v 24 4 = features s)) ∧
    (∃ (s : State) (r : AcpReq) (v : List Byte), (asks s r) ∧ (deviceBusy s = false) ∧ (v = (tlv r 32836).getD []) ∧ (licenceStatus v s.fuses.licKeyHash s.fuses.serial = none) ∧ (features s ||| leAt v 24 4 ≠ features s) ∧ (s.licences.length < 64)) ∧
    (∃ (s : State) (r : AcpReq) (x : Session), (asks s r) ∧ (sessionOf s r.sess = some x) ∧ (badLen r 32837 8 = false) ∧ (chunksGood r = true) ∧ (updateOpen s r.sess = true)) ∧
    (∃ (s : State) (r : AcpReq) (x : Session) (q : Transfer), (asks s r) ∧ (sessionOf s r.sess = some x) ∧ (badLen r 32837 8 = false) ∧ (chunksGood r = true) ∧ (updateOpen s r.sess = false) ∧ (transferOf x r.typ r.ctx = some q) ∧ (transferDone (addChunks q (tlvAll r 32800) 16 4 s.clk.up) = false)) ∧
    (∃ (s : State) (r : AcpReq) (k : Nat) (i : Nat), (asks s r) ∧ (deviceBusy s = false) ∧ (badLen r 32835 4 = false) ∧ (objectOf r = some (k, i)) ∧ (k ≠ 4) ∧ (k ≠ 5)) ∧
    (∃ (s : State) (r : AcpReq) (k : Nat) (i : Nat) (st : Nat), (asks s r) ∧ (deviceBusy s = false) ∧ (badLen r 32835 4 = false) ∧ (objectOf r = some (k, i)) ∧ (k = 4 ∨ k = 5) ∧ (objectStatus s r k i = some st)) ∧
    (∃ (s : State) (r : AcpReq) (k : Nat) (i : Nat) (d : Domain), (asks s r) ∧ (deviceBusy s = false) ∧ (badLen r 32835 4 = false) ∧ (objectOf r = some (k, i)) ∧ (k = 4) ∧ (objectStatus s r k i = none) ∧ (engineDomain i = some d) ∧ (d ≠ Domain.mgmt) ∧ (tlv r 32835 = none) ∧ ((domainUsers s d).any (otherSession s r.sess) = true)) ∧
    (∃ (s : State) (r : AcpReq) (k : Nat) (i : Nat) (d : Domain), (asks s r) ∧ (deviceBusy s = false) ∧ (badLen r 32835 4 = false) ∧ (objectOf r = some (k, i)) ∧ (k = 4) ∧ (objectStatus s r k i = none) ∧ (engineDomain i = some d) ∧ (d ≠ Domain.mgmt) ∧ ((domainUsers s d).any (otherSession s r.sess) = false) ∧ ((partOf s (partitionOf d)).st = PartState.on) ∧ (d ∉ s.resetting)) ∧
    (∃ (s : State) (r : AcpReq) (k : Nat) (i : Nat), (asks s r) ∧ (deviceBusy s = false) ∧ (badLen r 32835 4 = false) ∧ (objectOf r = some (k, i)) ∧ (k = 5) ∧ (objectStatus s r k i = none) ∧ (fixedPart i = false) ∧ (i ≠ 45) ∧ (frontNeeded s i = true)) ∧
    (∃ (s : State) (r : AcpReq) (k : Nat) (i : Nat), (asks s r) ∧ (deviceBusy s = false) ∧ (badLen r 32835 4 = false) ∧ (objectOf r = some (k, i)) ∧ (k = 5) ∧ (objectStatus s r k i = none) ∧ (fixedPart i = false) ∧ (i ≠ 45) ∧ (frontNeeded s i = false) ∧ (((islandsOf i).any fun d => (domainUsers s d).any (otherSession s r.sess)) = false) ∧ ((partOf s i).st = PartState.on ∨ (partOf s i).st = PartState.off)) :=
  ⟨⟨{ live with host := { hellos := [request 1 []] } }, request 1 [], 0, 30, 0, by decide +kernel, by decide +kernel, by decide +kernel, by decide +kernel, by decide +kernel, by decide +kernel, by decide +kernel⟩,
   ⟨askingIn { sessionOfReqs [request 1 [objTlv 4 0]] with mgmtOnly := true } live, request 1 [objTlv 4 0], { sessionOfReqs [request 1 [objTlv 4 0]] with mgmtOnly := true }, 4, 0, ⟨by decide +kernel, by decide +kernel⟩, by decide +kernel, by decide +kernel, by decide +kernel⟩,
   ⟨asking (request 1 [objTlv 0 1]), request 1 [objTlv 0 1], sessionOfReqs [request 1 [objTlv 0 1]], 0, 1, stCOUNT, ⟨by decide +kernel, by decide +kernel⟩, by decide +kernel, by decide +kernel, by decide +kernel, by decide +kernel⟩,
   ⟨asking (request 1 [objTlv 0 0]), request 1 [objTlv 0 0], sessionOfReqs [request 1 [objTlv 0 0]], 0, 0, ⟨by decide +kernel, by decide +kernel⟩, by decide +kernel, by decide +kernel, by decide +kernel, by decide +kernel⟩,
   ⟨asking (request 1 []), request 1 [], ⟨by decide +kernel, by decide +kernel⟩⟩,
   ⟨{ asking (request 1 [(0x8060, [4, 0, 3, 0, 2, 0, 0])]) with retire := { inService := List.range 64, netPorts := [1] } }, request 1 [(0x8060, [4, 0, 3, 0, 2, 0, 0])], stRETIRED, 4, ⟨by decide +kernel, by decide +kernel⟩, by decide +kernel, by decide +kernel⟩,
   ⟨asking (request 1 [(0x8060, [2, 0, 0, 0])]), request 1 [(0x8060, [2, 0, 0, 0])], stCOUNT, 2, ⟨by decide +kernel, by decide +kernel⟩, by decide +kernel, by decide +kernel, by decide +kernel⟩,
   ⟨{ asking (request 1 []) with host := { (asking (request 1 [])).host with planKeys := (List.range 17).map (fun i => (i, [])) } }, request 1 [], ⟨by decide +kernel, by decide +kernel⟩, by decide +kernel, by decide +kernel, by decide +kernel, by decide +kernel⟩,
   ⟨asking (request 1 []), request 1 [], ⟨by decide +kernel, by decide +kernel⟩, by decide +kernel, by decide +kernel, by decide +kernel, by decide +kernel, by decide +kernel⟩,
   ⟨asking (request 1 [(0x8060, [2, 0, 1, 0, 5])]), request 1 [(0x8060, [2, 0, 1, 0, 5])], ⟨by decide +kernel, by decide +kernel⟩, by decide +kernel, by decide +kernel, by decide +kernel, by decide +kernel, by decide +kernel⟩,
   ⟨asking (request 1 []), request 1 [], _, ⟨by decide +kernel, by decide +kernel⟩, by decide +kernel, by decide +kernel, by decide +kernel, by decide +kernel, by decide +kernel, rfl⟩,
   ⟨asking (request 1 []), request 1 [], ⟨by decide +kernel, by decide +kernel⟩, by decide +kernel⟩,
   ⟨asking (request 1 [(0x8073, [])]), request 1 [(0x8073, [])], [], stCOUNT, 0, ⟨by decide +kernel, by decide +kernel⟩, by decide +kernel, by decide +kernel, by decide +kernel⟩,
   ⟨asking (request 1 [(0x8073, topo0)]), request 1 [(0x8073, topo0)], topo0, ⟨by decide +kernel, by decide +kernel⟩, by decide +kernel, by decide +kernel, by decide +kernel⟩,
   ⟨asking (request 1 []), request 1 [], 1, ⟨by decide +kernel, by decide +kernel⟩, by decide +kernel, by decide +kernel, by decide +kernel, by decide +kernel⟩,
   ⟨asking (request 1 [(0x8011, [232, 3, 0, 0, 16, 1, 0, 0])]), request 1 [(0x8011, [232, 3, 0, 0, 16, 1, 0, 0])], { sess := 0 }, [232, 3, 0, 0, 16, 1, 0, 0], ⟨by decide +kernel, by decide +kernel⟩, by decide +kernel, by decide +kernel, by decide +kernel, by decide +kernel, by decide +kernel, by decide +kernel, by decide +kernel, by decide +kernel, by decide +kernel⟩,
   ⟨asking (request 1 []), request 1 [], { sess := 0 }, [], ⟨by decide +kernel, by decide +kernel⟩, by decide +kernel, by decide +kernel, by decide +kernel⟩,
   ⟨asking (request 1 [objTlv 9 71]), request 1 [objTlv 9 71], 71, ⟨by decide +kernel, by decide +kernel⟩, by decide +kernel, by decide +kernel, by decide +kernel⟩,
   ⟨{ askingIn (sessionOfReqs [request 1 [objTlv 9 0, (0x8074, List.replicate 12 0)]]) mapped with licences := [16] }, request 1 [objTlv 9 0, (0x8074, List.replicate 12 0)], 0, List.replicate 12 0, ⟨by decide +kernel, by decide +kernel⟩, by decide +kernel, by decide +kernel, by decide +kernel, by decide +kernel, by decide +kernel, by decide +kernel, by decide +kernel⟩,
   ⟨snapping, snapReq, 0x10100, leBytes 12 0x100000, snapped, ⟨by decide +kernel, by decide +kernel⟩, by decide +kernel, by decide +kernel, by decide +kernel, by decide +kernel, by decide +kernel, by decide +kernel, by decide +kernel, snap_store⟩,
   ⟨asking (request 1 [(0x8044, [1])]), request 1 [(0x8044, [1])], [1], stCOUNT, ⟨by decide +kernel, by decide +kernel⟩, by decide +kernel, by decide +kernel, by decide +kernel⟩,
   ⟨licensing [1], request 1 [(0x8044, licence)], licence, ⟨by decide +kernel, by decide +kernel⟩, by decide +kernel, by decide +kernel, licence_good, by decide +kernel⟩,
   ⟨licensing [], request 1 [(0x8044, licence)], licence, ⟨by decide +kernel, by decide +kernel⟩, by decide +kernel, by decide +kernel, licence_good, by decide +kernel, by decide +kernel⟩,
   ⟨{ asking (request 1 []) with boot := { live.boot with phase := .staged } }, request 1 [], sessionOfReqs [request 1 []], ⟨by decide +kernel, by decide +kernel⟩, by decide +kernel, by decide +kernel, by decide +kernel, by decide +kernel⟩,
   ⟨askingIn { sessionOfReqs [request 1 []] with transfers := [{ ident := 0, typ := 1, ctx := 0, length := some 100, chunks := [], last := 0 }] } live, request 1 [], { sessionOfReqs [request 1 []] with transfers := [{ ident := 0, typ := 1, ctx := 0, length := some 100, chunks := [], last := 0 }] }, { ident := 0, typ := 1, ctx := 0, length := some 100, chunks := [], last := 0 }, ⟨by decide +kernel, by decide +kernel⟩, by decide +kernel, by decide +kernel, by decide +kernel, by decide +kernel, by decide +kernel, by decide +kernel⟩,
   ⟨asking (request 1 [objTlv 0 0]), request 1 [objTlv 0 0], 0, 0, ⟨by decide +kernel, by decide +kernel⟩, by decide +kernel, by decide +kernel, by decide +kernel, by decide +kernel, by decide +kernel⟩,
   ⟨asking (request 1 [objTlv 4 999]), request 1 [objTlv 4 999], 4, 999, stCOUNT, ⟨by decide +kernel, by decide +kernel⟩, by decide +kernel, by decide +kernel, by decide +kernel, by decide +kernel, by decide +kernel⟩,
   ⟨{ asking (request 1 [objTlv 4 0]) with regs := [(gtReg 0 0x10, 1)], host := { (asking (request 1 [objTlv 4 0])).host with contexts := [(0, some { sess := 0 }), (1, some { sess := 1 })] } }, request 1 [objTlv 4 0], 4, 0, .tile 0, ⟨by decide +kernel, by decide +kernel⟩, by decide +kernel, by decide +kernel, by decide +kernel, by decide +kernel, by decide +kernel, by decide +kernel, by decide +kernel, by decide +kernel, by decide +kernel⟩,
   ⟨asking (request 1 [objTlv 4 0]), request 1 [objTlv 4 0], 4, 0, .tile 0, ⟨by decide +kernel, by decide +kernel⟩, by decide +kernel, by decide +kernel, by decide +kernel, by decide +kernel, by decide +kernel, by decide +kernel, by decide +kernel, by decide +kernel, by decide +kernel, by decide +kernel⟩,
   ⟨{ asking (request 1 [objTlv 5 30]) with streams := [(0, some stroke0)] }, request 1 [objTlv 5 30], 5, 30, ⟨by decide +kernel, by decide +kernel⟩, by decide +kernel, by decide +kernel, by decide +kernel, by decide +kernel, by decide +kernel, by decide +kernel, by decide +kernel, by decide +kernel⟩,
   ⟨asking (request 1 [objTlv 5 0]), request 1 [objTlv 5 0], 5, 0, ⟨by decide +kernel, by decide +kernel⟩, by decide +kernel, by decide +kernel, by decide +kernel, by decide +kernel, by decide +kernel, by decide +kernel, by decide +kernel, by decide +kernel, by decide +kernel, by decide +kernel⟩⟩

theorem witness_DeviceTime :
    (∃ (s : State) (src : Src) (v : Word), (meets s src (timeBase + 8) = Meets.here) ∧ (isApgil src = true) ∧ (fld v 1 0 = 3 ∨ fld v 1 0 = timeSource s)) ∧
    (∃ (s : State) (src : Src) (v : Word), (meets s src (timeBase + 8) = Meets.here) ∧ (isApgil src = true) ∧ (fld v 1 0 ≠ 3) ∧ (fld v 1 0 ≠ timeSource s)) ∧
    (∃ (s : State) (port : Nat) (o : Int), (timeSource s = 1) ∧ ((portOf s port).gptp = true) ∧ ((portOf s port).up = true) ∧ (heldInReset s Domain.network = false) ∧ (o.natAbs < 100000)) ∧
    (∃ (s : State) (port : Nat) (o : Int), (timeSource s = 1) ∧ ((portOf s port).gptp = true) ∧ ((portOf s port).up = true) ∧ (heldInReset s Domain.network = false) ∧ (100000 ≤ o.natAbs) ∧ (stepAllowed s = true)) ∧
    (∃ (s : State) (port : Nat) (o : Int), (timeSource s = 1) ∧ ((portOf s port).gptp = true) ∧ ((portOf s port).up = true) ∧ (heldInReset s Domain.network = false) ∧ (100000 ≤ o.natAbs) ∧ (stepAllowed s = false)) ∧
    (∃ (s : State) (k : Nat), ((linkOf s k).st = LinkState.up) ∧ (timeSource s ≠ 2 ∨ timeLink s ≠ some k)) ∧
    (∃ (s : State) (k : Nat), ((linkOf s k).st = LinkState.up) ∧ (timeSource s = 2) ∧ (timeLink s = some k)) ∧
    (∃ (s : State), (timeSource s = 0)) ∧
    (∃ (s : State), (timeSource s ≠ 0)) ∧
    (∃ (s : State) (o : Int), (s.clk.pendingStep = some o) ∧ (stepAllowed s = false)) ∧
    (∃ (s : State) (o : Int), (s.clk.pendingStep = some o) ∧ (stepAllowed s = true)) ∧
    (∃ (s : State), (s.pending = [])) :=
  ⟨⟨{ live with regs := [(timeBase + 8, 2)] }, .mgmt 0, 3, by decide +kernel, by decide +kernel, by decide +kernel⟩,
   ⟨live, .mgmt 1, 2, by decide +kernel, by decide +kernel, by decide +kernel, by decide +kernel⟩,
   ⟨{ live with regs := [(timeBase + 8, 1)], host := { ports := [(0, { gptp := true, up := true })] } }, 0, -99999, by decide +kernel, by decide +kernel, by decide +kernel, by decide +kernel, by decide +kernel⟩,
   ⟨{ live with regs := [(timeBase + 8, 1)], host := { ports := [(0, { gptp := true, up := true })] } }, 0, -100000, by decide +kernel, by decide +kernel, by decide +kernel, by decide +kernel, by decide +kernel, by decide +kernel⟩,
   ⟨{ live with regs := [(timeBase + 8, 1)], host := { ports := [(0, { gptp := true, up := true })] }, slots := [(0, { armed := true })] }, 0, 100000, by decide +kernel, by decide +kernel, by decide +kernel, by decide +kernel, by decide +kernel, by decide +kernel⟩,
   ⟨linked, 0, by decide +kernel, by decide +kernel⟩,
   ⟨{ linked with regs := [(timeBase + 8, 2)], bridge := { linked.bridge with links := [(0, { st := .up, hops := some 1 })] } }, 0, by decide +kernel, by decide +kernel, by decide +kernel⟩,
   ⟨live, by decide +kernel⟩,
   ⟨{ live with regs := [(timeBase + 8, 2)] }, by decide +kernel⟩,
   ⟨{ live with clk := { pendingStep := some 5 }, slots := [(0, { armed := true })] }, 5, by decide +kernel, by decide +kernel⟩,
   ⟨{ live with clk := { pendingStep := some (-5) } }, -5, by decide +kernel, by decide +kernel⟩,
   ⟨live, by decide +kernel⟩⟩

theorem witness_DmaAbort :
    (∃ (s : State) (src : Src) (c : Nat), (isApgil src = true) ∧ (meets s src (dmReg c 0) = Meets.here) ∧ ((chanOf s c).st = ChanState.faulted)) :=
  ⟨dma0 { chan0 with st := .faulted }, .mgmt 0, 0, by decide +kernel, by decide +kernel, by decide +kernel⟩

theorem witness_DmaBursts :
    (∃ (s : State) (k : Nat), (heldInReset s (Domain.dma k) = false) ∧ (clusterTags s k < 512) ∧ (findBelow (fun d => requesterReady (pacedWaits s k) k ((tget 0 s.turn k + d) % 50)) 50 = none)) ∧
    (∃ (s : State) (k : Nat) (d : Nat) (m : MoveWork) (c : Nat), (heldInReset s (Domain.dma k) = false) ∧ (clusterTags s k < 512) ∧ (findBelow (fun d => requesterReady (pacedWaits s k) k ((tget 0 s.turn k + d) % 50)) 50 = some d) ∧ ((tget 0 s.turn k + d) % 50 < 32) ∧ (c = k * 32 + (tget 0 s.turn k + d) % 50) ∧ ((chanOf s c).move = some m) ∧ ((chanPieces s c false (burstNeeds m).1).2 = none) ∧ ((chanPieces s c true (burstNeeds m).2).2 = none) ∧ ((chanPieces s c false (mPieces m m.cur).1).2 = none) ∧ ((chanPieces s c true (mPieces m m.cur).2).2 = none)) ∧
    (∃ (s : State) (k : Nat) (d : Nat) (m : MoveWork) (c : Nat) (a : Nat), (heldInReset s (Domain.dma k) = false) ∧ (clusterTags s k < 512) ∧ (findBelow (fun d => requesterReady (pacedWaits s k) k ((tget 0 s.turn k + d) % 50)) 50 = some d) ∧ ((tget 0 s.turn k + d) % 50 < 32) ∧ (c = k * 32 + (tget 0 s.turn k + d) % 50) ∧ ((chanOf s c).move = some m) ∧ ((chanPieces s c false (burstNeeds m).1).2 = some a)) ∧
    (∃ (s : State) (k : Nat) (d : Nat) (n : Nat) (f : Fetch), (heldInReset s (Domain.dma k) = false) ∧ (clusterTags s k < 512) ∧ (findBelow (fun d => requesterReady (pacedWaits s k) k ((tget 0 s.turn k + d) % 50)) 50 = some d) ∧ (32 ≤ (tget 0 s.turn k + d) % 50) ∧ (n = (clusterTiles k).getD ((tget 0 s.turn k + d) % 50 - 32) 0) ∧ (tileFetch s n = some f) ∧ (f.tags < 32) ∧ (fetchFault s n f f.issued (fetchBurst f) = none)) ∧
    (∃ (s : State) (k : Nat) (d : Nat) (n : Nat) (f : Fetch) (o : Nat), (heldInReset s (Domain.dma k) = false) ∧ (clusterTags s k < 512) ∧ (findBelow (fun d => requesterReady (pacedWaits s k) k ((tget 0 s.turn k + d) % 50)) 50 = some d) ∧ (32 ≤ (tget 0 s.turn k + d) % 50) ∧ (n = (clusterTiles k).getD ((tget 0 s.turn k + d) % 50 - 32) 0) ∧ (tileFetch s n = some f) ∧ (f.tags < 32) ∧ (fetchFault s n f f.issued (fetchBurst f) = some o)) ∧
    (∃ (s : State) (k : Nat) (d : Nat) (n : Nat) (f : Fetch), (heldInReset s (Domain.dma k) = false) ∧ (clusterTags s k < 512) ∧ (findBelow (fun d => requesterReady (pacedWaits s k) k ((tget 0 s.turn k + d) % 50)) 50 = some d) ∧ (32 ≤ (tget 0 s.turn k + d) % 50) ∧ (n = (clusterTiles k).getD ((tget 0 s.turn k + d) % 50 - 32) 0) ∧ (tileFetch s n = some f) ∧ (f.tags = 32)) ∧
    (∃ (s : State) (k : Nat), (heldInReset s (Domain.dma k) = true ∨ 512 ≤ clusterTags s k)) ∧
    (∃ (s : State) (s0 : State) (c : Nat) (ecc : EccResult) (b : Burst) (m : MoveWork) (u : Bool) (s1 : State) (s2 : State) (s3 : State) (bs : List Byte) (out : List Byte), (List.find? (fun b => !b.got) (chanOf s c).bursts = some b) ∧ ((chanOf s c).move = some m) ∧ ((chanOf s c).st ≠ ChanState.stopping) ∧ (burstEcc c b.reads ecc s = (s0, u)) ∧ (u = false ∨ mCodec m ≠ 0) ∧ (burstRead c b.reads s0 = (s1, bs, false)) ∧ (burstData s1 c m b u bs = (s2, out)) ∧ (s3 = burstWrite c b.writes out s2)) ∧
    (∃ (s : State) (s0 : State) (c : Nat) (ecc : EccResult) (b : Burst) (m : MoveWork) (u : Bool), (List.find? (fun b => !b.got) (chanOf s c).bursts = some b) ∧ ((chanOf s c).move = some m) ∧ ((chanOf s c).st ≠ ChanState.stopping) ∧ (burstEcc c b.reads ecc s = (s0, u)) ∧ (u = true) ∧ (mCodec m = 0) ∧ (chanBusy (chanOf s0 c) = true)) ∧
    (∃ (s : State) (s0 : State) (c : Nat) (ecc : EccResult) (b : Burst) (m : MoveWork) (u : Bool) (s1 : State) (bs : List Byte), (List.find? (fun b => !b.got) (chanOf s c).bursts = some b) ∧ ((chanOf s c).move = some m) ∧ ((chanOf s c).st ≠ ChanState.stopping) ∧ (burstEcc c b.reads ecc s = (s0, u)) ∧ (u = false ∨ mCodec m ≠ 0) ∧ (burstRead c b.reads s0 = (s1, bs, true)) ∧ (chanBusy (chanOf s0 c) = true)) ∧
    (∃ (s : State) (c : Nat) (b : Burst), (List.find? (fun b => !b.got) (chanOf s c).bursts = some b) ∧ ((chanOf s c).move = none ∨ (chanOf s c).st = ChanState.stopping)) ∧
    (∃ (s : State) (c : Nat) (b : Burst) (m : MoveWork), (chanBusy (chanOf s c) = true) ∧ (List.find? (fun b => !b.got) (chanOf s c).bursts = some b) ∧ ((chanOf s c).move = some m)) ∧
    (∃ (s : State) (c : Nat) (b : Burst), (List.find? (fun b => b.got) (chanOf s c).bursts = some b) ∧ (b.nack = false)) ∧
    (∃ (s : State) (c : Nat) (b : Burst), (List.find? (fun b => b.got) (chanOf s c).bursts = some b) ∧ (b.nack = false) ∧ (chanBusy (chanOf s c) = true)) ∧
    (∃ (s : State) (c : Nat) (b : Burst) (ans : Answer), (List.find? (fun b => b.got) (chanOf s c).bursts = some b) ∧ (b.nack = true ∨ ans = Answer.resetInProgress)) :=
  ⟨⟨live, 0, by decide +kernel, by decide +kernel, by decide +kernel⟩,
   ⟨dma0 { chan0 with move := some (move8 1) }, 0, 0, move8 1, 0, by decide +kernel, by decide +kernel, by decide +kernel, by decide +kernel, by decide +kernel, by decide +kernel, by decide +kernel, by decide +kernel, by decide +kernel, by decide +kernel⟩,
   ⟨dmaAt false { chan0 with move := some (move8 1) } [] live, 0, 0, move8 1, 0, 0x2000, by decide +kernel, by decide +kernel, by decide +kernel, by decide +kernel, by decide +kernel, by decide +kernel, by decide +kernel⟩,
   ⟨fetching, 0, 32, 0, fetch64, by decide +kernel, by decide +kernel, by decide +kernel, by decide +kernel, by decide +kernel, by decide +kernel, by decide +kernel, by decide +kernel⟩,
   ⟨{ fetching with regs := [] }, 0, 32, 0, fetch64, 0, by decide +kernel, by decide +kernel, by decide +kernel, by decide +kernel, by decide +kernel, by decide +kernel, by decide +kernel, by decide +kernel⟩,
   ⟨{ fetching with tiles := [(0, { st := .running, fetch := [{ fetch64 with tags := 32 }] })] }, 0, 32, 0, { fetch64 with tags := 32 }, by decide +kernel, by decide +kernel, by decide +kernel, by decide +kernel, by decide +kernel, by decide +kernel, by decide +kernel⟩,
   ⟨{ live with resetting := [.dma 0] }, 0, by decide +kernel⟩,
   ⟨dma0 { chan0 with move := some (move8 1), bursts := [burst8] }, _, 0, .clean, burst8, move8 1, false, _, _, _, _, _, by decide +kernel, by decide +kernel, by decide +kernel, rfl, by decide +kernel, rfl, rfl, rfl⟩,
   ⟨dma0 { chan0 with move := some (move8 1), bursts := [burst8] }, (burstEcc 0 [(0x2000, 8)] .uncorrectable (dma0 { chan0 with move := some (move8 1), bursts := [burst8] })).1, 0, .uncorrectable, burst8, move8 1, true, by decide +kernel, by decide +kernel, by decide +kernel, rfl, by decide +kernel, by decide +kernel, by decide +kernel⟩,
   ⟨{ dma0 { chan0 with move := some (move8 1), bursts := [burst8] } with resetting := [.ddr 0] }, { dma0 { chan0 with move := some (move8 1), bursts := [burst8] } with resetting := [.ddr 0] }, 0, .clean, burst8, move8 1, false, _, _, by decide +kernel, by decide +kernel, by decide +kernel, rfl, by decide +kernel, rfl, by decide +kernel⟩,
   ⟨dma0 { chan0 with bursts := [burst8] }, 0, burst8, by decide +kernel, by decide +kernel⟩,
   ⟨dma0 { chan0 with move := some (move8 1), bursts := [burst8] }, 0, burst8, move8 1, by decide +kernel, by decide +kernel, by decide +kernel⟩,
   ⟨dma0 { chan0 with bursts := [{ burst8 with got := true }] }, 0, { burst8 with got := true }, by decide +kernel, by decide +kernel⟩,
   ⟨dma0 { chan0 with bursts := [{ burst8 with got := true }] }, 0, { burst8 with got := true }, by decide +kernel, by decide +kernel, by decide +kernel⟩,
   ⟨dma0 { chan0 with bursts := [{ burst8 with got := true, nack := true }] }, 0, { burst8 with got := true, nack := true }, .ok, by decide +kernel, by decide +kernel⟩⟩

theorem witness_DmaEnds :
    (∃ (s : State) (c : Nat) (m : MoveWork), ((chanOf s c).move = some m) ∧ ((chanOf s c).st = ChanState.running) ∧ (heldInReset s (Domain.dma (c / 32)) = false) ∧ (m.issuedAll = true) ∧ (if mBarrier m = true then (chanOf s c).bursts = [] else ((chanOf s c).bursts.all fun b => b.got) = true) ∧ (mBarrier m = true) ∧ (m.nacked = true)) ∧
    (∃ (s : State) (c : Nat) (m : MoveWork), ((chanOf s c).move = some m) ∧ ((chanOf s c).st = ChanState.running) ∧ (heldInReset s (Domain.dma (c / 32)) = false) ∧ (m.issuedAll = true) ∧ (if mBarrier m = true then (chanOf s c).bursts = [] else ((chanOf s c).bursts.all fun b => b.got) = true) ∧ ((mBarrier m && m.nacked) = false) ∧ (mEvent m = 3 → pulseFits s (m.target % 256) 1 = true)) ∧
    (∃ (s : State) (c : Nat) (m : MoveWork), ((chanOf s c).move = some m) ∧ ((chanOf s c).st = ChanState.running) ∧ (heldInReset s (Domain.dma (c / 32)) = false) ∧ (m.issuedAll = true) ∧ (if mBarrier m = true then (chanOf s c).bursts = [] else ((chanOf s c).bursts.all fun b => b.got) = true) ∧ ((mBarrier m && m.nacked) = false) ∧ (mEvent m = 3) ∧ (pulseFits s (m.target % 256) 1 = false)) ∧
    (∃ (s : State) (c : Nat) (a : Nat) (m : MoveWork), ((chanOf s c).move = some m) ∧ ((chanOf s c).st = ChanState.running) ∧ (heldInReset s (Domain.dma (c / 32)) = false) ∧ (m.issuedAll = false) ∧ ((chanPieces s c false (mPieces m m.cur).1).2 = some a)) ∧
    (∃ (s : State) (c : Nat), (chanRuns s c = true) ∧ (dmaRec s c = DmaRec.ended) ∧ ((chanOf s c).bursts = []) ∧ (∀ (k : Nat) (j : Job), jobOf s k = some j → j.loading = true → c ∉ jobChans s j false)) ∧
    (∃ (s : State) (c : Nat), ((chanOf s c).st = ChanState.stopping) ∧ ((chanOf s c).bursts = []) ∧ (∀ (k : Nat) (j : Job), jobOf s k = some j → j.loading = true → c ∉ jobChans s j false)) :=
  ⟨⟨dma0 { chan0 with move := some { move8 0x41 with issuedAll := true, nacked := true } }, 0, { move8 0x41 with issuedAll := true, nacked := true }, by decide +kernel, by decide +kernel, by decide +kernel, by decide +kernel, by decide +kernel, by decide +kernel, by decide +kernel⟩,
   ⟨dma0 { chan0 with move := some { move8 0x600041 with issuedAll := true } }, 0, { move8 0x600041 with issuedAll := true }, by decide +kernel, by decide +kernel, by decide +kernel, by decide +kernel, by decide +kernel, by decide +kernel, by decide +kernel⟩,
   ⟨{ dma0 { chan0 with move := some { move8 0x600041 with issuedAll := true } } with regs := [(dmReg 0 0x10, 0x30000), (lineReg 0 4, 65535)] }, 0, { move8 0x600041 with issuedAll := true }, by decide +kernel, by decide +kernel, by decide +kernel, by decide +kernel, by decide +kernel, by decide +kernel, by decide +kernel, by decide +kernel⟩,
   ⟨dmaAt false { chan0 with move := some (move8 1) } [] live, 0, 0x2000, move8 1, by decide +kernel, by decide +kernel, by decide +kernel, by decide +kernel, by decide +kernel⟩,
   ⟨dma0 chan0, 0, by decide +kernel, by decide +kernel, by decide +kernel, no_job rfl⟩,
   ⟨dma0 { chan0 with st := .stopping }, 0, by decide +kernel, by decide +kernel, no_job rfl⟩⟩

theorem witness_DmaInstructions :
    (∃ (s : State) (c : Nat) (ws : List Word), (chanRuns s c = true) ∧ (dmaRec s c = DmaRec.words ws) ∧ (fld (ws.getD 0 0) 3 0 = 1) ∧ ((mOverlaps (moveOf (chanOf s c) ws 0) && !mEmpty (moveOf (chanOf s c) ws 0)) = false ∨ (chanPieces s c false (pagesOf (moveOf (chanOf s c) ws 0).src (mSize (moveOf (chanOf s c) ws 0) 0))).2 = none ∧ (chanPieces s c true (pagesOf (moveOf (chanOf s c) ws 0).dst (mSize (moveOf (chanOf s c) ws 0) 0))).2 = none)) ∧
    (∃ (s : State) (c : Nat) (ws : List Word) (a : Nat), (chanRuns s c = true) ∧ (dmaRec s c = DmaRec.words ws) ∧ (fld (ws.getD 0 0) 3 0 = 1) ∧ (mOverlaps (moveOf (chanOf s c) ws 0) = true) ∧ (mEmpty (moveOf (chanOf s c) ws 0) = false) ∧ ((chanPieces s c false (pagesOf (moveOf (chanOf s c) ws 0).src (mSize (moveOf (chanOf s c) ws 0) 0))).2 = some a)) ∧
    (∃ (s : State) (c : Nat) (ws : List Word), (chanRuns s c = true) ∧ (dmaRec s c = DmaRec.words ws) ∧ (fld (ws.getD 0 0) 3 0 = 2) ∧ (fld (ws.getD 1 0) 15 0 = 0)) ∧
    (∃ (s : State) (c : Nat) (ws : List Word), (chanRuns s c = true) ∧ (dmaRec s c = DmaRec.words ws) ∧ (fld (ws.getD 0 0) 3 0 = 2) ∧ (fld (ws.getD 1 0) 15 0 ≠ 0)) ∧
    (∃ (s : State) (c : Nat) (ws : List Word), (chanRuns s c = true) ∧ (dmaRec s c = DmaRec.words ws) ∧ (fld (ws.getD 0 0) 3 0 = 3) ∧ ((flagAllowed s (some ((chanCtx s c).getD 64)) (fld (ws.getD 0 0) 31 16) && condMet (bitOf (ws.getD 0 0) 4) (flagOf s (fld (ws.getD 0 0) 31 16)) (ws.getD 1 0)) = true)) ∧
    (∃ (s : State) (c : Nat) (ws : List Word), (chanRuns s c = true) ∧ (dmaRec s c = DmaRec.words ws) ∧ (fld (ws.getD 0 0) 3 0 = 3) ∧ ((flagAllowed s (some ((chanCtx s c).getD 64)) (fld (ws.getD 0 0) 31 16) && condMet (bitOf (ws.getD 0 0) 4) (flagOf s (fld (ws.getD 0 0) 31 16)) (ws.getD 1 0)) = false)) ∧
    (∃ (s : State) (c : Nat) (ws : List Word), (chanRuns s c = true) ∧ (dmaRec s c = DmaRec.words ws) ∧ (fld (ws.getD 0 0) 3 0 = 4) ∧ ((chanOf s c).bursts ≠ [])) ∧
    (∃ (s : State) (c : Nat) (ws : List Word), (chanRuns s c = true) ∧ (dmaRec s c = DmaRec.words ws) ∧ (fld (ws.getD 0 0) 3 0 = 4) ∧ ((chanOf s c).bursts = [])) ∧
    (∃ (s : State) (s1 : State) (c : Nat), (chanRuns s c = true) ∧ (dmaRec s c = DmaRec.bad) ∧ (s1 = match chanAddr s c false (chanProg s c + 4 * (chanOf s c).pc) with | some a => (engineRead s (Src.dma c) a 4).1 | none => s)) ∧
    (∃ (s : State) (c : Nat) (a : Nat), (chanRuns s c = true) ∧ (dmaRec s c = DmaRec.reset a)) ∧
    (∃ (s : State) (c : Nat) (a : Nat), (chanRuns s c = true) ∧ (dmaRec s c = DmaRec.fault a)) :=
  ⟨⟨dmaAt true chan0 (moveWords 1 8 0x2000 0x2008) live, 0, (moveWords 1 8 0x2000 0x2008).map (BitVec.ofNat 32), by decide +kernel, by decide +kernel, by decide +kernel, by decide +kernel⟩,
   ⟨dmaAt false chan0 (moveWords 1 8 0x200000 0x200007) mapped, 0, (moveWords 1 8 0x200000 0x200007).map (BitVec.ofNat 32), 0x200000, by decide +kernel, by decide +kernel, by decide +kernel, by decide +kernel, by decide +kernel, by decide +kernel⟩,
   ⟨dmaAt true chan0 [2, 0] live, 0, [2, 0], by decide +kernel, by decide +kernel, by decide +kernel, by decide +kernel⟩,
   ⟨dmaAt true chan0 [2, 1] live, 0, [2, 1], by decide +kernel, by decide +kernel, by decide +kernel, by decide +kernel⟩,
   ⟨dmaAt true chan0 [0x3F0003, 0] live, 0, [0x3F0003, 0], by decide +kernel, by decide +kernel, by decide +kernel, by decide +kernel⟩,
   ⟨dmaAt true chan0 [0x3F0003, 1] live, 0, [0x3F0003, 1], by decide +kernel, by decide +kernel, by decide +kernel, by decide +kernel⟩,
   ⟨dmaAt true { chan0 with bursts := [burst8] } [4, 1] live, 0, [4, 1], by decide +kernel, by decide +kernel, by decide +kernel, by decide +kernel⟩,
   ⟨dmaAt true chan0 [4, 1] live, 0, [4, 1], by decide +kernel, by decide +kernel, by decide +kernel, by decide +kernel⟩,
   ⟨dmaAt true chan0 [0] live, _, 0, by decide +kernel, by decide +kernel, rfl⟩,
   ⟨{ dmaAt true chan0 [4, 1] live with resetting := [.ddr 0] }, 0, 0x1000, by decide +kernel, by decide +kernel⟩,
   ⟨dmaAt false chan0 [4, 1] live, 0, 0x1000, by decide +kernel, by decide +kernel⟩⟩

theorem witness_DmaStartStop :
    (∃ (s : State) (src : Src) (c : Nat) (s1 : State) (ws : List Word) (a : Nat), (meets s src (dmReg c 0) = Meets.here) ∧ (isApgil src = true ∨ chanCtx s c = none) ∧ (chanFree (chanOf s c) = true) ∧ (s1 = setChan s c ({ chanOf s c with st := ChanState.running, code := stOK, pc := 4 })) ∧ (chanWords s1 c 0 4 = some ws) ∧ (chanReset s1 c 0 4 = some a)) ∧
    (∃ (s : State) (src : Src) (c : Nat) (s1 : State) (ws : List Word), (meets s src (dmReg c 0) = Meets.here) ∧ (isApgil src = true ∨ chanCtx s c = none) ∧ (chanFree (chanOf s c) = true) ∧ (s1 = setChan s c ({ chanOf s c with st := ChanState.running, code := stOK, pc := 4 })) ∧ (chanWords s1 c 0 4 = some ws) ∧ (chanReset s1 c 0 4 = none) ∧ ((headerGood ws && checkwordGood s1 c) = true)) ∧
    (∃ (s : State) (src : Src) (c : Nat) (s1 : State) (ws : List Word), (meets s src (dmReg c 0) = Meets.here) ∧ (isApgil src = true ∨ chanCtx s c = none) ∧ (chanFree (chanOf s c) = true) ∧ (s1 = setChan s c ({ chanOf s c with st := ChanState.running, code := stOK, pc := 4 })) ∧ (chanWords s1 c 0 4 = some ws) ∧ (chanReset s1 c 0 4 = none) ∧ ((headerGood ws && checkwordGood s1 c) = false)) ∧
    (∃ (s : State) (src : Src) (c : Nat) (s1 : State), (meets s src (dmReg c 0) = Meets.here) ∧ (isApgil src = true ∨ chanCtx s c = none) ∧ (chanFree (chanOf s c) = true) ∧ (s1 = setChan s c ({ chanOf s c with st := ChanState.running, code := stOK, pc := 4 })) ∧ (chanWords s1 c 0 4 = none)) ∧
    (∃ (s : State) (src : Src) (c : Nat), (meets s src (dmReg c 0) = Meets.here) ∧ (isApgil src = true ∨ chanCtx s c = none) ∧ (chanFree (chanOf s c) = false)) ∧
    (∃ (s : State) (src : Src) (c : Nat), (meets s src (dmReg c 0) = Meets.here) ∧ (isApgil src = true ∨ chanCtx s c = none) ∧ (chanBusy (chanOf s c) = true)) ∧
    (∃ (s : State) (src : Src) (c : Nat), (meets s src (dmReg c 0) = Meets.here) ∧ (isApgil src = true ∨ chanCtx s c = none) ∧ (chanBusy (chanOf s c) = false)) ∧
    (∃ (s : State) (src : Src) (c : Nat), (meets s src (dmReg c 0) = Meets.here) ∧ (isApgil src = true ∨ chanCtx s c = none) ∧ ((chanOf s c).st = ChanState.faulted)) ∧
    (∃ (s : State) (src : Src) (c : Nat), (meets s src (dmReg c 0) = Meets.here) ∧ (isApgil src = true ∨ chanCtx s c = none) ∧ ((chanOf s c).st ≠ ChanState.faulted)) ∧
    (∃ (s : State) (src : Src) (c : Nat), (meets s src (dmReg c 0) = Meets.here) ∧ (isApgil src = true ∨ chanCtx s c = none) ∧ ((chanOf s c).st = ChanState.error)) ∧
    (∃ (s : State) (src : Src) (c : Nat), (meets s src (dmReg c 0) = Meets.here) ∧ (isApgil src = true ∨ chanCtx s c = none) ∧ ((chanOf s c).st ≠ ChanState.error)) ∧
    (∃ (s : State) (src : Src) (c : Nat), (meets s src (dmReg c 0) = Meets.here) ∧ (isApgil src = false) ∧ (chanCtx s c ≠ none)) :=
  ⟨⟨{ dma0 {} with resetting := [.ddr 0] }, .mgmt 0, 0, _, [0, 0, 0, 0], 0x1000, by decide +kernel, by decide +kernel, by decide +kernel, rfl, by decide +kernel, by decide +kernel⟩,
   ⟨dma0 {}, .mgmt 0, 0, _, dmaProg [], by decide +kernel, by decide +kernel, by decide +kernel, rfl, by decide +kernel, by decide +kernel, by decide +kernel⟩,
   ⟨{ dma0 {} with mem := [] }, .mgmt 0, 0, _, [0, 0, 0, 0], by decide +kernel, by decide +kernel, by decide +kernel, rfl, by decide +kernel, by decide +kernel, by decide +kernel⟩,
   ⟨dmaAt false {} [] live, .mgmt 0, 0, _, by decide +kernel, by decide +kernel, by decide +kernel, rfl, by decide +kernel⟩,
   ⟨dma0 chan0, .mgmt 0, 0, by decide +kernel, by decide +kernel, by decide +kernel⟩,
   ⟨dma0 chan0, .mgmt 0, 0, by decide +kernel, by decide +kernel, by decide +kernel⟩,
   ⟨dma0 {}, .mgmt 0, 0, by decide +kernel, by decide +kernel, by decide +kernel⟩,
   ⟨dma0 { chan0 with st := .faulted }, .mgmt 0, 0, by decide +kernel, by decide +kernel, by decide +kernel⟩,
   ⟨dma0 chan0, .mgmt 0, 0, by decide +kernel, by decide +kernel, by decide +kernel⟩,
   ⟨dma0 { chan0 with st := .error }, .mgmt 0, 0, by decide +kernel, by decide +kernel, by decide +kernel⟩,
   ⟨dma0 chan0, .mgmt 0, 0, by decide +kernel, by decide +kernel, by decide +kernel⟩,
   ⟨dma0 chan0, .app 0, 0, by decide +kernel, by decide +kernel, by decide +kernel⟩⟩

theorem witness_DomainResets :
    (∃ (s : State) (d : Domain), (resettable d = true) ∧ (d ∉ s.resetting) ∧ (partOn s (partitionOf d) = true)) ∧
    (∃ (d : Domain), (resettable d = false)) ∧
    (∃ (s : State) (k : Nat), (clusterTags s k ≠ 0)) ∧
    (∃ (s : State) (d : Domain), (d ∈ s.resetting) ∧ (resetReady s d = true)) :=
  ⟨⟨live, .tile 71, by decide +kernel, by decide +kernel, by decide +kernel⟩,
   ⟨.smi, by decide +kernel⟩,
   ⟨{ live with tiles := [(0, { st := .running, fetch := [{ fetch64 with tags := 1 }] })] }, 0, by decide +kernel⟩,
   ⟨{ live with resetting := [.core 7] }, .core 7, by decide +kernel, by decide +kernel⟩⟩

theorem witness_EmptyBruIteration :
    (∃ (s : State) (j : Nat) (d : List Word), (s.bru.running = none) ∧ (heldInReset s Domain.bru = false) ∧ (bruPick s = some j) ∧ (d = (bruSlotOf s j).desc) ∧ (crcWords (List.take 31 d) = bw d 124) ∧ (bMode d = 0 ∧ bLevels d = 0 ∨ bMode d ≠ 0 ∧ bCount d = 0)) :=
  ⟨ranking (rankJob 0 0x2000) live, 63, rankJob 0 0x2000, by decide +kernel, by decide +kernel, by decide +kernel, by decide +kernel, by decide +kernel, by decide +kernel⟩

theorem witness_EmptyMove :
    (∃ (s : State) (c : Nat) (ws : List Word) (m : MoveWork), (chanRuns s c = true) ∧ (dmaRec s c = DmaRec.words ws) ∧ (fld (ws.getD 0 0) 3 0 = 1) ∧ (m = moveOf (chanOf s c) ws 0) ∧ (fld (ws.getD 6 0) 23 0 = 0 ∨ 1 ≤ fld (ws.getD 0 0) 5 4 ∧ fld (ws.getD 7 0) 15 0 = 0 ∨ 2 ≤ fld (ws.getD 0 0) 5 4 ∧ fld (ws.getD 7 0) 31 16 = 0 ∨ 3 ≤ fld (ws.getD 0 0) 5 4 ∧ fld (ws.getD 8 0) 15 0 = 0) ∧ (mBarrier m = true → (chanOf s c).bursts = []) ∧ (∀ b ∈ (chanOf s c).bursts, b.got = true) ∧ (mEvent m = 3 → pulseFits s (m.target % 256) 1 = true)) :=
  ⟨dmaAt true chan0 (moveWords 1 0 0x2000 0x3000) live, 0, (moveWords 1 0 0x2000 0x3000).map (BitVec.ofNat 32), _, by decide +kernel, by decide +kernel, by decide +kernel, rfl, by decide +kernel, by decide +kernel, by decide +kernel, by decide +kernel⟩

theorem witness_EnergyAccounts :
    (∃ (s : State) (mw : List Nat), (∀ (c : Nat), 64 ≤ c → contextOf s c = none) ∧ (∀ (c : Nat) (x : Machine.Context), contextOf s c = some x → x.charged + (List.map (fun p => mw.getD p 0 % 2 ^ 24) (List.range 52)).sum < 2 ^ 64)) ∧
    (∃ (s : State), ((contextList s).Nodup)) :=
  ⟨⟨asking (request 1 []), List.replicate 52 0xFFFFFF, one_context, one_charge⟩,
   ⟨asking (request 1 []), by decide +kernel⟩⟩

theorem witness_EtchBundle :
    (∃ (s : State) (n : Nat) (c : Core) (b : Bundle), (c = coreOf s n) ∧ (b = bundleAt s n c.pc) ∧ (c.st = EngState.running) ∧ (heldInReset s (Domain.core n) = false) ∧ (withheld s (coreCtx s n) = true)) ∧
    (∃ (s : State) (n : Nat) (c : Core) (b : Bundle), (c = coreOf s n) ∧ (b = bundleAt s n c.pc) ∧ (c.st = EngState.running) ∧ (heldInReset s (Domain.core n) = false) ∧ (withheld s (coreCtx s n) = false) ∧ (8191 < c.pc ∨ bundleLegal b = false)) ∧
    (∃ (s : State) (n : Nat) (c : Core) (b : Bundle), (c = coreOf s n) ∧ (b = bundleAt s n c.pc) ∧ (c.st = EngState.running) ∧ (heldInReset s (Domain.core n) = false) ∧ (withheld s (coreCtx s n) = false)) ∧
    (∃ (s : State) (n : Nat) (c : Core) (b : Bundle), (c = coreOf s n) ∧ (b = bundleAt s n c.pc) ∧ (c.st = EngState.running) ∧ (heldInReset s (Domain.core n) = false) ∧ (withheld s (coreCtx s n) = false) ∧ (c.pc ≤ 8191) ∧ (bundleLegal b = true) ∧ (((isOp b.s0 SOp.fwait || isOp b.s0 SOp.evwait) && !c.met) = false) ∧ (loopBad c b.s0 = true ∨ lBad c b.l0 = true ∨ lBad c b.l1 = true)) ∧
    (∃ (s : State) (n : Nat) (c : Core) (b : Bundle), (c = coreOf s n) ∧ (b = bundleAt s n c.pc) ∧ (c.st = EngState.running) ∧ (heldInReset s (Domain.core n) = false) ∧ (withheld s (coreCtx s n) = false) ∧ (c.pc ≤ 8191) ∧ (bundleLegal b = true) ∧ (((isOp b.s0 SOp.fwait || isOp b.s0 SOp.evwait) && !c.met) = false) ∧ (loopBad c b.s0 = false) ∧ (lBad c b.l0 = false) ∧ (lBad c b.l1 = false) ∧ (pulseHeld s n b.s1 = true)) ∧
    (∃ (s : State) (n : Nat) (c : Core) (b : Bundle) (c1 : Core), (c = coreOf s n) ∧ (b = bundleAt s n c.pc) ∧ (c.st = EngState.running) ∧ (heldInReset s (Domain.core n) = false) ∧ (withheld s (coreCtx s n) = false) ∧ (c.pc ≤ 8191) ∧ (bundleLegal b = true) ∧ (((isOp b.s0 SOp.fwait || isOp b.s0 SOp.evwait) && !c.met) = false) ∧ (loopBad c b.s0 = false) ∧ (lBad c b.l0 = false) ∧ (lBad c b.l1 = false) ∧ (pulseHeld s n b.s1 = false) ∧ (isOp b.s0 SOp.halt = true → ∀ (k : Nat) (j : Job), jobOf s k = some j → (∀ e ∈ j.turns, e.1 ≠ n) ∧ (j.loading = true → n ∉ j.cores)) ∧ (c1 = List.foldl putReg c (sExec c b.s0 ++ sExec c b.s1 ++ lExec c (fun ea k => numAt s (dmemBase n + ea) k) b.l0 ++ lExec c (fun ea k => numAt s (dmemBase n + ea) k) b.l1 ++ vExec c b.v0 ++ vExec c b.v1 ++ pExec c b.v2 ++ (xExec c b.x).1))) ∧
    (∃ (s : State) (n : Nat) (c : Core) (b : Bundle), (c = coreOf s n) ∧ (b = bundleAt s n c.pc) ∧ (c.st = EngState.running) ∧ (heldInReset s (Domain.core n) = false) ∧ (withheld s (coreCtx s n) = false) ∧ (c.pc ≤ 8191) ∧ (bundleLegal b = true) ∧ (isOp b.s0 SOp.fwait = true) ∧ (c.met = false) ∧ (flagAllowed s (some ((coreCtx s n).getD 64)) (fld b.s0 15 0) = false ∨ condMet (bitOf b.s0 16) (flagOf s (fld b.s0 15 0)) (scOf c (fld b.s0 25 20)) = false)) ∧
    (∃ (s : State) (n : Nat) (c : Core) (b : Bundle), (c = coreOf s n) ∧ (b = bundleAt s n c.pc) ∧ (c.st = EngState.running) ∧ (heldInReset s (Domain.core n) = false) ∧ (withheld s (coreCtx s n) = false) ∧ (c.pc ≤ 8191) ∧ (bundleLegal b = true) ∧ (isOp b.s0 SOp.fwait = false) ∧ (isOp b.s0 SOp.evwait = true) ∧ (c.met = false) ∧ (tget 0 c.events (fld b.s0 2 0) = 0)) :=
  ⟨⟨{ coreAt core0 [] with power := { live.power with held := true, heldReserved := true } }, 0, _, _, rfl, rfl, by decide +kernel, by decide +kernel, by decide +kernel⟩,
   ⟨coreAt { core0 with pc := 8192 } [], 0, _, _, rfl, rfl, by decide +kernel, by decide +kernel, by decide +kernel, by decide +kernel⟩,
   ⟨coreAt core0 [], 0, _, _, rfl, rfl, by decide +kernel, by decide +kernel, by decide +kernel⟩,
   ⟨coreAt core0 [0xC0000010], 0, _, _, rfl, rfl, by decide +kernel, by decide +kernel, by decide +kernel, by decide +kernel, by decide +kernel, by decide +kernel, by decide +kernel⟩,
   ⟨{ coreAt core0 [0, 0xD0000000] with regs := [(ecReg 0 0x10, 0), (dmReg 0 0x10, 0x20000), (lineReg 0 0, 1), (lineReg 0 4, 65535)] }, 0, _, _, rfl, rfl, by decide +kernel, by decide +kernel, by decide +kernel, by decide +kernel, by decide +kernel, by decide +kernel, by decide +kernel, by decide +kernel, by decide +kernel, by decide +kernel⟩,
   ⟨coreAt core0 [], 0, _, _, _, rfl, rfl, by decide +kernel, by decide +kernel, by decide +kernel, by decide +kernel, by decide +kernel, by decide +kernel, by decide +kernel, by decide +kernel, by decide +kernel, by decide +kernel, fun _ => no_job rfl, rfl⟩,
   ⟨coreAt core0 [0xC800FFFF], 0, _, _, rfl, rfl, by decide +kernel, by decide +kernel, by decide +kernel, by decide +kernel, by decide +kernel, by decide +kernel, by decide +kernel, by decide +kernel⟩,
   ⟨coreAt core0 [0xCC000000], 0, _, _, rfl, rfl, by decide +kernel, by decide +kernel, by decide +kernel, by decide +kernel, by decide +kernel, by decide +kernel, by decide +kernel, by decide +kernel, by decide +kernel⟩⟩

theorem witness_EtchStartStop :
    (∃ (s : State) (src : Src) (n : Nat), (meets s src (ecReg n 0) = Meets.here) ∧ (isApgil src = true ∨ coreCtx s n = none) ∧ ((coreOf s n).st = EngState.idle ∨ (coreOf s n).st = EngState.done)) ∧
    (∃ (s : State) (src : Src) (n : Nat), (meets s src (ecReg n 0) = Meets.here) ∧ (isApgil src = true ∨ coreCtx s n = none) ∧ ((coreOf s n).st ≠ EngState.idle) ∧ ((coreOf s n).st ≠ EngState.done)) ∧
    (∃ (s : State) (src : Src) (n : Nat), (meets s src (ecReg n 0) = Meets.here) ∧ (isApgil src = true ∨ coreCtx s n = none) ∧ (engBusy (coreOf s n).st = true)) ∧
    (∃ (s : State) (src : Src) (n : Nat), (meets s src (ecReg n 0) = Meets.here) ∧ (isApgil src = true ∨ coreCtx s n = none) ∧ (engBusy (coreOf s n).st = false)) ∧
    (∃ (s : State) (src : Src) (n : Nat), (meets s src (ecReg n 384) = Meets.here) ∧ (isApgil src = true ∨ coreCtx s n = none)) ∧
    (∃ (s : State) (src : Src) (n : Nat), (meets s src (ecReg n 0) = Meets.here) ∧ (isApgil src = false) ∧ (coreCtx s n ≠ none)) ∧
    (∃ (s : State) (n : Nat), ((coreOf s n).st = EngState.stopping) ∧ ((coreOf s n).code = stCANCELLED) ∧ (∀ (k : Nat) (j : Job), jobOf s k = some j → j.loading = true → n ∉ j.cores)) ∧
    (∃ (s : State) (n : Nat), ((coreOf s n).st = EngState.stopping) ∧ ((coreOf s n).code ≠ stCANCELLED)) :=
  ⟨⟨coreAt {} [], .mgmt 0, 0, by decide +kernel, by decide +kernel, by decide +kernel⟩,
   ⟨coreAt core0 [], .mgmt 0, 0, by decide +kernel, by decide +kernel, by decide +kernel, by decide +kernel⟩,
   ⟨coreAt core0 [], .mgmt 0, 0, by decide +kernel, by decide +kernel, by decide +kernel⟩,
   ⟨coreAt {} [], .mgmt 0, 0, by decide +kernel, by decide +kernel, by decide +kernel⟩,
   ⟨coreAt core0 [], .mgmt 0, 0, by decide +kernel, by decide +kernel⟩,
   ⟨coreAt core0 [], .app 0, 0, by decide +kernel, by decide +kernel, by decide +kernel⟩,
   ⟨coreAt { core0 with st := .stopping, code := stCANCELLED } [], 0, by decide +kernel, by decide +kernel, no_job rfl⟩,
   ⟨coreAt { core0 with st := .stopping } [], 0, by decide +kernel, by decide +kernel⟩⟩

theorem witness_FaultCollector :
    (∃ (s : State) (l : List (FaultEv × Nat × Nat)), (s.pending = []) ∧ (s.host.jobs = []) ∧ (s.updates = []) ∧ (l = s.fc.held ++ s.fc.tick) ∧ (s.fc.wr < 2 ^ 32) ∧ (s.fc.rd < 2 ^ 32)) ∧
    (∃ (s : State), (heldInReset s Domain.mgmt = true ∨ apgilPaused s = true ∨ s.fc.rd = s.fc.wr)) ∧
    (∃ (s : State) (ws : List Word), (heldInReset s Domain.mgmt = false) ∧ (apgilPaused s = false) ∧ (s.fc.rd ≠ s.fc.wr) ∧ (ws = tget [] s.fc.ring (s.fc.rd % 4096))) :=
  ⟨⟨live, _, by decide +kernel, by decide +kernel, by decide +kernel, rfl, by decide +kernel, by decide +kernel⟩,
   ⟨live, .inr (.inr rfl)⟩,
   ⟨{ live with fc := { wr := 4097, rd := 4096, ring := [(0, [1])] } }, [1], by decide +kernel, by decide +kernel, by decide +kernel, by decide +kernel⟩⟩

theorem witness_FlagsAndWaits :
    (∃ (s : State) (src : Src) (f : Nat) (add : Bool) (v : Word) (w : Word), (flagNow s src f) ∧ (w = if add = true then flagOf s f + v else v)) ∧
    (∃ (s : State) (src : Src) (f : Nat) (c : Nat), (heldInReset s Domain.network = false) ∧ (s.clk.updates < 8) ∧ (s.updates = []) ∧ (f < 65536) ∧ (isApgil src = false) ∧ (srcCtx s src = some c) ∧ (c < 64) ∧ (flagAllowed s (some c) f = false)) ∧
    (∃ (s : State) (src : Src) (f : Nat), (meets s src (flagBase + 4 * f) = Meets.here) ∧ (isApgil src = true) ∧ (flagNow s src f)) ∧
    (∃ (s : State) (src : Src) (f : Nat), (meets s src (flagBase + 4 * f) = Meets.here) ∧ (isApgil src = false)) ∧
    (∃ (s : State) (src : Src) (f : Nat), (meets s src (flagBase + 4 * f) = Meets.here) ∧ ((∃ k, src = Src.mgmt k) ∨ ∃ c k, src = Src.dma c ∧ chanCtx s c = some k ∧ flagAllowed s (some k) f = true)) ∧
    (∃ (s : State) (src : Src) (f : Nat), (meets s src (flagBase + 4 * f) = Meets.here) ∧ (∀ (k : Nat), src ≠ Src.mgmt k) ∧ (∀ (c k : Nat), src = Src.dma c → chanCtx s c = some k → flagAllowed s (some k) f = false)) ∧
    (∃ (s : State) (who : Nat) (w : WaitEntry), (List.find? (fun w => decide (w.who = who)) s.waits = some w) ∧ (w.expiry ≤ s.clk.up)) ∧
    (∃ (s : State) (who : Nat) (w : WaitEntry), (List.find? (fun w => decide (w.who = who)) s.waits = some w) ∧ (s.clk.up < w.expiry)) ∧
    (∃ (s : State) (who : Nat) (from' : Nat) (us : Nat), (List.find? (fun w => decide (w.who = who)) s.waits = none) ∧ (plainWait s who = some (from', us)) ∧ (from' + us * 1000 ≤ s.clk.up)) ∧
    (∃ (s : State) (who : Nat) (from' : Nat) (us : Nat), (List.find? (fun w => decide (w.who = who)) s.waits = none) ∧ (plainWait s who = some (from', us)) ∧ (s.clk.up < from' + us * 1000)) ∧
    (∃ (s : State) (who : Nat) (c : Check), (List.find? (fun c => decide (c.who = who)) s.checks = some c) ∧ ((List.any (blockedSet { s with checks := s.checks.erase c } (((who, c.flag) :: List.map (fun w => (w.who, some w.flag)) (List.filter (fun w => decide (w.who ≠ who)) s.waits)).length + 1) ((who, c.flag) :: List.map (fun w => (w.who, some w.flag)) (List.filter (fun w => decide (w.who ≠ who)) s.waits))) fun b => decide (b.1 = who)) = false)) ∧
    (∃ (s : State) (who : Nat) (c : Check), (List.find? (fun c => decide (c.who = who)) s.checks = some c) ∧ ((List.any (blockedSet { s with checks := s.checks.erase c } (((who, c.flag) :: List.map (fun w => (w.who, some w.flag)) (List.filter (fun w => decide (w.who ≠ who)) s.waits)).length + 1) ((who, c.flag) :: List.map (fun w => (w.who, some w.flag)) (List.filter (fun w => decide (w.who ≠ who)) s.waits))) fun b => decide (b.1 = who)) = true)) :=
  ⟨⟨live, .mgmt 0, 65535, true, 1, _, ⟨by decide +kernel, by decide +kernel, rfl, by decide +kernel, by decide +kernel⟩, rfl⟩,
   ⟨coreAt core0 [], .core 0, 65535, 0, by decide +kernel, by decide +kernel, by decide +kernel, by decide +kernel, by decide +kernel, by decide +kernel, by decide +kernel, by decide +kernel⟩,
   ⟨live, .mgmt 1, 65535, by decide +kernel, by decide +kernel, ⟨by decide +kernel, by decide +kernel, rfl, by decide +kernel, by decide +kernel⟩⟩,
   ⟨live, .app 0, 65535, by decide +kernel, by decide +kernel⟩,
   ⟨live, .mgmt 0, 0, by decide +kernel, .inl ⟨0, rfl⟩⟩,
   ⟨live, .app 0, 0, by decide +kernel, (fun _ h => nomatch h), (fun _ _ h => nomatch h)⟩,
   ⟨{ live with waits := [wait0] }, 72, wait0, by decide +kernel, by decide +kernel⟩,
   ⟨{ live with waits := [{ wait0 with expiry := 1 }] }, 72, { wait0 with expiry := 1 }, by decide +kernel, by decide +kernel⟩,
   ⟨{ dma0 { chan0 with st := .waiting, move := some (move8 1) } with regs := [(dmReg 0 0x18, 1)], clk := { up := 1000 } }, 80, 0, 1, by decide +kernel, by decide +kernel, by decide +kernel⟩,
   ⟨{ dma0 { chan0 with st := .waiting, move := some (move8 1) } with regs := [(dmReg 0 0x18, 1)] }, 80, 0, 1, by decide +kernel, by decide +kernel, by decide +kernel⟩,
   ⟨{ live with checks := [{ who := 72, ctx := none, flag := some 0 }] }, 72, { who := 72, ctx := none, flag := some 0 }, by decide +kernel, by decide +kernel⟩,
   ⟨selfWait, 208, { who := 208, ctx := none, flag := some 0xFFFF }, by decide +kernel, by decide +kernel⟩⟩

theorem witness_FrameCloses :
    (∃ (s : State) (port : Nat) (vc : Nat) (k : Nat) (ecc : HdrEcc) (f : InFrame), (portOpen s port = true) ∧ (ecc ≠ HdrEcc.uncorrectable) ∧ (armedBanks s port (vcStreams s port vc) = [k]) ∧ ((bankOf s port k).frame = some f) ∧ (portResetDue s port = false) ∧ ((port, vc, k) ∉ s.endsTaken)) ∧
    (∃ (s : State) (port : Nat) (vc : Nat) (k : Nat) (ecc : HdrEcc), (portOpen s port = true) ∧ (ecc ≠ HdrEcc.uncorrectable) ∧ (armedBanks s port (vcStreams s port vc) = [k]) ∧ (portResetDue s port = false) ∧ ((port, vc, k) ∈ s.endsTaken)) ∧
    (∃ (s : State) (port : Nat) (ecc : HdrEcc), (ecc ≠ HdrEcc.uncorrectable) ∧ (portResetDue s port = true)) ∧
    (∃ (s : State) (port : Nat) (k : Nat) (f : InFrame), ((bankOf s port k).frame = some f) ∧ (portOpen s port = true) ∧ (f.start + inFld s port k 24 23 0 * 1000 ≤ stamp s port)) ∧
    (∃ (s : State) (port : Nat) (k : Nat) (tt : Nat) (q : Nat) (rest : List (Nat × Nat)), (portOpen s port = true) ∧ ((bankOf s port k).armed = true) ∧ (bitOf (inWord s port k 0) 1 = true) ∧ ((bankOf s port k).frame = none) ∧ ((bankOf s port k).trigs = (tt, q) :: rest) ∧ (tt + BitVec.toNat (inWord s port k 28) + inFld s port k 32 15 0 * 1000 < stamp s port)) :=
  ⟨⟨intake { armed := true, frame := some inFrame0 } 0, 0, 0, 0, .clean, inFrame0, by decide +kernel, by decide +kernel, by decide +kernel, by decide +kernel, by decide +kernel, by decide +kernel⟩,
   ⟨{ intake { armed := true, frame := some inFrame0 } 0 with endsTaken := [(0, 0, 0)] }, 0, 0, 0, .clean, by decide +kernel, by decide +kernel, by decide +kernel, by decide +kernel, by decide +kernel⟩,
   ⟨{ intake { armed := true, frame := some inFrame0 } 0 with pending := [.domainReset (.port 0)] }, 0, .clean, by decide +kernel, by decide +kernel⟩,
   ⟨{ intake { armed := true, frame := some inFrame0 } 0 with clk := { now := 10000000000000 } }, 0, 0, inFrame0, by decide +kernel, by decide +kernel, by decide +kernel⟩,
   ⟨{ intake { armed := true, trigs := [(0, 1)] } 2 with clk := { now := 1 } }, 0, 0, 0, 1, [], by decide +kernel, by decide +kernel, by decide +kernel, by decide +kernel, by decide +kernel, by decide +kernel⟩⟩

theorem witness_FrameStart :
    (∃ (s : State) (port : Nat) (vc : Nat) (k : Nat) (ecc : HdrEcc), (portOpen s port = true) ∧ (ecc ≠ HdrEcc.uncorrectable) ∧ (armedBanks s port (List.filter (fun n => decide (firstVc s port n = vc)) (vcStreams s port vc)) = [k]) ∧ ((bankOf s port k).frame = none) ∧ (bitOf (inWord s port k 0) 1 = true → (bankOf s port k).trigs = [])) ∧
    (∃ (s : State) (port : Nat) (vc : Nat) (k : Nat) (tt : Nat) (q : Nat) (rest : List (Nat × Nat)) (ecc : HdrEcc), (portOpen s port = true) ∧ (ecc ≠ HdrEcc.uncorrectable) ∧ (armedBanks s port (List.filter (fun n => decide (firstVc s port n = vc)) (vcStreams s port vc)) = [k]) ∧ ((bankOf s port k).frame = none) ∧ (bitOf (inWord s port k 0) 1 = true) ∧ ((bankOf s port k).trigs = (tt, q) :: rest)) ∧
    (∃ (s : State) (port : Nat) (vc : Nat) (k : Nat) (f0 : InFrame) (ecc : HdrEcc), (portOpen s port = true) ∧ (ecc ≠ HdrEcc.uncorrectable) ∧ (armedBanks s port (List.filter (fun n => decide (firstVc s port n = vc)) (vcStreams s port vc)) = [k]) ∧ ((bankOf s port k).frame = some f0) ∧ (bitOf (inWord s port k 0) 1 = false) ∧ (streamVcs s port (bankStream s port k) = [vc]) ∧ (portResetDue s port = false)) ∧
    (∃ (s : State) (port : Nat), (portOpen s port = false)) :=
  ⟨⟨intake { armed := true } 0, 0, 0, 0, .clean, by decide +kernel, by decide +kernel, by decide +kernel, by decide +kernel, by decide +kernel⟩,
   ⟨intake { armed := true, trigs := [(0, 1)] } 2, 0, 0, 0, 0, 1, [], .clean, by decide +kernel, by decide +kernel, by decide +kernel, by decide +kernel, by decide +kernel, by decide +kernel⟩,
   ⟨intake { armed := true, frame := some inFrame0 } 0, 0, 0, 0, inFrame0, .clean, by decide +kernel, by decide +kernel, by decide +kernel, by decide +kernel, by decide +kernel, by decide +kernel, by decide +kernel⟩,
   ⟨live, 0, by decide +kernel⟩⟩

theorem witness_Granules :
    (∃ (s : State) (g : Nat) (c : Nat), (granuleExists g = true) ∧ ((contextOf s c).isSome = true)) ∧
    (∃ (s : State) (g : Nat) (c : Nat), ((granOf s g).st = GranState.owned) ∧ ((granOf s g).owner = some c)) ∧
    (∃ (s : State) (g : Nat), ((granOf s g).st ≠ GranState.owned)) ∧
    (∃ (s : State) (g : Nat) (c : Nat) (at' : Nat), ((granOf s g).hold = some (Hold.snapshot c at')) ∧ (at' ≤ s.clk.up)) ∧
    (∃ (s : State) (g : Nat) (c : Nat) (at' : Nat), ((granOf s g).hold = some (Hold.snapshot c at')) ∧ (s.clk.up < at')) ∧
    (∃ (s : State) (src : Src) (a : Nat) (g : Nat), (meets s src a = Meets.dirty g)) ∧
    (∃ (s : State) (g : Nat), (scrubBusy s (scrubUnit g) = false) ∧ (nextScrub s (scrubUnit g) = some g) ∧ (heldInReset s (granuleDomain g) = false)) ∧
    (∃ (s : State) (g : Nat), (scrubBusy s (scrubUnit g) = true ∨ nextScrub s (scrubUnit g) ≠ some g ∨ heldInReset s (granuleDomain g) = true)) ∧
    (∃ (s : State) (g : Nat), ((granOf s g).st = GranState.scrubbing)) ∧
    (∃ (s : State) (g : Nat), ((granOf s g).st ≠ GranState.scrubbing)) :=
  ⟨⟨asking (request 1 []), 8447, 0, by decide +kernel, by decide +kernel⟩,
   ⟨{ live with granules := [(56, { st := .owned, owner := some 3 })] }, 56, 3, by decide +kernel, by decide +kernel⟩,
   ⟨live, 56, by decide +kernel⟩,
   ⟨{ live with granules := [(0, { hold := some (.snapshot 0 0) })] }, 0, 0, 0, by decide +kernel, by decide +kernel⟩,
   ⟨{ live with granules := [(0, { hold := some (.snapshot 0 1) })] }, 0, 0, 1, by decide +kernel, by decide +kernel⟩,
   ⟨{ live with granules := [(0, { st := .dirty })] }, .app 0, tileBase 0, 0, by decide +kernel⟩,
   ⟨{ live with granules := [(0, { st := .dirty })] }, 0, by decide +kernel, by decide +kernel, by decide +kernel⟩,
   ⟨live, 0, by decide +kernel⟩,
   ⟨{ live with granules := [(0, { st := .scrubbing })] }, 0, by decide +kernel⟩,
   ⟨live, 0, by decide +kernel⟩⟩

theorem witness_LinesOfAFrame :
    (∃ (s : State) (port : Nat) (vc : Nat) (k : Nat) (ecc : HdrEcc) (f : InFrame), (portOpen s port = true) ∧ (ecc ≠ HdrEcc.uncorrectable) ∧ (armedBanks s port (vcStreams s port vc) = [k]) ∧ ((bankOf s port k).frame = some f) ∧ (bitOf (inWord s port k 0) 2 = true)) ∧
    (∃ (s : State) (pk : LongPacket) (k : Nat) (bits : Nat) (e : Word) (f : InFrame), (portOpen s pk.port = true) ∧ (pk.ecc ≠ HdrEcc.uncorrectable) ∧ (pk.crcOk = true) ∧ (List.find? (fun e => decide (fld e 4 1 = pk.vc) && decide (fld e 10 5 = pk.dt)) (vcEntries s pk.port) = some e) ∧ (fld e 12 11 = 0) ∧ (armedBanks s pk.port [fld e 19 15] = [k]) ∧ (dtBits pk.dt = some bits) ∧ ((bankOf s pk.port k).frame = some f) ∧ (placeRow s pk.port k f pk.vc (lineExp s pk.port k f (fld e 14 13)) = f.placed.getD (lineExp s pk.port k f (fld e 14 13)) 0) ∧ (f.placed.getD (lineExp s pk.port k f (fld e 14 13)) 0 < bankHeight s pk.port k) ∧ (lmLevel s pk.port + lineBytes (bankWidth s pk.port k) bits ≤ lineMemory)) ∧
    (∃ (s : State) (pk : LongPacket), (portOpen s pk.port = true) ∧ (pk.ecc ≠ HdrEcc.uncorrectable) ∧ (pk.crcOk = true) ∧ (List.find? (fun e => decide (fld e 4 1 = pk.vc) && decide (fld e 10 5 = pk.dt)) (vcEntries s pk.port) = none)) :=
  ⟨⟨intake { armed := true, frame := some inFrame0 } 4, 0, 0, 0, .clean, inFrame0, by decide +kernel, by decide +kernel, by decide +kernel, by decide +kernel, by decide +kernel⟩,
   ⟨intake { armed := true, frame := some inFrame0 } 0, { port := 0, vc := 0, dt := 0x2A, crcOk := true, ecc := .clean, samples := List.replicate 16 0 }, 0, 8, BitVec.ofNat 32 (1 + 0x2A * 32), inFrame0, by decide +kernel, by decide +kernel, by decide +kernel, by decide +kernel, by decide +kernel, by decide +kernel, by decide +kernel, by decide +kernel, by decide +kernel, by decide +kernel, by decide +kernel⟩,
   ⟨intake {} 0, { port := 0, vc := 1, dt := 0x2A, crcOk := true, ecc := .clean, samples := [] }, by decide +kernel, by decide +kernel, by decide +kernel, by decide +kernel⟩⟩

theorem witness_MemoryUnits :
    (∃ (s : State) (k : Nat) (a : Nat), (k < 4) ∧ ((ddrOf s k).failed = false) ∧ (heldInReset s (Domain.ddr k) = false) ∧ (a = lineAddr k (ddrOf s k).patrol) ∧ ((ddrOf s k).selfRefresh = true)) ∧
    (∃ (s : State) (k : Nat) (a : Nat), (k < 4) ∧ ((ddrOf s k).failed = false) ∧ (heldInReset s (Domain.ddr k) = false) ∧ (a = lineAddr k (ddrOf s k).patrol) ∧ ((ddrOf s k).selfRefresh = false)) ∧
    (∃ (s : State) (k : Nat), ((ddrOf s k).failed = false)) ∧
    (∃ (s : State) (k : Nat), ((ddrOf s k).failed = true)) ∧
    (∃ (s : State) (n : Nat) (m : ShmMode), ((shmOf s n).target = some m) ∧ (m = ShmMode.scratch) ∧ ((shmOf s n).mode ≠ ShmMode.scratch)) ∧
    (∃ (s : State) (n : Nat) (m : ShmMode), ((shmOf s n).target = some m) ∧ (m ≠ ShmMode.scratch) ∧ ((shmOf s n).mode ≠ ShmMode.scratch)) ∧
    (∃ (s : State) (n : Nat) (m : ShmMode), ((shmOf s n).target = some m) ∧ (m ≠ ShmMode.scratch) ∧ ((shmOf s n).mode = ShmMode.scratch) ∧ (∀ g ∈ sliceGranules n, (granOf s g).st = GranState.clean)) ∧
    (∃ (s : State) (n : Nat) (m : ShmMode), ((shmOf s n).target = some m) ∧ (m ≠ ShmMode.scratch) ∧ ((shmOf s n).mode = ShmMode.scratch) ∧ (∃ g ∈ sliceGranules n, (granOf s g).st ≠ GranState.clean)) ∧
    (∃ (s : State) (b : Nat), (b ∈ s.shmOff)) ∧
    (∃ (s : State) (src : Src) (b : Nat), (isApgil src = true) ∧ (b < 256) ∧ (b ∉ s.shmOff) ∧ ((shmOf s (b / 16)).mode = ShmMode.scratch) ∧ ((granOf s (8192 + b)).st = GranState.clean) ∧ ((granOf s (8192 + b)).grantWait = none)) ∧
    (∃ (s : State) (src : Src), (meets s src (iommuBase + 16) = Meets.here) ∧ (isApgil src = true) ∧ (s.inval = none)) ∧
    (∃ (s : State) (src : Src), (meets s src (iommuBase + 16) = Meets.here) ∧ (isApgil src = false)) :=
  ⟨⟨{ live with ddr := [(3, { selfRefresh := true })] }, 3, _, by decide +kernel, by decide +kernel, by decide +kernel, rfl, by decide +kernel⟩,
   ⟨live, 3, _, by decide +kernel, by decide +kernel, by decide +kernel, rfl, by decide +kernel⟩,
   ⟨live, 3, by decide +kernel⟩,
   ⟨{ live with ddr := [(3, { failed := true })] }, 3, by decide +kernel⟩,
   ⟨{ live with shm := [(0, { mode := .cacheApp, target := some .scratch })] }, 0, .scratch, by decide +kernel, by decide +kernel, by decide +kernel⟩,
   ⟨{ live with shm := [(0, { mode := .cacheApp, target := some .cacheEng })] }, 0, .cacheEng, by decide +kernel, by decide +kernel, by decide +kernel⟩,
   ⟨{ live with shm := [(0, { target := some .cacheApp })], granules := (sliceGranules 0).map (fun g => (g, { st := .clean })) }, 0, .cacheApp, by decide +kernel, by decide +kernel, by decide +kernel, by decide +kernel⟩,
   ⟨{ live with shm := [(0, { target := some .cacheApp })] }, 0, .cacheApp, by decide +kernel, by decide +kernel, by decide +kernel, by decide +kernel⟩,
   ⟨{ live with shmOff := [255] }, 255, by decide +kernel⟩,
   ⟨{ live with granules := [(8447, { st := .clean })] }, .mgmt 0, 255, by decide +kernel, by decide +kernel, by decide +kernel, by decide +kernel, by decide +kernel, by decide +kernel⟩,
   ⟨live, .mgmt 0, by decide +kernel, by decide +kernel, by decide +kernel⟩,
   ⟨live, .app 0, by decide +kernel, by decide +kernel⟩⟩

theorem witness_MemoryWordWrite :
    (∃ (s : State) (src : Src) (addr : Nat), (meets s src addr = Meets.here) ∧ (∀ (b : Blk) (off : Nat), locate addr ≠ Loc.block b off) ∧ (inRegWindow (locate addr) = false) ∧ (regSpec (locate addr) = none) ∧ (inAperture addr = false) ∧ (imemLocked s addr = false)) ∧
    (∃ (s : State) (src : Src) (addr : Nat) (value : Word) (r : RegSpec), (meets s src addr = Meets.here) ∧ (addr % 4 = 0) ∧ (regSpec (locate addr) = some r) ∧ (r.table = true) ∧ (writeRight s src (locate addr) = Right.yes) ∧ (badValue (locate addr) value = false)) :=
  ⟨⟨live, .mgmt 0, 0x1000, by decide +kernel, by rw [show locate 0x1000 = .ddr by decide +kernel]; nofun, by decide +kernel, by decide +kernel, by decide +kernel, by decide +kernel⟩,
   ⟨live, .mgmt 0, pcmBase, 1, _, by decide +kernel, by decide +kernel, rfl, by decide +kernel, by decide +kernel, by decide +kernel⟩⟩

theorem witness_MessagesAndChannels :
    (∃ (s : State) (f : EthFrame), (heldInReset s Domain.network = false) ∧ (f.port < gradeNets s) ∧ (f.port ∉ s.retire.netPorts) ∧ ((portOf s f.port).up = true) ∧ ((9018 + if f.vlan.isSome = true then 4 else 0) < f.bytes)) ∧
    (∃ (s : State) (f : EthFrame), (heldInReset s Domain.network = false) ∧ (f.port < gradeNets s) ∧ (f.port ∉ s.retire.netPorts) ∧ ((portOf s f.port).up = true) ∧ (f.bytes ≤ 9018 + if f.vlan.isSome = true then 4 else 0) ∧ ((portOf s f.port).macsec = true) ∧ (f.macsecOk = false)) ∧
    (∃ (s : State) (f : EthFrame), (heldInReset s Domain.network = false) ∧ (f.port < gradeNets s) ∧ (f.port ∉ s.retire.netPorts) ∧ ((portOf s f.port).up = true) ∧ (f.bytes ≤ 9018 + if f.vlan.isSome = true then 4 else 0) ∧ (((portOf s f.port).macsec && !f.macsecOk) = false) ∧ (f.kind = FrameKind.other) ∧ (∀ g ∈ s.host.filters, ¬(g.mac = f.dstMac ∧ g.vlan = f.vlan.getD 0))) ∧
    (∃ (s : State) (f : EthFrame) (g : RxFilter), (heldInReset s Domain.network = false) ∧ (f.port < gradeNets s) ∧ (f.port ∉ s.retire.netPorts) ∧ ((portOf s f.port).up = true) ∧ (f.bytes ≤ 9018 + if f.vlan.isSome = true then 4 else 0) ∧ (((portOf s f.port).macsec && !f.macsecOk) = false) ∧ (f.kind = FrameKind.other) ∧ (List.find? (fun g => decide (g.mac = f.dstMac) && decide (g.vlan = f.vlan.getD 0)) s.host.filters = some g)) ∧
    (∃ (s : State) (f : EthFrame) (m : AcpDatagram), (heldInReset s Domain.network = false) ∧ (f.port < gradeNets s) ∧ (f.port ∉ s.retire.netPorts) ∧ ((portOf s f.port).up = true) ∧ (f.bytes ≤ 9018 + if f.vlan.isSome = true then 4 else 0) ∧ (((portOf s f.port).macsec && !f.macsecOk) = false) ∧ (f.kind = FrameKind.acp m) ∧ ((s.host.acpSecure && !((portOf s f.port).macsec && f.macsecOk)) = true)) ∧
    (∃ (s : State) (f : EthFrame) (m : AcpDatagram), (heldInReset s Domain.network = false) ∧ (f.port < gradeNets s) ∧ (f.port ∉ s.retire.netPorts) ∧ ((portOf s f.port).up = true) ∧ (f.bytes ≤ 9018 + if f.vlan.isSome = true then 4 else 0) ∧ (((portOf s f.port).macsec && !f.macsecOk) = false) ∧ (f.kind = FrameKind.acp m) ∧ ((s.host.acpSecure && !((portOf s f.port).macsec && f.macsecOk)) = false) ∧ (s.power.state ≠ PowerState.parked) ∧ ((mboxOf s f.port).ring.length < 64)) ∧
    (∃ (s : State) (m : AcpDatagram), (heldInReset s Domain.mgmt = false) ∧ (apgilPaused s = false) ∧ (m.bytes.length < 16 ∨ 4096 < m.bytes.length ∨ leAt m.bytes 12 4 ≠ m.bytes.length - 16 ∨ leAt m.bytes 2 1 ≠ 0)) ∧
    (∃ (s : State) (m : AcpDatagram) (k : Nat) (x : Session) (r : AcpReq) (ts : List (Nat × List Byte)) (e : Nat × Sent), (heldInReset s Domain.mgmt = false) ∧ (apgilPaused s = false) ∧ (16 ≤ m.bytes.length) ∧ (m.bytes.length ≤ 4096) ∧ (leAt m.bytes 12 4 = m.bytes.length - 16) ∧ (leAt m.bytes 2 1 = 0) ∧ (sessionFrom s m.origin = some k) ∧ (sessionOf s k = some x) ∧ (parseTlvs 1024 (List.drop 16 m.bytes) = some ts) ∧ (r = reqOf m k ts) ∧ (List.find? (fun e => decide (e.1 = r.seq)) x.replies = some e)) ∧
    (∃ (s : State) (m : AcpDatagram) (k : Nat) (x : Session) (r : AcpReq) (ts : List (Nat × List Byte)), (heldInReset s Domain.mgmt = false) ∧ (apgilPaused s = false) ∧ (16 ≤ m.bytes.length) ∧ (m.bytes.length ≤ 4096) ∧ (leAt m.bytes 12 4 = m.bytes.length - 16) ∧ (leAt m.bytes 2 1 = 0) ∧ (sessionFrom s m.origin = some k) ∧ (sessionOf s k = some x) ∧ (parseTlvs 1024 (List.drop 16 m.bytes) = some ts) ∧ (r = reqOf m k ts) ∧ (List.find? (fun e => decide (e.1 = r.seq)) x.replies = none) ∧ ((x.executing.any fun q => decide (q.seq = r.seq)) = true)) ∧
    (∃ (s : State) (m : AcpDatagram) (k : Nat) (x : Session) (r : AcpReq) (ts : List (Nat × List Byte)), (heldInReset s Domain.mgmt = false) ∧ (apgilPaused s = false) ∧ (16 ≤ m.bytes.length) ∧ (m.bytes.length ≤ 4096) ∧ (leAt m.bytes 12 4 = m.bytes.length - 16) ∧ (leAt m.bytes 2 1 = 0) ∧ (sessionFrom s m.origin = some k) ∧ (sessionOf s k = some x) ∧ (parseTlvs 1024 (List.drop 16 m.bytes) = some ts) ∧ (r = reqOf m k ts) ∧ (List.find? (fun e => decide (e.1 = r.seq)) x.replies = none) ∧ ((x.executing.any fun q => decide (q.seq = r.seq)) = false) ∧ (32 ≤ x.executing.length)) ∧
    (∃ (s : State) (m : AcpDatagram) (k : Nat) (x : Session) (r : AcpReq) (ts : List (Nat × List Byte)), (heldInReset s Domain.mgmt = false) ∧ (apgilPaused s = false) ∧ (16 ≤ m.bytes.length) ∧ (m.bytes.length ≤ 4096) ∧ (leAt m.bytes 12 4 = m.bytes.length - 16) ∧ (leAt m.bytes 2 1 = 0) ∧ (sessionFrom s m.origin = some k) ∧ (sessionOf s k = some x) ∧ (parseTlvs 1024 (List.drop 16 m.bytes) = some ts) ∧ (r = reqOf m k ts) ∧ (List.find? (fun e => decide (e.1 = r.seq)) x.replies = none) ∧ ((x.executing.any fun q => decide (q.seq = r.seq)) = false) ∧ (x.executing.length < 32) ∧ (checkReq s (some x) r true = none)) ∧
    (∃ (s : State) (m : AcpDatagram) (k : Nat) (x : Session) (r : AcpReq) (ts : List (Nat × List Byte)) (st : Nat) (c : Nat) (i : Nat), (heldInReset s Domain.mgmt = false) ∧ (apgilPaused s = false) ∧ (16 ≤ m.bytes.length) ∧ (m.bytes.length ≤ 4096) ∧ (leAt m.bytes 12 4 = m.bytes.length - 16) ∧ (leAt m.bytes 2 1 = 0) ∧ (sessionFrom s m.origin = some k) ∧ (sessionOf s k = some x) ∧ (parseTlvs 1024 (List.drop 16 m.bytes) = some ts) ∧ (r = reqOf m k ts) ∧ (List.find? (fun e => decide (e.1 = r.seq)) x.replies = none) ∧ ((x.executing.any fun q => decide (q.seq = r.seq)) = false) ∧ (x.executing.length < 32) ∧ (checkReq s (some x) r true = some (st, c, i))) ∧
    (∃ (s : State) (src : Src) (c : Nat), (meets s src (mboxBase c + 4096) = Meets.here) ∧ (isApgil src = false) ∧ (mboxBound s src c = true) ∧ ((mboxOf s c).st = MboxState.free)) ∧
    (∃ (s : State) (src : Src) (c : Nat), (meets s src (mboxBase c + 4096) = Meets.here) ∧ (isApgil src = false) ∧ (mboxBound s src c = true) ∧ ((mboxOf s c).st ≠ MboxState.free)) ∧
    (∃ (s : State) (src : Src) (c : Nat), (meets s src (mboxBase c + 4096) = Meets.here) ∧ (isApgil src = false) ∧ (mboxBound s src c = true) ∧ ((mboxOf s c).st = MboxState.claimed)) ∧
    (∃ (s : State) (src : Src) (c : Nat), (meets s src (mboxBase c + 4096) = Meets.here) ∧ (isApgil src = false) ∧ (mboxBound s src c = true) ∧ ((mboxOf s c).st ≠ MboxState.claimed)) ∧
    (∃ (s : State) (src : Src) (c : Nat), (meets s src (mboxBase c + 4096) = Meets.here) ∧ (isApgil src = false) ∧ (mboxBound s src c = true) ∧ ((mboxOf s c).st = MboxState.reply ∨ (mboxOf s c).st = MboxState.notice)) ∧
    (∃ (s : State) (src : Src) (c : Nat), (meets s src (mboxBase c + 4096) = Meets.here) ∧ (isApgil src = false) ∧ (mboxBound s src c = true) ∧ ((mboxOf s c).st ≠ MboxState.reply) ∧ ((mboxOf s c).st ≠ MboxState.notice)) ∧
    (∃ (s : State) (src : Src) (c : Nat), (meets s src (mboxBase c + 4096) = Meets.here) ∧ (isApgil src = false) ∧ (mboxBound s src c = false)) ∧
    (∃ (s : State) (c : Nat) (m : AcpDatagram) (rest : List AcpDatagram), (heldInReset s Domain.mgmt = false) ∧ (apgilPaused s = false) ∧ (c < 4) ∧ ((mboxOf s c).ring = m :: rest)) ∧
    (∃ (s : State) (c : Nat) (m : AcpDatagram), (heldInReset s Domain.mgmt = false) ∧ (apgilPaused s = false) ∧ (4 ≤ c) ∧ ((mboxOf s c).st = MboxState.request) ∧ ((mboxOf s c).rung = some m)) ∧
    (∃ (s : State) (c : Nat) (m : Sent) (y : Session) (rest : List Sent), (heldInReset s Domain.mgmt = false) ∧ (apgilPaused s = false) ∧ ((mboxOf s c).st = MboxState.free) ∧ ((mboxOf s c).queued = m :: rest) ∧ (sessionOf s m.sess = some y)) ∧
    (∃ (s : State) (p : Nat), (heldInReset s Domain.network = false) ∧ (p < gradeNets s) ∧ (p ∉ s.retire.netPorts) ∧ (s.power.state ≠ PowerState.parked)) ∧
    (∃ (s : State) (n : Nat) (x : Session), (sessionOf s n = some x) ∧ (x.open' = true) ∧ (x.lastReq + x.timeout * 1000000000 ≤ s.clk.up)) ∧
    (∃ (s : State) (n : Nat) (x : Session), (sessionOf s n = some x) ∧ (x.open' = false ∨ s.clk.up < x.lastReq + x.timeout * 1000000000)) ∧
    (∃ (s : State) (n : Nat) (x : Session) (i : Nat) (q : Transfer), (sessionOf s n = some x) ∧ (x.transfers[i]? = some q) ∧ (q.last + 60000000000 ≤ s.clk.up)) ∧
    (∃ (s : State) (n : Nat) (x : Session) (i : Nat) (q : Transfer), (sessionOf s n = some x) ∧ (x.transfers[i]? = some q) ∧ (s.clk.up < q.last + 60000000000)) ∧
    (∃ (s : State) (r : AcpReq) (v : List Byte), (isNext s r = true) ∧ (tlv r 32882 = some v) ∧ (leAt v 0 2 ≠ deviceId s) ∧ ((routeTo s true (leAt v 0 2)).isSome = true)) ∧
    (∃ (s : State) (r : AcpReq) (v : List Byte), (isNext s r = true) ∧ (tlv r 32882 = some v) ∧ (leAt v 0 2 ≠ deviceId s) ∧ (routeTo s true (leAt v 0 2) = none)) :=
  ⟨⟨netLive, frameOfBytes 9023 .other, by decide +kernel, by decide +kernel, by decide +kernel, by decide +kernel, by decide +kernel⟩,
   ⟨{ live with host := { ports := [(0, { up := true, macsec := true })] } }, frameOfBytes 9022 .other, by decide +kernel, by decide +kernel, by decide +kernel, by decide +kernel, by decide +kernel, by decide +kernel, by decide +kernel⟩,
   ⟨netLive, frameOfBytes 64 .other, by decide +kernel, by decide +kernel, by decide +kernel, by decide +kernel, by decide +kernel, by decide +kernel, by decide +kernel, by decide +kernel⟩,
   ⟨{ netLive with host := { netLive.host with filters := [{ ring := 0, mac := 0, vlan := 0 }] } }, frameOfBytes 64 .other, { ring := 0, mac := 0, vlan := 0 }, by decide +kernel, by decide +kernel, by decide +kernel, by decide +kernel, by decide +kernel, by decide +kernel, by decide +kernel, by decide +kernel⟩,
   ⟨{ netLive with host := { netLive.host with acpSecure := true } }, frameOfBytes 64 (.acp (dgram 1 0 1)), dgram 1 0 1, by decide +kernel, by decide +kernel, by decide +kernel, by decide +kernel, by decide +kernel, by decide +kernel, by decide +kernel, by decide +kernel⟩,
   ⟨netLive, frameOfBytes 9022 (.acp (dgram 1 0 1)), dgram 1 0 1, by decide +kernel, by decide +kernel, by decide +kernel, by decide +kernel, by decide +kernel, by decide +kernel, by decide +kernel, by decide +kernel, by decide +kernel, by decide +kernel⟩,
   ⟨live, { dgram 1 0 1 with bytes := List.replicate 15 0 }, by decide +kernel, by decide +kernel, .inl (by decide +kernel)⟩,
   ⟨openSess { sessionOfReqs [] with replies := [(1, sent0)] }, dgram 0x10 0xFFFF 1, 0, { sessionOfReqs [] with replies := [(1, sent0)] }, _, [], (1, sent0), by decide +kernel, by decide +kernel, by decide +kernel, by decide +kernel, by decide +kernel, by decide +kernel, by decide +kernel, by decide +kernel, by decide +kernel, rfl, by decide +kernel⟩,
   ⟨openSess (sessionOfReqs [request 0x10 []]), dgram 0x10 0xFFFF 1, 0, sessionOfReqs [request 0x10 []], _, [], by decide +kernel, by decide +kernel, by decide +kernel, by decide +kernel, by decide +kernel, by decide +kernel, by decide +kernel, by decide +kernel, by decide +kernel, rfl, by decide +kernel, by decide +kernel⟩,
   ⟨openSess (sessionOfReqs (List.replicate 32 (request 0x10 []))), dgram 0x10 0xFFFF 2, 0, sessionOfReqs (List.replicate 32 (request 0x10 [])), _, [], by decide +kernel, by decide +kernel, by decide +kernel, by decide +kernel, by decide +kernel, by decide +kernel, by decide +kernel, by decide +kernel, by decide +kernel, rfl, by decide +kernel, by decide +kernel, by decide +kernel⟩,
   ⟨openSess (sessionOfReqs (List.replicate 31 (request 0x10 []))), dgram 0x10 0xFFFF 2, 0, sessionOfReqs (List.replicate 31 (request 0x10 [])), _, [], by decide +kernel, by decide +kernel, by decide +kernel, by decide +kernel, by decide +kernel, by decide +kernel, by decide +kernel, by decide +kernel, by decide +kernel, rfl, by decide +kernel, by decide +kernel, by decide +kernel, by decide +kernel⟩,
   ⟨openSess (sessionOfReqs []), dgram 0x7F 0xFFFF 2, 0, sessionOfReqs [], _, [], 16, 4, 127, by decide +kernel, by decide +kernel, by decide +kernel, by decide +kernel, by decide +kernel, by decide +kernel, by decide +kernel, by decide +kernel, by decide +kernel, rfl, by decide +kernel, by decide +kernel, by decide +kernel, by decide +kernel⟩,
   ⟨mailbox .free, .app 0, 4, by decide +kernel, by decide +kernel, by decide +kernel, by decide +kernel⟩,
   ⟨mailbox .busy, .app 0, 4, by decide +kernel, by decide +kernel, by decide +kernel, by decide +kernel⟩,
   ⟨mailbox .claimed, .app 0, 4, by decide +kernel, by decide +kernel, by decide +kernel, by decide +kernel⟩,
   ⟨mailbox .free, .app 0, 4, by decide +kernel, by decide +kernel, by decide +kernel, by decide +kernel⟩,
   ⟨mailbox .notice, .app 0, 4, by decide +kernel, by decide +kernel, by decide +kernel, by decide +kernel⟩,
   ⟨mailbox .request, .app 0, 4, by decide +kernel, by decide +kernel, by decide +kernel, by decide +kernel, by decide +kernel⟩,
   ⟨mailbox .free, .app 1, 4, by decide +kernel, by decide +kernel, by decide +kernel⟩,
   ⟨{ live with host := { mboxes := [(3, { ring := [dgram 1 0 1] })] } }, 3, dgram 1 0 1, [], by decide +kernel, by decide +kernel, by decide +kernel, by decide +kernel⟩,
   ⟨{ live with host := { mboxes := [(4, { st := .request, rung := some (dgram 1 0 1) })] } }, 4, dgram 1 0 1, by decide +kernel, by decide +kernel, by decide +kernel, by decide +kernel, by decide +kernel⟩,
   ⟨{ live with host := { mboxes := [(4, { queued := [sent0] })], sessions := [(0, some (sessionOfReqs []))] } }, 4, sent0, sessionOfReqs [], [], by decide +kernel, by decide +kernel, by decide +kernel, by decide +kernel, by decide +kernel⟩,
   ⟨live, 0, by decide +kernel, by decide +kernel, by decide +kernel, by decide +kernel⟩,
   ⟨{ openSess (sessionOfReqs []) with clk := { up := 60000000000 } }, 0, sessionOfReqs [], by decide +kernel, by decide +kernel, by decide +kernel⟩,
   ⟨{ openSess (sessionOfReqs []) with clk := { up := 59999999999 } }, 0, sessionOfReqs [], by decide +kernel, by decide +kernel⟩,
   ⟨{ openSess { sessionOfReqs [] with transfers := [{ ident := 0, typ := 1, ctx := 0, length := none, chunks := [], last := 0 }] } with clk := { up := 60000000000 } }, 0, { sessionOfReqs [] with transfers := [{ ident := 0, typ := 1, ctx := 0, length := none, chunks := [], last := 0 }] }, 0, { ident := 0, typ := 1, ctx := 0, length := none, chunks := [], last := 0 }, by decide +kernel, by decide +kernel, by decide +kernel⟩,
   ⟨{ openSess { sessionOfReqs [] with transfers := [{ ident := 0, typ := 1, ctx := 0, length := none, chunks := [], last := 0 }] } with clk := { up := 59999999999 } }, 0, { sessionOfReqs [] with transfers := [{ ident := 0, typ := 1, ctx := 0, length := none, chunks := [], last := 0 }] }, 0, { ident := 0, typ := 1, ctx := 0, length := none, chunks := [], last := 0 }, by decide +kernel, by decide +kernel, by decide +kernel⟩,
   ⟨{ linked with host := (asking (request 1 [(0x8072, [2, 0])])).host }, request 1 [(0x8072, [2, 0])], [2, 0], by decide +kernel, by decide +kernel, by decide +kernel, by decide +kernel⟩,
   ⟨{ linked with host := (asking (request 1 [(0x8072, [9, 0])])).host }, request 1 [(0x8072, [9, 0])], [9, 0], by decide +kernel, by decide +kernel, by decide +kernel, by decide +kernel⟩⟩

theorem witness_PlateStripes :
    (∃ (s : State) (pipe : Nat) (n : Nat) (j : Nat) (d : Nat) (x : Machine.Stream) (f : FrameRec), (pipe < 4) ∧ (heldInReset s (Domain.plate pipe) = false) ∧ (Domain.plate pipe ∉ s.retire.others) ∧ (tget none s.plates pipe = none) ∧ (minBy (fun c => c.2.2.2.2) (plateCandidates s) = some (n, x, f, j, d))) ∧
    (∃ (s : State) (pipe : Nat) (job : PlateJob) (x : Machine.Stream) (f : FrameRec), (tget none s.plates pipe = some job) ∧ (streamOf s job.stream = some x) ∧ (frameOf x job.frame = some f) ∧ (f.cancelled = false) ∧ (job.stripe ∉ f.droppedStripes)) ∧
    (∃ (s : State) (pipe : Nat) (job : PlateJob) (x : Machine.Stream) (f : FrameRec), (tget none s.plates pipe = some job) ∧ (streamOf s job.stream = some x) ∧ (frameOf x job.frame = some f) ∧ (f.cancelled = false) ∧ (job.stripe ∈ f.droppedStripes)) :=
  ⟨⟨{ intake {} 0x8000 with streams := [(0, some platePort)] }, 3, 0, 0, 1536, platePort, { frame0 with close := some 0, plate := [(0, 1)] }, by decide +kernel, by decide +kernel, by decide +kernel, by decide +kernel, by decide +kernel⟩,
   ⟨plating frame0, 3, { stream := 0, frame := 0, stripe := 0, port := 0, bank := 0, started := 0 }, { stroke0 with frames := [frame0] }, frame0, by decide +kernel, by decide +kernel, by decide +kernel, by decide +kernel, by decide +kernel⟩,
   ⟨plating { frame0 with droppedStripes := [0] }, 3, { stream := 0, frame := 0, stripe := 0, port := 0, bank := 0, started := 0 }, { stroke0 with frames := [{ frame0 with droppedStripes := [0] }] }, { frame0 with droppedStripes := [0] }, by decide +kernel, by decide +kernel, by decide +kernel, by decide +kernel, by decide +kernel⟩⟩

theorem witness_PowerStates :
    (∃ (s : State) (src : Src) (p : Nat) (c : Instr), (p < 48) ∧ (meets s src (powerBase + 4 * p) = Meets.here) ∧ (isApgil src = false) ∧ (c = Instr.partitionEnable src p ∨ c = Instr.partitionDisable src p)) ∧
    (∃ (s : State) (src : Src) (p : Nat), (p < 48) ∧ (meets s src (powerBase + 4 * p) = Meets.here) ∧ (isApgil src = true) ∧ (fixedPart p = true ∨ s.power.tripped = true)) ∧
    (∃ (s : State) (src : Src) (p : Nat), (p < 48) ∧ (meets s src (powerBase + 4 * p) = Meets.here) ∧ (isApgil src = true) ∧ (fixedPart p = false) ∧ (s.power.tripped = false)) ∧
    (∃ (s : State) (src : Src) (p : Nat), (p < 48) ∧ (meets s src (powerBase + 4 * p) = Meets.here) ∧ (isApgil src = true) ∧ (frontNeeded s p = true)) ∧
    (∃ (s : State) (src : Src) (p : Nat), (p < 48) ∧ (meets s src (powerBase + 4 * p) = Meets.here) ∧ (isApgil src = true) ∧ (frontNeeded s p = false) ∧ (fixedPart p = true ∨ (partOf s p).st = PartState.off ∨ (partOf s p).st = PartState.poweringDown)) ∧
    (∃ (s : State) (src : Src) (p : Nat), (p < 48) ∧ (meets s src (powerBase + 4 * p) = Meets.here) ∧ (isApgil src = true) ∧ (fixedPart p = false) ∧ (frontNeeded s p = false) ∧ ((partOf s p).st = PartState.poweringUp ∨ (partOf s p).st = PartState.enablePending)) ∧
    (∃ (s : State) (src : Src) (p : Nat), (p < 48) ∧ (meets s src (powerBase + 4 * p) = Meets.here) ∧ (isApgil src = true) ∧ (fixedPart p = false) ∧ (frontNeeded s p = false) ∧ ((partOf s p).st = PartState.on)) ∧
    (∃ (s : State) (p : Nat), ((partOf s p).st = PartState.poweringUp) ∧ ((partOf s p).disableNext = false)) ∧
    (∃ (s : State) (p : Nat), ((partOf s p).st = PartState.poweringUp) ∧ ((partOf s p).disableNext = true)) ∧
    (∃ (s : State) (p : Nat), ((partOf s p).st ≠ PartState.poweringUp)) ∧
    (∃ (s : State) (p : Nat), ((partOf s p).st = PartState.poweringDown ∨ (partOf s p).st = PartState.enablePending)) ∧
    (∃ (s : State) (p : Nat), ((partOf s p).st ≠ PartState.poweringDown) ∧ ((partOf s p).st ≠ PartState.enablePending)) ∧
    (∃ (s : State) (p : Nat), ((decide ((partOf s p).st = PartState.on) && !fixedPart p && !partUsed s p && lasted (partOf s p).idleSince 10000000 s.clk.up && !heldInReset s Domain.mgmt) = true)) ∧
    (∃ (s : State) (p : Nat), ((partOf s p).st ≠ PartState.on ∨ fixedPart p = true ∨ partUsed s p = true ∨ lasted (partOf s p).idleSince 10000000 s.clk.up = false ∨ heldInReset s Domain.mgmt = true)) ∧
    (∃ (s : State), (s.power.state = PowerState.active) ∧ (deviceWorks s = false) ∧ (lasted s.power.idleSince 10000000 s.clk.up = true) ∧ (heldInReset s Domain.mgmt = false)) ∧
    (∃ (s : State), (s.power.state ≠ PowerState.active ∨ deviceWorks s = true ∨ lasted s.power.idleSince 10000000 s.clk.up = false ∨ heldInReset s Domain.mgmt = true)) ∧
    (∃ (s : State), (s.power.state = PowerState.idle) ∧ (contextList s = []) ∧ (deviceWorks s = false) ∧ (lasted s.power.noContextSince 60000000000 s.clk.up = true) ∧ (s.boot.st = DevState.ready) ∧ (s.boot.phase = UpdPhase.none) ∧ (heldInReset s Domain.mgmt = false) ∧ (apgilPaused s = false)) ∧
    (∃ (s : State), (s.power.state ≠ PowerState.idle ∨ contextList s ≠ [] ∨ deviceWorks s = true ∨ lasted s.power.noContextSince 60000000000 s.clk.up = false ∨ s.boot.st ≠ DevState.ready ∨ s.boot.phase ≠ UpdPhase.none ∨ heldInReset s Domain.mgmt = true ∨ apgilPaused s = true)) ∧
    (∃ (s : State), (s.power.state ≠ PowerState.parked)) ∧
    (∃ (s : State) (f : EthFrame) (m : AcpDatagram) (r : Nat), (s.power.state = PowerState.parked) ∧ (heldInReset s Domain.network = false) ∧ (f.port < gradeNets s) ∧ (f.port ∉ s.retire.netPorts) ∧ ((portOf s f.port).up = true) ∧ (f.bytes ≤ 9018 + if f.vlan.isSome = true then 4 else 0) ∧ ((portOf s f.port).macsec = false) ∧ (s.host.acpSecure = false) ∧ (f.kind = FrameKind.acp m) ∧ (s.host.held.length < 16) ∧ (flashReason s = some r)) ∧
    (∃ (s : State) (f : EthFrame) (m : AcpDatagram), (s.power.state = PowerState.parked) ∧ (heldInReset s Domain.network = false) ∧ (f.port < gradeNets s) ∧ (f.port ∉ s.retire.netPorts) ∧ ((portOf s f.port).up = true) ∧ (f.bytes ≤ 9018 + if f.vlan.isSome = true then 4 else 0) ∧ ((portOf s f.port).macsec = false) ∧ (s.host.acpSecure = false) ∧ (f.kind = FrameKind.acp m) ∧ (s.host.held.length < 16) ∧ (flashReason s = none)) ∧
    (∃ (s : State) (temps : List Int) (h : List Int) (m : Int), (h = List.map (fun i => temps.getD i 0) (List.filter (fun i => decide (i ∉ s.power.tempOut)) (List.range temps.length))) ∧ (m = List.foldl max (h.headD 0) h) ∧ (s.power.tripped = true ∨ h = [])) ∧
    (∃ (s : State) (temps : List Int) (h : List Int) (m : Int), (h = List.map (fun i => temps.getD i 0) (List.filter (fun i => decide (i ∉ s.power.tempOut)) (List.range temps.length))) ∧ (m = List.foldl max (h.headD 0) h) ∧ (h ≠ []) ∧ (m ≤ 1840)) ∧
    (∃ (s : State) (temps : List Int) (h : List Int) (m : Int), (h = List.map (fun i => temps.getD i 0) (List.filter (fun i => decide (i ∉ s.power.tempOut)) (List.range temps.length))) ∧ (m = List.foldl max (h.headD 0) h) ∧ (s.power.tripped = false) ∧ (h ≠ []) ∧ (m ≤ 1840)) ∧
    (∃ (s : State) (temps : List Int) (h : List Int) (m : Int), (h = List.map (fun i => temps.getD i 0) (List.filter (fun i => decide (i ∉ s.power.tempOut)) (List.range temps.length))) ∧ (m = List.foldl max (h.headD 0) h) ∧ (s.power.tripped = false) ∧ (h ≠ []) ∧ (1840 < m)) ∧
    (∃ (s : State), (s.power.tripped = false) ∧ (s.power.level = 1 ∨ s.power.level = 2) ∧ (lasted s.power.below100 1000000000 s.clk.up = true)) ∧
    (∃ (s : State), (s.power.tripped = false) ∧ (s.power.level = 2) ∧ (lasted s.power.below100 1000000000 s.clk.up = false) ∧ (lasted s.power.below105 1000000000 s.clk.up = true)) ∧
    (∃ (s : State), (s.power.tripped = true ∨ s.power.level ≠ 1 ∧ s.power.level ≠ 2 ∨ lasted s.power.below100 1000000000 s.clk.up = false ∧ (s.power.level ≠ 2 ∨ lasted s.power.below105 1000000000 s.clk.up = false))) :=
  ⟨⟨live, .app 0, 0, .partitionEnable (.app 0) 0, by decide +kernel, by decide +kernel, by decide +kernel, .inl rfl⟩,
   ⟨live, .mgmt 0, 47, by decide +kernel, by decide +kernel, by decide +kernel, by decide +kernel⟩,
   ⟨live, .mgmt 0, 46 - 2, by decide +kernel, by decide +kernel, by decide +kernel, by decide +kernel, by decide +kernel⟩,
   ⟨streaming stroke0, .mgmt 0, 30, by decide +kernel, by decide +kernel, by decide +kernel, by decide +kernel⟩,
   ⟨live, .mgmt 0, 43, by decide +kernel, by decide +kernel, by decide +kernel, by decide +kernel, by decide +kernel⟩,
   ⟨withPart 0 { st := .poweringUp } 0, .mgmt 0, 0, by decide +kernel, by decide +kernel, by decide +kernel, by decide +kernel, by decide +kernel, by decide +kernel⟩,
   ⟨live, .mgmt 0, 0, by decide +kernel, by decide +kernel, by decide +kernel, by decide +kernel, by decide +kernel, by decide +kernel⟩,
   ⟨withPart 0 { st := .poweringUp } 0, 0, by decide +kernel, by decide +kernel⟩,
   ⟨withPart 0 { st := .poweringUp, disableNext := true } 0, 0, by decide +kernel, by decide +kernel⟩,
   ⟨live, 0, by decide +kernel⟩,
   ⟨withPart 0 { st := .enablePending } 0, 0, by decide +kernel⟩,
   ⟨live, 0, by decide +kernel, by decide +kernel⟩,
   ⟨withPart 0 { st := .on, idleSince := some 0 } 10000000, 0, by decide +kernel⟩,
   ⟨withPart 0 { st := .on, idleSince := some 0 } 9999999, 0, by decide +kernel⟩,
   ⟨withPower { idleSince := some 0 } 10000000, by decide +kernel, by decide +kernel, by decide +kernel, by decide +kernel⟩,
   ⟨withPower { idleSince := some 0 } 9999999, by decide +kernel⟩,
   ⟨withPower { state := .idle, noContextSince := some 0 } 60000000000, by decide +kernel, by decide +kernel, by decide +kernel, by decide +kernel, by decide +kernel, by decide +kernel, by decide +kernel, by decide +kernel⟩,
   ⟨withPower { state := .idle, noContextSince := some 0 } 59999999999, by decide +kernel⟩,
   ⟨live, by decide +kernel⟩,
   ⟨{ netLive with power := { live.power with state := .parked } }, frameOfBytes 9022 (.acp (dgram 1 0 1)), dgram 1 0 1, 3, by decide +kernel, by decide +kernel, by decide +kernel, by decide +kernel, by decide +kernel, by decide +kernel, by decide +kernel, by decide +kernel, by decide +kernel, by decide +kernel, by decide +kernel⟩,
   ⟨{ netLive with power := { live.power with state := .parked }, boot := { live.boot with flashImage := some image0 } }, frameOfBytes 9022 (.acp (dgram 1 0 1)), dgram 1 0 1, by decide +kernel, by decide +kernel, by decide +kernel, by decide +kernel, by decide +kernel, by decide +kernel, by decide +kernel, by decide +kernel, by decide +kernel, by decide +kernel, by decide +kernel⟩,
   ⟨withPower { tempOut := [0] } 0, [1841], _, _, rfl, rfl, .inr (by decide +kernel)⟩,
   ⟨live, [1840, -5], _, _, rfl, rfl, by decide +kernel, by decide +kernel⟩,
   ⟨live, [1840, -5], _, _, rfl, rfl, by decide +kernel, by decide +kernel, by decide +kernel⟩,
   ⟨live, [0, 1841], _, _, rfl, rfl, by decide +kernel, by decide +kernel, by decide +kernel⟩,
   ⟨withPower { level := 2, below100 := some 0 } 1000000000, by decide +kernel, by decide +kernel, by decide +kernel⟩,
   ⟨withPower { level := 2, below105 := some 0 } 1000000000, by decide +kernel, by decide +kernel, by decide +kernel, by decide +kernel⟩,
   ⟨withPower { level := 2, below105 := some 0 } 999999999, by decide +kernel⟩⟩

theorem witness_QueuesAndSlots :
    (∃ (s : State) (src : Src) (q : Nat) (v : Word), (meets s src (queueReg q 8) = Meets.here) ∧ (isApgil src = true) ∧ (bitOf v 31 = true)) ∧
    (∃ (s : State) (src : Src) (q : Nat) (v : Word), (meets s src (queueReg q 8) = Meets.here) ∧ (isApgil src = true) ∧ (bitOf v 31 = false)) ∧
    (∃ (s : State) (q : Nat), (wbit s (queueReg q 8) 31 = false ∨ (queueOf s q).st = QueueState.stopped ∨ queueHeld s q = 0 ∨ cancelDue s (wfld s (queueReg q 8) 21 16) = true)) ∧
    (∃ (s : State) (q : Nat) (ctx : Nat) (e : List Word), (wbit s (queueReg q 8) 31 = true) ∧ ((queueOf s q).st ≠ QueueState.stopped) ∧ (queueHeld s q ≠ 0) ∧ (heldInReset s Domain.network = false) ∧ (e = queueEntry s q (queueOf s q).head) ∧ (ctx = wfld s (queueReg q 8) 21 16) ∧ (cancelDue s ctx = false) ∧ (entryTarget e = none ∨ fld (e.getD 0 0) 17 16 = 3)) ∧
    (∃ (s : State) (q : Nat) (ctx : Nat) (e : List Word) (who : Nat), (wbit s (queueReg q 8) 31 = true) ∧ ((queueOf s q).st ≠ QueueState.stopped) ∧ (queueHeld s q ≠ 0) ∧ (heldInReset s Domain.network = false) ∧ (e = queueEntry s q (queueOf s q).head) ∧ (ctx = wfld s (queueReg q 8) 21 16) ∧ (cancelDue s ctx = false) ∧ (entryTarget e = some who) ∧ (fld (e.getD 0 0) 17 16 ≠ 3) ∧ (s.clk.now < BitVec.toNat (e.getD 2 0) + BitVec.toNat (e.getD 3 0) * 2 ^ 32)) ∧
    (∃ (s : State) (q : Nat) (ctx : Nat) (e : List Word) (who : Nat) (code : Nat), (wbit s (queueReg q 8) 31 = true) ∧ ((queueOf s q).st ≠ QueueState.stopped) ∧ (queueHeld s q ≠ 0) ∧ (heldInReset s Domain.network = false) ∧ (e = queueEntry s q (queueOf s q).head) ∧ (ctx = wfld s (queueReg q 8) 21 16) ∧ (cancelDue s ctx = false) ∧ (entryTarget e = some who) ∧ (fld (e.getD 0 0) 17 16 ≠ 3) ∧ (BitVec.toNat (e.getD 2 0) + BitVec.toNat (e.getD 3 0) * 2 ^ 32 ≤ s.clk.now) ∧ (fld (e.getD 0 0) 17 16 = 0 ∨ (queueOf s q).condMet = true) ∧ (targetStatus s who ctx = some code)) ∧
    (∃ (s : State) (q : Nat) (ctx : Nat) (e : List Word) (who : Nat), (wbit s (queueReg q 8) 31 = true) ∧ ((queueOf s q).st ≠ QueueState.stopped) ∧ (queueHeld s q ≠ 0) ∧ (heldInReset s Domain.network = false) ∧ (e = queueEntry s q (queueOf s q).head) ∧ (ctx = wfld s (queueReg q 8) 21 16) ∧ (cancelDue s ctx = false) ∧ (entryTarget e = some who) ∧ (fld (e.getD 0 0) 17 16 ≠ 3) ∧ (BitVec.toNat (e.getD 2 0) + BitVec.toNat (e.getD 3 0) * 2 ^ 32 ≤ s.clk.now) ∧ (fld (e.getD 0 0) 17 16 = 0 ∨ (queueOf s q).condMet = true) ∧ (targetStatus s who ctx = none) ∧ (targetFree s who = false)) ∧
    (∃ (s : State) (q : Nat) (ctx : Nat) (e : List Word) (who : Nat), (wbit s (queueReg q 8) 31 = true) ∧ ((queueOf s q).st ≠ QueueState.stopped) ∧ (queueHeld s q ≠ 0) ∧ (heldInReset s Domain.network = false) ∧ (e = queueEntry s q (queueOf s q).head) ∧ (ctx = wfld s (queueReg q 8) 21 16) ∧ (cancelDue s ctx = false) ∧ (entryTarget e = some who) ∧ (fld (e.getD 0 0) 17 16 ≠ 3) ∧ (BitVec.toNat (e.getD 2 0) + BitVec.toNat (e.getD 3 0) * 2 ^ 32 ≤ s.clk.now) ∧ (fld (e.getD 0 0) 17 16 = 0 ∨ (queueOf s q).condMet = true) ∧ (who < 72) ∧ (targetStatus s who ctx = none) ∧ (targetFree s who = true) ∧ (wbit s (gtReg who 0) 3 = true)) ∧
    (∃ (s : State) (q : Nat) (ctx : Nat) (e : List Word) (who : Nat), (wbit s (queueReg q 8) 31 = true) ∧ ((queueOf s q).st ≠ QueueState.stopped) ∧ (queueHeld s q ≠ 0) ∧ (heldInReset s Domain.network = false) ∧ (e = queueEntry s q (queueOf s q).head) ∧ (ctx = wfld s (queueReg q 8) 21 16) ∧ (cancelDue s ctx = false) ∧ (entryTarget e = some who) ∧ (fld (e.getD 0 0) 17 16 ≠ 3) ∧ (BitVec.toNat (e.getD 2 0) + BitVec.toNat (e.getD 3 0) * 2 ^ 32 ≤ s.clk.now) ∧ (fld (e.getD 0 0) 17 16 ≠ 0) ∧ ((queueOf s q).condMet = false) ∧ ((s.waits.any fun v => decide (v.who = 560 + q)) = false) ∧ ((flagAllowed s (some ctx) (fld (e.getD 0 0) 15 0) && condMet (decide (fld (e.getD 0 0) 17 16 = 2)) (flagOf s (fld (e.getD 0 0) 15 0)) (e.getD 1 0)) = false)) ∧
    (∃ (s : State) (src : Src) (i : Nat), (meets s src (slotReg i 8) = Meets.here) ∧ (isApgil src = true) ∧ ((slotOf s i).armed = true)) ∧
    (∃ (s : State) (src : Src) (i : Nat) (v : Word), (meets s src (slotReg i 8) = Meets.here) ∧ (isApgil src = true) ∧ ((slotOf s i).armed = false) ∧ (bitOf v 31 = true) ∧ (bitOf v 30 = false)) ∧
    (∃ (s : State) (src : Src) (i : Nat) (v : Word), (meets s src (slotReg i 8) = Meets.here) ∧ (isApgil src = true) ∧ (bitOf v 30 = true)) ∧
    (∃ (s : State) (src : Src) (i : Nat) (v : Word), (meets s src (slotReg i 8) = Meets.here) ∧ (isApgil src = true) ∧ (bitOf v 30 = false)) ∧
    (∃ (s : State) (i : Nat), ((slotOf s i).armed = true) ∧ ((slotOf s i).next ≤ s.clk.now) ∧ (cancelDue s (wfld s (slotReg i 8) 18 13) = false)) ∧
    (∃ (s : State) (i : Nat), ((slotOf s i).armed = false ∨ s.clk.now < (slotOf s i).next ∨ cancelDue s (wfld s (slotReg i 8) 18 13) = true)) ∧
    (∃ (s : State) (src : Src) (v : Word), (meets s src (timeBase + 32) = Meets.here) ∧ (isApgil src = true) ∧ (bitOf v 8 = true)) ∧
    (∃ (s : State) (c : Nat) (p : Nat × Nat), (List.find? (fun p => decide (p.1 = c) && decide (p.2 ≤ s.clk.up)) s.clk.cancels = some p)) ∧
    (∃ (s : State) (c : Nat), (∀ p ∈ s.clk.cancels, p.1 = c → s.clk.up < p.2)) :=
  ⟨⟨live, .mgmt 0, 511, 0x80000000, by decide +kernel, by decide +kernel, by decide +kernel⟩,
   ⟨live, .mgmt 0, 511, 0x7FFFFFFF, by decide +kernel, by decide +kernel, by decide +kernel⟩,
   ⟨live, 511, by decide +kernel⟩,
   ⟨queued [0x430000] {} live, 511, 0, [0x430000, 0, 0, 0], by decide +kernel, by decide +kernel, by decide +kernel, by decide +kernel, by decide +kernel, by decide +kernel, by decide +kernel, by decide +kernel⟩,
   ⟨queued [0x3F400000, 0, 1, 0] {} live, 511, 0, [0x3F400000, 0, 1, 0], 63, by decide +kernel, by decide +kernel, by decide +kernel, by decide +kernel, by decide +kernel, by decide +kernel, by decide +kernel, by decide +kernel, by decide +kernel, by decide +kernel⟩,
   ⟨queued [0x3F400000] {} live, 511, 0, [0x3F400000, 0, 0, 0], 63, stABSENT, by decide +kernel, by decide +kernel, by decide +kernel, by decide +kernel, by decide +kernel, by decide +kernel, by decide +kernel, by decide +kernel, by decide +kernel, by decide +kernel, by decide +kernel, by decide +kernel⟩,
   ⟨queued [0x3F400000] {} { tileOwned 8 with tiles := [(63, { st := .running })] }, 511, 0, [0x3F400000, 0, 0, 0], 63, by decide +kernel, by decide +kernel, by decide +kernel, by decide +kernel, by decide +kernel, by decide +kernel, by decide +kernel, by decide +kernel, by decide +kernel, by decide +kernel, by decide +kernel, by decide +kernel, by decide +kernel⟩,
   ⟨queued [0x3F400000] {} (tileOwned 8), 511, 0, [0x3F400000, 0, 0, 0], 63, by decide +kernel, by decide +kernel, by decide +kernel, by decide +kernel, by decide +kernel, by decide +kernel, by decide +kernel, by decide +kernel, by decide +kernel, by decide +kernel, by decide +kernel, by decide +kernel, by decide +kernel, by decide +kernel, by decide +kernel⟩,
   ⟨queued [0x3F410000, 1] {} (tileOwned 8), 511, 0, [0x3F410000, 1, 0, 0], 63, by decide +kernel, by decide +kernel, by decide +kernel, by decide +kernel, by decide +kernel, by decide +kernel, by decide +kernel, by decide +kernel, by decide +kernel, by decide +kernel, by decide +kernel, by decide +kernel, by decide +kernel, by decide +kernel⟩,
   ⟨{ live with slots := [(255, { armed := true })] }, .mgmt 0, 255, by decide +kernel, by decide +kernel, by decide +kernel⟩,
   ⟨live, .mgmt 0, 255, 0x80000000, by decide +kernel, by decide +kernel, by decide +kernel, by decide +kernel, by decide +kernel⟩,
   ⟨live, .mgmt 0, 255, 0x40000000, by decide +kernel, by decide +kernel, by decide +kernel⟩,
   ⟨live, .mgmt 0, 255, 0, by decide +kernel, by decide +kernel, by decide +kernel⟩,
   ⟨{ live with slots := [(255, { armed := true })] }, 255, by decide +kernel, by decide +kernel, by decide +kernel⟩,
   ⟨{ live with slots := [(255, { armed := true, next := 1 })] }, 255, by decide +kernel⟩,
   ⟨live, .mgmt 0, 0x100, by decide +kernel, by decide +kernel, by decide +kernel⟩,
   ⟨{ live with clk := { cancels := [(63, 0)] } }, 63, (63, 0), by decide +kernel⟩,
   ⟨{ live with clk := { cancels := [(63, 1)] } }, 63, by decide +kernel⟩⟩

theorem witness_RefusedAccesses :
    (∃ (s : State) (src : Src) (addr : Nat) (size : Nat), (meets s src addr = Meets.here) ∧ (inRegWindow (locate addr) = true) ∧ (addr % 4 ≠ 0 ∨ size ≠ 4)) ∧
    (∃ (s : State) (src : Src) (addr : Nat), (meets s src addr = Meets.absent)) ∧
    (∃ (s : State) (src : Src) (addr : Nat), (meets s src addr = Meets.unmapped)) ∧
    (∃ (s : State) (src : Src) (addr : Nat), (meets s src addr = Meets.bankOff)) ∧
    (∃ (s : State) (src : Src) (addr : Nat), (meets s src addr = Meets.reset)) :=
  ⟨⟨live, .mgmt 0, gtReg 0 1, 4, by decide +kernel, by decide +kernel, by decide +kernel⟩,
   ⟨live, .app 0, tileBase 71, by decide +kernel⟩,
   ⟨live, .mgmt 0, 0x2010000000, by decide +kernel⟩,
   ⟨{ live with shmOff := [255] }, .mgmt 0, 0x2003FC0000, by decide +kernel⟩,
   ⟨{ live with resetting := [.tile 0] }, .mgmt 0, gtReg 0 0, by decide +kernel⟩⟩

theorem witness_RegisterPairLatch :
    (∃ (s : State) (src : Src) (addr : Nat) (v : Nat), (meets s src addr = Meets.here) ∧ (pairValue s addr = some v)) ∧
    (∃ (s : State) (src : Src) (addr : Nat) (v : Nat) (w : Word), (4 ≤ addr) ∧ (meets s src addr = Meets.here) ∧ (pairValue s (addr - 4) = some v) ∧ (∀ (w' : Word), (src, addr - 4, w') ∈ s.latches ↔ w' = w)) ∧
    (∃ (s : State) (src : Src) (addr : Nat) (v : Nat), (4 ≤ addr) ∧ (meets s src addr = Meets.here) ∧ (pairValue s (addr - 4) = some v) ∧ (∀ (w' : Word), (src, addr - 4, w') ∉ s.latches)) :=
  ⟨⟨live, .mgmt 0, timeBase, 0, by decide +kernel, by decide +kernel⟩,
   ⟨{ live with latches := [(.mgmt 0, timeBase, 7)] }, .mgmt 0, timeBase + 4, 0, 7, by decide +kernel, by decide +kernel, by decide +kernel, (by intro w; simp)⟩,
   ⟨live, .mgmt 0, timeBase + 4, 0, by decide +kernel, by decide +kernel, by decide +kernel, (by intro w h; cases h)⟩⟩

theorem witness_RegisterWriteByAccessType :
    (∃ (s : State) (src : Src) (addr : Nat) (value : Word) (r : RegSpec), (meets s src addr = Meets.here) ∧ (addr % 4 = 0) ∧ (regSpec (locate addr) = some r) ∧ (r.table = false) ∧ (writeRight s src (locate addr) = Right.yes) ∧ (badValue (locate addr) value = false)) ∧
    (∃ (s : State) (src : Src) (addr : Nat) (r : RegSpec), (meets s src addr = Meets.here) ∧ (regSpec (locate addr) = some r) ∧ (r.counter = true) ∧ ((∀ (off : Nat), locate addr ≠ Loc.block Blk.bru off) ∧ writeRight s src (locate addr) = Right.yes ∨ (∃ off, locate addr = Loc.block Blk.bru off) ∧ isApgil src = true)) :=
  ⟨⟨live, .mgmt 0, gtReg 71 8, 1, _, by decide +kernel, by decide +kernel, rfl, by decide +kernel, by decide +kernel, by decide +kernel⟩,
   ⟨live, .mgmt 0, bruBase + 0x20, _, by decide +kernel, rfl, by decide +kernel, .inr ⟨⟨_, rfl⟩, by decide⟩⟩⟩

theorem witness_ResetLeavesSmi :
    (∃ (s : State), (s.smi.inReset = false) ∧ (s.smi.vdd = true)) :=
  ⟨live, by decide +kernel, by decide +kernel⟩

theorem witness_ResetState :
    (∃ (n : Nat), (n < 72)) ∧
    (∃ (n : Nat), (n < 8)) ∧
    (∃ (c : Nat), (c < 128)) ∧
    (∃ (c : Nat), (c < 64)) ∧
    (∃ (p : Nat), (p < 48)) :=
  ⟨⟨71, by decide +kernel⟩,
   ⟨7, by decide +kernel⟩,
   ⟨127, by decide +kernel⟩,
   ⟨63, by decide +kernel⟩,
   ⟨47, by decide +kernel⟩⟩

theorem witness_ResultRecord :
    (∃ (s : State) (s0 : State) (n : Nat) (x : Machine.Stream) (f : FrameRec) (rd : List Byte) (s1 : State) (s2 : State), (streamOf s n = some x) ∧ (List.find? (fun f => !f.recorded) x.frames = some f) ∧ (carries x = true) ∧ (recordDue s n x f = true) ∧ (xlateRead s (Src.stroke n) (dXlate x) (dResult x + 32) 4 = some (s0, rd)) ∧ ((x.written + 2 ^ 32 - leNat rd) % 2 ^ 32 < dResultN x) ∧ (xlateStore s0 (Src.stroke n) (dXlate x) (dResult x + 64 + x.written % dResultN x * 128) (frameRecord n x (if (dReal x && decide (0 < lateness s x f)) = true then orFlags flDEADLINE f else f) (recordStatus x f (lateness s x f)) (lateness s x f) s.clk.now) = some s1) ∧ (xlateStore s1 (Src.stroke n) (dXlate x) (dResult x) (leBytes 4 (x.written + 1)) = some s2)) ∧
    (∃ (s : State) (s0 : State) (n : Nat) (x : Machine.Stream) (f : FrameRec) (rd : List Byte), (streamOf s n = some x) ∧ (List.find? (fun f => !f.recorded) x.frames = some f) ∧ (carries x = true) ∧ (recordDue s n x f = true) ∧ (xlateRead s (Src.stroke n) (dXlate x) (dResult x + 32) 4 = some (s0, rd)) ∧ (dResultN x ≤ (x.written + 2 ^ 32 - leNat rd) % 2 ^ 32)) :=
  ⟨⟨recState, recState, 0, recording, doneFrame, [0, 0, 0, 0], recStored, recCounted, by decide +kernel, by decide +kernel, by decide +kernel, by decide +kernel, by decide +kernel, by decide +kernel, by decide +kernel, by decide +kernel⟩,
   ⟨{ recState with streams := [(0, some { recording with written := 1 })] }, { recState with streams := [(0, some { recording with written := 1 })] }, 0, { recording with written := 1 }, doneFrame, [0, 0, 0, 0], by decide +kernel, by decide +kernel, by decide +kernel, by decide +kernel, by decide +kernel, by decide +kernel⟩⟩

theorem witness_SegmentMoveSwitch :
    (∃ (s : State) (tile : Nat) (k : Nat) (sn : Nat) (i : Nat) (x : Machine.Stream) (g : Strg) (v : Variant) (seg : Segment), (List.find? (fun m => decide (m.1 = tile)) s.moves = some (tile, k)) ∧ (k ≠ tile) ∧ (stringOf s tile = some (sn, x, g, i)) ∧ (stringVariant s x g = some v) ∧ ((segsOf s x g)[i]? = some seg) ∧ (seg.ring = 0) ∧ (tileReady s k = true) ∧ (granted s x.ctx (tileGranules k) = true) ∧ (i = 0 ∨ (tileOf s (g.tiles.getD (i - 1) 0)).st ≠ EngState.running)) ∧
    (∃ (s : State) (tile : Nat) (k : Nat) (j : Nat) (y : Job), (List.find? (fun m => decide (m.1 = tile)) s.moves = some (tile, k)) ∧ (k ≠ tile) ∧ (stringOf s tile = none) ∧ (jobOfTile s tile = some j) ∧ (jobOf s j = some y) ∧ (tileReady s k = true) ∧ (granted s y.ctx (tileGranules k) = true) ∧ (tileStill s tile = true)) ∧
    (∃ (s : State) (tile : Nat) (k : Nat) (sn : Nat) (i : Nat) (x : Machine.Stream) (g : Strg) (v : Variant) (seg : Segment), (List.find? (fun m => decide (m.1 = tile)) s.moves = some (tile, k)) ∧ (stringOf s tile = some (sn, x, g, i)) ∧ (stringVariant s x g = some v) ∧ ((segsOf s x g)[i]? = some seg) ∧ ((tileReady s k && granted s x.ctx (tileGranules k)) = false)) ∧
    (∃ (s : State) (tile : Nat), (List.find? (fun m => decide (m.1 = tile)) s.moves = none)) :=
  ⟨⟨moving, 0, 1, 0, 0, readyStroke false, string0, variant0, seg0, by decide +kernel, by decide +kernel, by decide +kernel, by decide +kernel, by decide +kernel, by decide +kernel, by decide +kernel, by decide +kernel, by decide +kernel⟩,
   ⟨movingJob, 0, 1, 0, { job0 with st := .running, tiles := [0] }, by decide +kernel, by decide +kernel, by decide +kernel, by decide +kernel, by decide +kernel, by decide +kernel, by decide +kernel, by decide +kernel⟩,
   ⟨{ moving with granules := [] }, 0, 1, 0, 0, readyStroke false, string0, variant0, seg0, by decide +kernel, by decide +kernel, by decide +kernel, by decide +kernel, by decide +kernel⟩,
   ⟨live, 0, by decide +kernel⟩⟩

theorem witness_SensorSettings :
    (∃ (s : State) (bus : Nat) (n : Nat) (x : Machine.Stream) (rest : List (Nat × Machine.Stream)) (j : SetJob), (dueStreams s bus = (n, x) :: rest) ∧ (List.find? (setDue s x) x.sets = some j)) ∧
    (∃ (s : State) (bus : Nat) (n : Nat) (x : Machine.Stream) (j : SetJob), (nackHit s bus = some (n, x, j)) ∧ ((busOf s bus).retried = false)) ∧
    (∃ (s : State) (bus : Nat) (n : Nat) (x : Machine.Stream) (j : SetJob), (nackHit s bus = some (n, x, j)) ∧ ((busOf s bus).retried = true)) ∧
    (∃ (s : State) (bus : Nat), (nackHit s bus = none)) :=
  ⟨⟨{ live with streams := [(0, some (setting false))] }, 0, 0, setting false, [], setJob false, by decide +kernel, by decide +kernel⟩,
   ⟨{ live with streams := [(0, some (setting true))], buses := [(0, { last := some (0, 1, 0), retried := false })] }, 0, 0, setting true, setJob true, by decide +kernel, by decide +kernel⟩,
   ⟨{ live with streams := [(0, some (setting true))], buses := [(0, { last := some (0, 1, 0), retried := true })] }, 0, 0, setting true, setJob true, by decide +kernel, by decide +kernel⟩,
   ⟨live, 0, by decide +kernel⟩⟩

theorem witness_SlowIslands :
    (∃ (s : State) (d : Domain), (d ∉ s.slow) ∧ (∀ (n : Nat), d = Domain.tile n → stringOf s n = none ∧ (jobOfTile s n).bind (jobOf s) = none)) ∧
    (∃ (s : State) (n : Nat) (sn : Nat) (i : Nat) (k : Nat) (x : Machine.Stream) (g : Strg), (Domain.tile n ∉ s.slow) ∧ ((s.moves.any fun m => decide (m.1 = n)) = false) ∧ ((s.leaving.any fun e => decide (e.slow = n)) = false) ∧ (stringOf s n = some (sn, x, g, i)) ∧ (x.phase = StrokePhase.running ∨ x.phase = StrokePhase.stopping) ∧ (g.remap = []) ∧ (g.toVariant = none) ∧ (x.replan = none) ∧ (spareFor s = some k)) ∧
    (∃ (s : State) (d : Domain), (d ∈ s.slow)) :=
  ⟨⟨live, .core 0, by decide +kernel, nofun⟩,
   ⟨withStroke (readyStroke false) 0 live, 0, 0, 0, 64, readyStroke false, string0, by decide +kernel, by decide +kernel, by decide +kernel, by decide +kernel, by decide +kernel, by decide +kernel, by decide +kernel, by decide +kernel, by decide +kernel⟩,
   ⟨{ live with slow := [.tile 0] }, .tile 0, by decide +kernel⟩⟩

theorem witness_SmiInlet :
    (∃ (s : State) (src : Src) (off : Nat), (off < 262144) ∧ (meets s src (smiBase + off) = Meets.here) ∧ (inletWriter s src = true) ∧ (s.smi.committed.testBit (off / 16384) = false)) ∧
    (∃ (s : State) (src : Src) (off : Nat), (off < 262144) ∧ (meets s src (smiBase + off) = Meets.here) ∧ (inletWriter s src = true) ∧ (s.smi.committed.testBit (off / 16384) = true)) ∧
    (∃ (s : State) (src : Src) (off : Nat), (off < 262144) ∧ (meets s src (smiBase + off) = Meets.here) ∧ (inletWriter s src = false)) ∧
    (∃ (s : State) (src : Src) (v : Word), (meets s src (smReg 8) = Meets.here) ∧ (inletWriter s src = true) ∧ (∀ k ∈ inletSlots (fld v 3 0) (fld v 7 4 + 1), s.smi.committed.testBit k = false)) ∧
    (∃ (s : State) (src : Src) (v : Word), (meets s src (smReg 8) = Meets.here) ∧ (inletWriter s src = true) ∧ (∃ k ∈ inletSlots (fld v 3 0) (fld v 7 4 + 1), s.smi.committed.testBit k = true)) ∧
    (∃ (s : State) (src : Src), (meets s src (smReg 8) = Meets.here) ∧ (inletWriter s src = false)) ∧
    (∃ (s : State) (f : Nat) (n : Nat) (q : List (Nat × Nat)), (smiAwake s = true) ∧ (s.smi.work = none) ∧ (s.smi.fwPending = none) ∧ (s.smi.queue = (f, n) :: q)) ∧
    (∃ (s : State), (smiAwake s = false ∨ s.smi.work ≠ none ∨ s.smi.fwPending ≠ none ∨ s.smi.queue = [])) ∧
    (∃ (s : State), (heldInReset s Domain.smi = false) ∧ (s.smi.st = SmiState.boot) ∧ (s.pins.pwrGood = true)) ∧
    (∃ (s : State), (heldInReset s Domain.smi = true ∨ s.smi.st ≠ SmiState.boot ∨ s.pins.pwrGood = false)) ∧
    (∃ (s : State) (b : Bool), (smiAwake s = true) ∧ (s.smi.sealed ≠ b) ∧ (logRoom s ≠ 0)) ∧
    (∃ (s : State) (b : Bool), (smiAwake s = false ∨ s.smi.sealed = b ∨ logRoom s = 0)) ∧
    (∃ (s : State), (s.smi.vdd = false)) ∧
    (∃ (s : State), (s.smi.vdd = true)) :=
  ⟨⟨live, .mgmt 0, 0x3FFFC, by decide +kernel, by decide +kernel, by decide +kernel, by decide +kernel⟩,
   ⟨{ live with smi := { live.smi with committed := 0x8000 } }, .mgmt 0, 0x3FFFC, by decide +kernel, by decide +kernel, by decide +kernel, by decide +kernel⟩,
   ⟨live, .app 0, 0x3FFFC, by decide +kernel, by decide +kernel, by decide +kernel⟩,
   ⟨live, .mgmt 0, 0xFF, by decide +kernel, by decide +kernel, by decide +kernel⟩,
   ⟨{ live with smi := { live.smi with committed := 1 } }, .mgmt 0, 0x1F, by decide +kernel, by decide +kernel, by decide +kernel⟩,
   ⟨live, .app 0, by decide +kernel, by decide +kernel⟩,
   ⟨{ live with smi := { live.smi with queue := [(15, 16)] } }, 15, 16, [], by decide +kernel, by decide +kernel, by decide +kernel, by decide +kernel⟩,
   ⟨live, by decide +kernel⟩,
   ⟨{ live with smi := {}, pins := { resetN := true, pwrGood := true } }, by decide +kernel, by decide +kernel, by decide +kernel⟩,
   ⟨live, by decide +kernel⟩,
   ⟨live, true, by decide +kernel, by decide +kernel, by decide +kernel⟩,
   ⟨live, false, by decide +kernel⟩,
   ⟨{ live with smi := { live.smi with vdd := false } }, by decide +kernel⟩,
   ⟨live, by decide +kernel⟩⟩

theorem witness_SmiMessages :
    (∃ (s : State) (bs : List Byte) (a : Nat), (smiWork s 1 = some bs) ∧ (s.smi.st = SmiState.running) ∧ (a = smiBase + 1048576 + s.smi.outWr % 1024 * 256)) ∧
    (∃ (s : State) (bs : List Byte) (m : List Byte) (c : Instr) (k : Nat), (m = msgBody bs) ∧ (s.smi.st = SmiState.running) ∧ ((c, k) = (Instr.fwChunk, 16) ∨ (c, k) = (Instr.fwCommit, 17) ∨ (c, k) = (Instr.calInstall, 32) ∨ (c, k) = (Instr.paramSet, 33) ∨ (c, k) = (Instr.logRead, 64) ∨ (c, k) = (Instr.keyStatement, 65)) ∧ (smiWork s k = some bs) ∧ (msgCheckOk bs = false)) ∧
    (∃ (s : State) (bs : List Byte) (m : List Byte), (m = msgBody bs) ∧ (s.smi.st = SmiState.running) ∧ (msgCheckOk bs = true) ∧ (msgLengthOk bs = true) ∧ (leAt bs 0 2 = 1) ∧ (smiWork s 16 = some bs) ∧ (65 ≤ m.length) ∧ (leAt m 32 8 + (m.length - 64) ≤ smiImageMax)) ∧
    (∃ (s : State) (bs : List Byte) (m : List Byte), (m = msgBody bs) ∧ (s.smi.st = SmiState.running) ∧ (msgCheckOk bs = true) ∧ (msgLengthOk bs = true) ∧ (leAt bs 0 2 = 1) ∧ (smiWork s 17 = some bs) ∧ (192 ≤ m.length) ∧ (0 < leAt m 32 4) ∧ (leAt m 32 4 ≤ smiImageMax) ∧ (leAt m 32 4 ≤ coveredTo s.smi.staged) ∧ (msgSigned m s.smi.keyHash = false)) ∧
    (∃ (s : State) (bs : List Byte) (m : List Byte), (m = msgBody bs) ∧ (s.smi.st = SmiState.running) ∧ (msgCheckOk bs = true) ∧ (msgLengthOk bs = true) ∧ (leAt bs 0 2 = 1) ∧ (smiWork s 17 = some bs) ∧ (192 ≤ m.length) ∧ (0 < leAt m 32 4) ∧ (leAt m 32 4 ≤ smiImageMax) ∧ (leAt m 32 4 ≤ coveredTo s.smi.staged) ∧ (msgSigned m s.smi.keyHash = true) ∧ (leAt m 36 4 < s.smi.fwSecurity)) ∧
    (∃ (s : State) (bs : List Byte) (m : List Byte), (m = msgBody bs) ∧ (s.smi.st = SmiState.running) ∧ (msgCheckOk bs = true) ∧ (msgLengthOk bs = true) ∧ (leAt bs 0 2 = 1) ∧ (smiWork s 17 = some bs) ∧ (192 ≤ m.length) ∧ (0 < leAt m 32 4) ∧ (leAt m 32 4 ≤ smiImageMax) ∧ (leAt m 32 4 ≤ coveredTo s.smi.staged) ∧ (msgSigned m s.smi.keyHash = true) ∧ (s.smi.fwSecurity ≤ leAt m 36 4) ∧ (s.smi.sealed = true) ∧ (logRoom s ≠ 0)) ∧
    (∃ (s : State) (bs : List Byte) (m : List Byte), (m = msgBody bs) ∧ (s.smi.st = SmiState.running) ∧ (msgCheckOk bs = true) ∧ (msgLengthOk bs = true) ∧ (leAt bs 0 2 = 1) ∧ (smiWork s 17 = some bs) ∧ (192 ≤ m.length) ∧ (0 < leAt m 32 4) ∧ (leAt m 32 4 ≤ smiImageMax) ∧ (leAt m 32 4 ≤ coveredTo s.smi.staged) ∧ (msgSigned m s.smi.keyHash = true) ∧ (s.smi.fwSecurity ≤ leAt m 36 4) ∧ (s.smi.sealed = false) ∧ (2 ≤ logRoom s) ∧ (s.smi.keyHash ≠ none)) ∧
    (∃ (s : State) (bs : List Byte) (m : List Byte), (m = msgBody bs) ∧ (s.smi.st = SmiState.running) ∧ (msgCheckOk bs = true) ∧ (msgLengthOk bs = true) ∧ (leAt bs 0 2 = 1) ∧ (smiWork s 32 = some bs) ∧ (m.length = 64 + 60 * leAt m 36 1 + 128) ∧ (0 < leAt m 36 1) ∧ (leAt m 36 1 ≤ 16) ∧ (∀ x ∈ (calSlotOf m).cameras, x.index ≤ 15) ∧ ((List.map (fun x => x.index) (calSlotOf m).cameras).Nodup) ∧ (msgSigned m s.smi.keyHash = false)) ∧
    (∃ (s : State) (bs : List Byte) (m : List Byte), (m = msgBody bs) ∧ (s.smi.st = SmiState.running) ∧ (msgCheckOk bs = true) ∧ (msgLengthOk bs = true) ∧ (leAt bs 0 2 = 1) ∧ (smiWork s 32 = some bs) ∧ (m.length = 64 + 60 * leAt m 36 1 + 128) ∧ (0 < leAt m 36 1) ∧ (leAt m 36 1 ≤ 16) ∧ (∀ x ∈ (calSlotOf m).cameras, x.index ≤ 15) ∧ ((List.map (fun x => x.index) (calSlotOf m).cameras).Nodup) ∧ (msgSigned m s.smi.keyHash = true) ∧ (s.smi.sealed = true) ∧ (logRoom s ≠ 0)) ∧
    (∃ (s : State) (bs : List Byte) (m : List Byte), (m = msgBody bs) ∧ (s.smi.st = SmiState.running) ∧ (msgCheckOk bs = true) ∧ (msgLengthOk bs = true) ∧ (leAt bs 0 2 = 1) ∧ (smiWork s 32 = some bs) ∧ (m.length = 64 + 60 * leAt m 36 1 + 128) ∧ (0 < leAt m 36 1) ∧ (leAt m 36 1 ≤ 16) ∧ (∀ x ∈ (calSlotOf m).cameras, x.index ≤ 15) ∧ ((List.map (fun x => x.index) (calSlotOf m).cameras).Nodup) ∧ (msgSigned m s.smi.keyHash = true) ∧ (s.smi.sealed = false) ∧ (logRoom s ≠ 0)) ∧
    (∃ (s : State) (bs : List Byte) (m : List Byte) (p : SmiParams), (m = msgBody bs) ∧ (s.smi.st = SmiState.running) ∧ (msgCheckOk bs = true) ∧ (msgLengthOk bs = true) ∧ (leAt bs 0 2 = 1) ∧ (smiWork s 33 = some bs) ∧ (192 ≤ m.length) ∧ (setParam s.smi.params (leAt m 32 4) (slice m 64 (m.length - 192)) = some p) ∧ (msgSigned m s.smi.keyHash = false)) ∧
    (∃ (s : State) (bs : List Byte) (m : List Byte) (p : SmiParams), (m = msgBody bs) ∧ (s.smi.st = SmiState.running) ∧ (msgCheckOk bs = true) ∧ (msgLengthOk bs = true) ∧ (leAt bs 0 2 = 1) ∧ (smiWork s 33 = some bs) ∧ (192 ≤ m.length) ∧ (setParam s.smi.params (leAt m 32 4) (slice m 64 (m.length - 192)) = some p) ∧ (msgSigned m s.smi.keyHash = true) ∧ (s.smi.sealed = true) ∧ (logRoom s ≠ 0)) ∧
    (∃ (s : State) (bs : List Byte) (m : List Byte) (p : SmiParams), (m = msgBody bs) ∧ (s.smi.st = SmiState.running) ∧ (msgCheckOk bs = true) ∧ (msgLengthOk bs = true) ∧ (leAt bs 0 2 = 1) ∧ (smiWork s 33 = some bs) ∧ (192 ≤ m.length) ∧ (setParam s.smi.params (leAt m 32 4) (slice m 64 (m.length - 192)) = some p) ∧ (msgSigned m s.smi.keyHash = true) ∧ (s.smi.sealed = false) ∧ (logRoom s ≠ 0)) ∧
    (∃ (s : State) (bs : List Byte) (m : List Byte), (m = msgBody bs) ∧ (s.smi.st = SmiState.running) ∧ (msgCheckOk bs = true) ∧ (msgLengthOk bs = true) ∧ (leAt bs 0 2 = 1) ∧ (smiWork s 48 = some bs) ∧ (s.host.licReply = none) ∧ (licenceStatus (List.drop 64 m) s.smi.licKeyHash s.smi.serial = none) ∧ (leAt m 88 4 % 2 = 1) ∧ (logRoom s ≠ 0) ∧ (s.smi.sealed = true)) ∧
    (∃ (s : State) (bs : List Byte) (m : List Byte), (m = msgBody bs) ∧ (s.smi.st = SmiState.running) ∧ (msgCheckOk bs = true) ∧ (msgLengthOk bs = true) ∧ (leAt bs 0 2 = 1) ∧ (smiWork s 48 = some bs) ∧ (s.host.licReply = none) ∧ (licenceStatus (List.drop 64 m) s.smi.licKeyHash s.smi.serial = none) ∧ (leAt m 88 4 % 2 = 1) ∧ (logRoom s ≠ 0) ∧ (s.smi.sealed = false)) ∧
    (∃ (s : State) (bs : List Byte) (m : List Byte) (st : Nat), (m = msgBody bs) ∧ (s.smi.st = SmiState.running) ∧ (msgCheckOk bs = true) ∧ (msgLengthOk bs = true) ∧ (leAt bs 0 2 = 1) ∧ (smiWork s 48 = some bs) ∧ (s.host.licReply = none) ∧ (licenceStatus (List.drop 64 m) s.smi.licKeyHash s.smi.serial = some st)) ∧
    (∃ (s : State) (bs : List Byte) (m : List Byte), (m = msgBody bs) ∧ (s.smi.st = SmiState.running) ∧ (msgCheckOk bs = true) ∧ (msgLengthOk bs = true) ∧ (leAt bs 0 2 = 1) ∧ (smiWork s 64 = some bs)) ∧
    (∃ (s : State) (bs : List Byte) (m : List Byte), (m = msgBody bs) ∧ (s.smi.st = SmiState.running) ∧ (msgCheckOk bs = true) ∧ (msgLengthOk bs = true) ∧ (leAt bs 0 2 = 1) ∧ (smiWork s 65 = some bs)) ∧
    (∃ (s : State) (d : Nat) (v : Nat), (s.smi.fwPending = some (d, v)) ∧ (smiAwake s = true) ∧ (flashPortBusy s.flash true = false)) ∧
    (∃ (s : State), (s.smi.fwPending = none ∨ smiAwake s = false ∨ flashPortBusy s.flash true = true)) ∧
    (∃ (s : State) (c : Instr) (k : Nat), ((c, k) = (Instr.measure, 1) ∨ (c, k) = (Instr.fwChunk, 16) ∨ (c, k) = (Instr.fwCommit, 17) ∨ (c, k) = (Instr.calInstall, 32) ∨ (c, k) = (Instr.paramSet, 33) ∨ (c, k) = (Instr.licence, 48) ∨ (c, k) = (Instr.logRead, 64) ∨ (c, k) = (Instr.keyStatement, 65)) ∧ (smiWork s k = none)) :=
  ⟨⟨smiHas false (smiMsg 1 0 0 []), smiMsg 1 0 0 [], _, by decide +kernel, by decide +kernel, rfl⟩,
   ⟨smiHas false (leBytes 64 0x110001), leBytes 64 0x110001, _, .fwCommit, 17, rfl, by decide +kernel, .inr (.inl rfl), by decide +kernel, by decide +kernel⟩,
   ⟨smiHas false (smiMsg 0x10 0 0 [1]), smiMsg 0x10 0 0 [1], _, rfl, by decide +kernel, by decide +kernel, by decide +kernel, by decide +kernel, by decide +kernel, by decide +kernel, by decide +kernel⟩,
   ⟨smiHas false (badMsg commitMsg), badMsg commitMsg, _, rfl, by decide +kernel, by decide +kernel, by decide +kernel, by decide +kernel, by decide +kernel, by decide +kernel, by decide +kernel, by decide +kernel, by decide +kernel, by decide +kernel⟩,
   ⟨{ smiHas false commitMsg with smi := { (smiHas false commitMsg).smi with fwSecurity := 1 } }, commitMsg, _, rfl, by decide +kernel, by decide +kernel, by decide +kernel, by decide +kernel, by decide +kernel, by decide +kernel, by decide +kernel, by decide +kernel, by decide +kernel, commit_signed, by decide +kernel⟩,
   ⟨smiHas true commitMsg, commitMsg, _, rfl, by decide +kernel, by decide +kernel, by decide +kernel, by decide +kernel, by decide +kernel, by decide +kernel, by decide +kernel, by decide +kernel, by decide +kernel, commit_signed, by decide +kernel, by decide +kernel, by decide +kernel⟩,
   ⟨smiHas false commitMsg, commitMsg, _, rfl, by decide +kernel, by decide +kernel, by decide +kernel, by decide +kernel, by decide +kernel, by decide +kernel, by decide +kernel, by decide +kernel, by decide +kernel, commit_signed, by decide +kernel, by decide +kernel, by decide +kernel, by decide +kernel⟩,
   ⟨smiHas false (badMsg calMsg), badMsg calMsg, _, rfl, by decide +kernel, by decide +kernel, by decide +kernel, by decide +kernel, by decide +kernel, by decide +kernel, by decide +kernel, by decide +kernel, by decide +kernel, by decide +kernel, by decide +kernel⟩,
   ⟨smiHas true calMsg, calMsg, _, rfl, by decide +kernel, by decide +kernel, by decide +kernel, by decide +kernel, by decide +kernel, by decide +kernel, by decide +kernel, by decide +kernel, by decide +kernel, by decide +kernel, cal_signed, by decide +kernel, by decide +kernel⟩,
   ⟨smiHas false calMsg, calMsg, _, rfl, by decide +kernel, by decide +kernel, by decide +kernel, by decide +kernel, by decide +kernel, by decide +kernel, by decide +kernel, by decide +kernel, by decide +kernel, by decide +kernel, cal_signed, by decide +kernel, by decide +kernel⟩,
   ⟨smiHas false (badMsg paramMsg), badMsg paramMsg, _, { minDim := 5 }, rfl, by decide +kernel, by decide +kernel, by decide +kernel, by decide +kernel, by decide +kernel, by decide +kernel, by decide +kernel, by decide +kernel⟩,
   ⟨smiHas true paramMsg, paramMsg, _, { minDim := 5 }, rfl, by decide +kernel, by decide +kernel, by decide +kernel, by decide +kernel, by decide +kernel, by decide +kernel, by decide +kernel, param_signed, by decide +kernel, by decide +kernel⟩,
   ⟨smiHas false paramMsg, paramMsg, _, { minDim := 5 }, rfl, by decide +kernel, by decide +kernel, by decide +kernel, by decide +kernel, by decide +kernel, by decide +kernel, by decide +kernel, param_signed, by decide +kernel, by decide +kernel⟩,
   ⟨smiHas true licMsg, licMsg, _, rfl, by decide +kernel, by decide +kernel, by decide +kernel, by decide +kernel, by decide +kernel, by decide +kernel, licence_msg, by decide +kernel, by decide +kernel, by decide +kernel⟩,
   ⟨smiHas false licMsg, licMsg, _, rfl, by decide +kernel, by decide +kernel, by decide +kernel, by decide +kernel, by decide +kernel, by decide +kernel, licence_msg, by decide +kernel, by decide +kernel, by decide +kernel⟩,
   ⟨smiHas false (smiMsg 0x30 0 0 []), smiMsg 0x30 0 0 [], _, stCOUNT, rfl, by decide +kernel, by decide +kernel, by decide +kernel, by decide +kernel, by decide +kernel, by decide +kernel, by decide +kernel⟩,
   ⟨smiHas false (smiMsg 0x40 0 0 []), smiMsg 0x40 0 0 [], _, rfl, by decide +kernel, by decide +kernel, by decide +kernel, by decide +kernel, by decide +kernel⟩,
   ⟨smiHas false (smiMsg 0x41 0 0 []), smiMsg 0x41 0 0 [], _, rfl, by decide +kernel, by decide +kernel, by decide +kernel, by decide +kernel, by decide +kernel⟩,
   ⟨{ live with smi := { live.smi with fwPending := some (1, 2) } }, 1, 2, by decide +kernel, by decide +kernel, by decide +kernel⟩,
   ⟨live, by decide +kernel⟩,
   ⟨live, .keyStatement, 65, by decide +kernel, by decide +kernel⟩⟩

theorem witness_StatRecord :
    (∃ (s : State) (s0 : State) (s1 : State) (s2 : State) (s3 : State) (s5 : State) (n : Nat) (base : Nat) (wr : Nat) (x : Machine.Stream) (f : FrameRec) (rd : List Byte), (streamOf s n = some x) ∧ (statFrame x = some f) ∧ (heldInReset s Domain.stat = false) ∧ (base = plFld f 88 31 6 * 64 + plFld f 92 7 0 * 2 ^ 32) ∧ (s0 = setStream s n (some (dropFinished (updFrame x f.seq fun r => { r with statDone := true })))) ∧ (xlateRead s0 (Src.endpoint 0) (dXlate x) (base + 32) 4 = some (s1, rd)) ∧ (s2 = setWord s1 (plReg n 104) (BitVec.ofNat 32 (leNat rd))) ∧ (wr = BitVec.toNat (word s2 (plReg n 100))) ∧ ((wr + 2 ^ 32 - leNat rd) % 2 ^ 32 < plFld f 96 12 0) ∧ (xlateStore s2 (Src.endpoint 0) (dXlate x) (base + 64 + wr % plFld f 96 12 0 * (statRecord n f (bankExps s (dPort x) x.bank)).length) (statRecord n f (bankExps s (dPort x) x.bank)) = some s3) ∧ (xlateStore (setWord s3 (plReg n 100) (BitVec.ofNat 32 (wr + 1))) (Src.endpoint 0) (dXlate x) base (leBytes 4 (wr + 1)) = some s5)) ∧
    (∃ (s : State) (s0 : State) (s1 : State) (s2 : State) (s3 : State) (s5 : State) (n : Nat) (base : Nat) (wr : Nat) (x : Machine.Stream) (f : FrameRec) (rd : List Byte), (streamOf s n = some x) ∧ (statFrame x = some f) ∧ (heldInReset s Domain.stat = false) ∧ (base = plFld f 88 31 6 * 64 + plFld f 92 7 0 * 2 ^ 32) ∧ (s0 = setStream s n (some (dropFinished (updFrame x f.seq fun r => { r with statDone := true })))) ∧ (xlateRead s0 (Src.endpoint 0) (dXlate x) (base + 32) 4 = some (s1, rd)) ∧ (s2 = setWord s1 (plReg n 104) (BitVec.ofNat 32 (leNat rd))) ∧ (wr = BitVec.toNat (word s2 (plReg n 100))) ∧ ((wr + 2 ^ 32 - leNat rd) % 2 ^ 32 < plFld f 96 12 0) ∧ (xlateStore s2 (Src.endpoint 0) (dXlate x) (base + 64 + wr % plFld f 96 12 0 * (statRecord n f (bankExps s (dPort x) x.bank)).length) (statRecord n f (bankExps s (dPort x) x.bank)) = some s3) ∧ (xlateStore (setWord s3 (plReg n 100) (BitVec.ofNat 32 (wr + 1))) (Src.endpoint 0) (dXlate x) base (leBytes 4 (wr + 1)) = some s5) ∧ (flagNow s5 (Src.stroke n) (plFld f 108 15 0))) ∧
    (∃ (s : State) (s0 : State) (s1 : State) (s2 : State) (s3 : State) (s5 : State) (n : Nat) (base : Nat) (wr : Nat) (x : Machine.Stream) (f : FrameRec) (rd : List Byte) (g : Nat), (streamOf s n = some x) ∧ (statFrame x = some f) ∧ (heldInReset s Domain.stat = false) ∧ (base = plFld f 88 31 6 * 64 + plFld f 92 7 0 * 2 ^ 32) ∧ (s0 = setStream s n (some (dropFinished (updFrame x f.seq fun r => { r with statDone := true })))) ∧ (xlateRead s0 (Src.endpoint 0) (dXlate x) (base + 32) 4 = some (s1, rd)) ∧ (s2 = setWord s1 (plReg n 104) (BitVec.ofNat 32 (leNat rd))) ∧ (wr = BitVec.toNat (word s2 (plReg n 100))) ∧ ((wr + 2 ^ 32 - leNat rd) % 2 ^ 32 < plFld f 96 12 0) ∧ (xlateStore s2 (Src.endpoint 0) (dXlate x) (base + 64 + wr % plFld f 96 12 0 * (statRecord n f (bankExps s (dPort x) x.bank)).length) (statRecord n f (bankExps s (dPort x) x.bank)) = some s3) ∧ (xlateStore (setWord s3 (plReg n 100) (BitVec.ofNat 32 (wr + 1))) (Src.endpoint 0) (dXlate x) base (leBytes 4 (wr + 1)) = some s5) ∧ (flagNow s5 (Src.stroke n) (plFld f 108 15 0)) ∧ (g ≠ plFld f 108 15 0)) ∧
    (∃ (s : State) (s0 : State) (s1 : State) (n : Nat) (base : Nat) (x : Machine.Stream) (f : FrameRec) (rd : List Byte), (streamOf s n = some x) ∧ (statFrame x = some f) ∧ (heldInReset s Domain.stat = false) ∧ (base = plFld f 88 31 6 * 64 + plFld f 92 7 0 * 2 ^ 32) ∧ (s0 = setStream s n (some (dropFinished (updFrame x f.seq fun r => { r with statDone := true })))) ∧ (xlateRead s0 (Src.endpoint 0) (dXlate x) (base + 32) 4 = some (s1, rd)) ∧ (plFld f 96 12 0 ≤ (BitVec.toNat (word s (plReg n 100)) + 2 ^ 32 - leNat rd) % 2 ^ 32)) ∧
    (∃ (s : State) (n : Nat) (x : Machine.Stream), (streamOf s n = some x) ∧ (statFrame x = none)) :=
  ⟨⟨statState, statPlaced, statPlaced, statHeader, statStored, statCounted, 0, 0x4000, 0, statStroke, statDone0, [0, 0, 0, 0], by decide +kernel, by decide +kernel, by decide +kernel, by decide +kernel, by decide +kernel, by decide +kernel, by decide +kernel, by decide +kernel, by decide +kernel, by decide +kernel, by decide +kernel⟩,
   ⟨statState, statPlaced, statPlaced, statHeader, statStored, statCounted, 0, 0x4000, 0, statStroke, statDone0, [0, 0, 0, 0], by decide +kernel, by decide +kernel, by decide +kernel, by decide +kernel, by decide +kernel, by decide +kernel, by decide +kernel, by decide +kernel, by decide +kernel, by decide +kernel, by decide +kernel, ⟨by decide +kernel, by decide +kernel, rfl, by decide +kernel, by decide +kernel⟩⟩,
   ⟨statState, statPlaced, statPlaced, statHeader, statStored, statCounted, 0, 0x4000, 0, statStroke, statDone0, [0, 0, 0, 0], 1, by decide +kernel, by decide +kernel, by decide +kernel, by decide +kernel, by decide +kernel, by decide +kernel, by decide +kernel, by decide +kernel, by decide +kernel, by decide +kernel, by decide +kernel, ⟨by decide +kernel, by decide +kernel, rfl, by decide +kernel, by decide +kernel⟩, by decide +kernel⟩,
   ⟨{ statState with regs := (plReg 0 100, 1) :: statState.regs }, { statPlaced with regs := (plReg 0 100, 1) :: statPlaced.regs }, { statPlaced with regs := (plReg 0 100, 1) :: statPlaced.regs }, 0, 0x4000, statStroke, statDone0, [0, 0, 0, 0], by decide +kernel, by decide +kernel, by decide +kernel, by decide +kernel, by decide +kernel, by decide +kernel, by decide +kernel⟩,
   ⟨streaming stroke0, 0, stroke0, by decide +kernel, by decide +kernel⟩⟩

theorem witness_StepKeepsForm :
    (∃ (s : State) (t : State), (canonical s) ∧ (step s = Host.Outcome.next t)) :=
  ⟨{ mapped with pending := [.registerWrite (.mgmt 0) (gtReg 0 0x14) 5] }, nextOf (step { mapped with pending := [.registerWrite (.mgmt 0) (gtReg 0 0x14) 5] }), ⟨by decide +kernel, by decide +kernel, by decide +kernel⟩, rfl⟩

theorem witness_StepRunsFrontCommand :
    (∃ (s : State) (c : Instr) (rest : List Instr), (s.pending = c :: rest)) :=
  ⟨{ live with pending := [.slow (.tile 0), .domainReset (.tile 1)] }, .slow (.tile 0), [.domainReset (.tile 1)], by decide +kernel⟩

theorem witness_StripeDispatch :
    (∃ (s : State) (n : Nat) (x : Machine.Stream) (f : FrameRec), (streamOf s n = some x) ∧ (readyStripe x = some f) ∧ (carries x = true) ∧ (x.strings ≠ []) ∧ (frameRuns x f = false)) ∧
    (∃ (s : State) (n : Nat) (x : Machine.Stream) (f : FrameRec), (streamOf s n = some x) ∧ (readyStripe x = some f) ∧ (carries x = true) ∧ (x.strings ≠ []) ∧ (frameRuns x f = true) ∧ (ringMissing x f (rowsOf x x.nextStripe) = true)) ∧
    (∃ (s : State) (n : Nat) (x : Machine.Stream) (f : FrameRec) (g : Strg) (v : Variant), (streamOf s n = some x) ∧ (readyStripe x = some f) ∧ (carries x = true) ∧ (x.strings ≠ []) ∧ (frameRuns x f = true) ∧ (ringMissing x f (rowsOf x x.nextStripe) = false) ∧ (drainHolds x = false) ∧ (takingString x = some g) ∧ (stringVariant s x g = some v)) ∧
    (∃ (s : State) (n : Nat) (x : Machine.Stream) (f : FrameRec), (streamOf s n = some x) ∧ (readyStripe x = some f) ∧ (carries x = true) ∧ (x.strings ≠ []) ∧ (frameRuns x f = true) ∧ (ringMissing x f (rowsOf x x.nextStripe) = false) ∧ (drainHolds x = true ∨ takingString x = none)) :=
  ⟨⟨withStroke waitingStroke 0 live, 0, waitingStroke, frame0, by decide +kernel, by decide +kernel, by decide +kernel, by decide +kernel, by decide +kernel⟩,
   ⟨withStroke (readyStroke true) 0 live, 0, readyStroke true, { frame0 with admitted := true }, by decide +kernel, by decide +kernel, by decide +kernel, by decide +kernel, by decide +kernel, by decide +kernel⟩,
   ⟨withStroke (readyStroke false) 0 live, 0, readyStroke false, { frame0 with admitted := true }, string0, variant0, by decide +kernel, by decide +kernel, by decide +kernel, by decide +kernel, by decide +kernel, by decide +kernel, by decide +kernel, by decide +kernel, by decide +kernel⟩,
   ⟨withStroke { readyStroke false with drain := true, strings := [{ string0 with inFlight := [0] }] } 0 live, 0, { readyStroke false with drain := true, strings := [{ string0 with inFlight := [0] }] }, { frame0 with admitted := true }, by decide +kernel, by decide +kernel, by decide +kernel, by decide +kernel, by decide +kernel, by decide +kernel, by decide +kernel⟩⟩

theorem witness_StrokeBarrier :
    (∃ (s : State) (n : Nat) (x : Machine.Stream), (streamOf s n = some x) ∧ (x.phase = StrokePhase.stopping) ∧ ((x.frames.all fun f => f.recorded) = true) ∧ ((x.strings.all fun g => decide (g.inFlight = []) && decide (g.remap = []) && g.toVariant.isNone) = true) ∧ (x.replan = none) ∧ ((bankOf s (dPort x) x.bank).frame = none) ∧ ((writeRecord s n (endRecord n x stOK s.clk.now)).2 = true)) ∧
    (∃ (s : State) (n : Nat) (x : Machine.Stream), (streamOf s n = some x) ∧ (x.phase ≠ StrokePhase.stopping ∨ (x.frames.all fun f => f.recorded) = false ∨ (x.strings.any fun g => decide (g.inFlight ≠ [])) = true ∨ (bankOf s (dPort x) x.bank).frame ≠ none)) :=
  ⟨⟨{ mapped with streams := [(0, some { recording with phase := .stopping, frames := [] })] }, 0, { recording with phase := .stopping, frames := [] }, by decide +kernel, by decide +kernel, by decide +kernel, by decide +kernel, by decide +kernel, by decide +kernel, by decide +kernel⟩,
   ⟨recState, 0, recording, by decide +kernel, by decide +kernel⟩⟩

theorem witness_StrokeStartsAndAdmits :
    (∃ (s : State) (n : Nat) (x : Machine.Stream) (z : Machine.Stream), (streamOf s n = some x) ∧ (x.phase = StrokePhase.launching) ∧ (dLaunch x ≤ s.clk.now) ∧ (x.startReply = none) ∧ (cancelDue s x.ctx = false) ∧ (x.chans = []) ∧ (∀ g ∈ liveStrings x, ∀ k ∈ g.tiles, tileLost s k = false) ∧ (z = launchShape s x) ∧ (strokeReady s z = true) ∧ (planRuns s z = [])) ∧
    (∃ (s : State) (n : Nat) (x : Machine.Stream) (z : Machine.Stream), (streamOf s n = some x) ∧ (x.phase = StrokePhase.launching) ∧ (dLaunch x ≤ s.clk.now) ∧ (x.startReply = none) ∧ (cancelDue s x.ctx = false) ∧ (x.chans = []) ∧ (∀ g ∈ liveStrings x, ∀ k ∈ g.tiles, tileLost s k = false) ∧ (z = launchShape s x) ∧ (strokeReady s z = true) ∧ (planRuns s z ≠ []) ∧ ((strokeChans s).length < (planRuns s z).length)) ∧
    (∃ (s : State) (n : Nat) (x : Machine.Stream) (z : Machine.Stream), (streamOf s n = some x) ∧ (x.phase = StrokePhase.launching) ∧ (dLaunch x ≤ s.clk.now) ∧ (x.startReply = none) ∧ (cancelDue s x.ctx = false) ∧ (x.chans = []) ∧ (∀ g ∈ liveStrings x, ∀ k ∈ g.tiles, tileLost s k = false) ∧ (z = launchShape s x) ∧ (strokeReady s z = false)) ∧
    (∃ (s : State) (n : Nat) (x : Machine.Stream), (streamOf s n = some x) ∧ (x.phase ≠ StrokePhase.launching ∨ s.clk.now < dLaunch x ∨ x.startReply ≠ none ∨ cancelDue s x.ctx = true)) ∧
    (∃ (s : State) (n : Nat) (x : Machine.Stream) (f : FrameRec), (streamOf s n = some x) ∧ (readyStripe x = some f) ∧ (carries x = true) ∧ (dReal x = false) ∧ (x.nextStripe % stripesOf x = 0) ∧ (f.admitted = false) ∧ (↑(frameCost s x) ≤ available s x.ctx)) ∧
    (∃ (s : State) (n : Nat) (x : Machine.Stream) (f : FrameRec), (streamOf s n = some x) ∧ (readyStripe x = some f) ∧ (carries x = true) ∧ (dReal x = false) ∧ (x.nextStripe % stripesOf x = 0) ∧ (f.admitted = false) ∧ (available s x.ctx < ↑(frameCost s x)) ∧ (f.deferredAt = none)) ∧
    (∃ (s : State) (n : Nat) (x : Machine.Stream) (f : FrameRec), (streamOf s n = some x) ∧ (readyStripe x = some f) ∧ (carries x = true) ∧ (dReal x = false) ∧ (x.nextStripe % stripesOf x = 0) ∧ (f.admitted = false) ∧ (available s x.ctx < ↑(frameCost s x)) ∧ (f.deferredAt.isSome = true)) :=
  ⟨⟨streaming { stroke0 with phase := .launching }, 0, { stroke0 with phase := .launching }, _, by decide +kernel, by decide +kernel, by decide +kernel, by decide +kernel, by decide +kernel, by decide +kernel, by decide +kernel, rfl, by decide +kernel, by decide +kernel⟩,
   ⟨{ withStroke { stroke0 with phase := .launching, strings := [string0] } 0 live with host := { (withStroke { stroke0 with phase := .launching, strings := [string0] } 0 live).host with packages := [{ pack0 with content := { plan0 with dmas := [{ words := [], lines := [] }] } }] }, granules := tileGrants 0, chans := (List.range 128).map (fun c => (c, { st := .running })) }, 0, { stroke0 with phase := .launching, strings := [string0] }, _, by decide +kernel, by decide +kernel, by decide +kernel, by decide +kernel, by decide +kernel, by decide +kernel, by decide +kernel, rfl, by decide +kernel, by decide +kernel, by decide +kernel⟩,
   ⟨streaming { stroke0 with phase := .launching, strings := [string0] }, 0, { stroke0 with phase := .launching, strings := [string0] }, _, by decide +kernel, by decide +kernel, by decide +kernel, by decide +kernel, by decide +kernel, by decide +kernel, by decide +kernel, rfl, by decide +kernel⟩,
   ⟨streaming stroke0, 0, stroke0, by decide +kernel, by decide +kernel⟩,
   ⟨withStroke waitingStroke 100 live, 0, waitingStroke, frame0, by decide +kernel, by decide +kernel, by decide +kernel, by decide +kernel, by decide +kernel, by decide +kernel, by decide +kernel⟩,
   ⟨withStroke waitingStroke 99 live, 0, waitingStroke, frame0, by decide +kernel, by decide +kernel, by decide +kernel, by decide +kernel, by decide +kernel, by decide +kernel, by decide +kernel, by decide +kernel⟩,
   ⟨withStroke { waitingStroke with frames := [{ frame0 with deferredAt := some 0 }] } 99 live, 0, { waitingStroke with frames := [{ frame0 with deferredAt := some 0 }] }, { frame0 with deferredAt := some 0 }, by decide +kernel, by decide +kernel, by decide +kernel, by decide +kernel, by decide +kernel, by decide +kernel, by decide +kernel, by decide +kernel⟩⟩

theorem witness_TileControlRecords :
    (∃ (s : State) (n : Nat), (tileRuns s n = true) ∧ (tileRec s n = none)) ∧
    (∃ (s : State) (n : Nat) (ws : List Word), (tileRuns s n = true) ∧ (tileRec s n = some ws) ∧ (fld (ws.getD 0 0) 3 0 = 2)) ∧
    (∃ (s : State) (n : Nat) (ws : List Word) (f : LoopFrame) (rest : List LoopFrame), (tileRuns s n = true) ∧ (tileRec s n = some ws) ∧ (fld (ws.getD 0 0) 3 0 = 3) ∧ (List.dropWhile (fun f => decide (f.level ≠ fld (ws.getD 0 0) 5 4)) (tileOf s n).loops = f :: rest)) ∧
    (∃ (s : State) (n : Nat) (ws : List Word), (tileRuns s n = true) ∧ (tileRec s n = some ws) ∧ (fld (ws.getD 0 0) 3 0 = 3) ∧ (∀ f ∈ (tileOf s n).loops, f.level ≠ fld (ws.getD 0 0) 5 4)) ∧
    (∃ (s : State) (n : Nat) (ws : List Word), (tileRuns s n = true) ∧ (tileRec s n = some ws) ∧ (fld (ws.getD 0 0) 3 0 = 6)) ∧
    (∃ (s : State) (n : Nat) (ws : List Word), (tileRuns s n = true) ∧ (tileRec s n = some ws) ∧ (fld (ws.getD 0 0) 3 0 = 7)) ∧
    (∃ (s : State) (n : Nat) (ws : List Word), (tileRuns s n = true) ∧ (tileRec s n = some ws) ∧ (fld (ws.getD 0 0) 3 0 ≠ 2)) ∧
    (∃ (s : State) (n : Nat) (ws : List Word), (tileRuns s n = true) ∧ (tileRec s n = some ws) ∧ (fld (ws.getD 0 0) 3 0 ≠ 3)) ∧
    (∃ (s : State) (n : Nat) (ws : List Word), (tileRuns s n = true) ∧ (tileRec s n = some ws) ∧ (fld (ws.getD 0 0) 3 0 ≠ 6)) ∧
    (∃ (s : State) (n : Nat) (ws : List Word), (tileRuns s n = true) ∧ (tileRec s n = some ws) ∧ (fld (ws.getD 0 0) 3 0 ≠ 7)) :=
  ⟨⟨tileAt tile0 [0] live, 0, by decide +kernel, by decide +kernel⟩,
   ⟨tileAt tile0 [2] live, 0, [2], by decide +kernel, by decide +kernel, by decide +kernel⟩,
   ⟨tileAt { tile0 with loops := [loop0 0, loop0 1] } [0x13] live, 0, [0x13], loop0 1, [], by decide +kernel, by decide +kernel, by decide +kernel, by decide +kernel⟩,
   ⟨tileAt { tile0 with loops := [loop0 0] } [0x13] live, 0, [0x13], by decide +kernel, by decide +kernel, by decide +kernel, by decide +kernel⟩,
   ⟨tileAt tile0 [6] live, 0, [6, 0, 0, 0], by decide +kernel, by decide +kernel, by decide +kernel⟩,
   ⟨tileAt { tile0 with pc := 0 } [7] live, 0, [7], by decide +kernel, by decide +kernel, by decide +kernel⟩,
   ⟨tileAt tile0 [7] live, 0, [7], by decide +kernel, by decide +kernel, by decide +kernel⟩,
   ⟨tileAt tile0 [7] live, 0, [7], by decide +kernel, by decide +kernel, by decide +kernel⟩,
   ⟨tileAt tile0 [7] live, 0, [7], by decide +kernel, by decide +kernel, by decide +kernel⟩,
   ⟨tileAt tile0 [2] live, 0, [2], by decide +kernel, by decide +kernel, by decide +kernel⟩⟩

theorem witness_TileFailures :
    (∃ (s : State) (n : Nat) (ns : Nat), (planTime s n = some ns) ∧ (∀ (j : Nat), jobOfTile s n = some j → ∃ x, jobOf s j = some x ∧ n ∈ x.tiles) ∧ (engBusy (tileOf s n).st = true) ∧ (∀ w ∈ s.waits, w.who ≠ n) ∧ ((tileOf s n).lastRecord + 10 * ns ≤ s.clk.up)) ∧
    (∃ (s : State) (n : Nat) (ns : Nat), (planTime s n = some ns) ∧ (∀ (j : Nat), jobOfTile s n = some j → ∃ x, jobOf s j = some x ∧ n ∈ x.tiles) ∧ (engBusy (tileOf s n).st = false ∨ (∃ w ∈ s.waits, w.who = n) ∨ s.clk.up < (tileOf s n).lastRecord + 10 * ns)) ∧
    (∃ (s : State) (n : Nat) (i : Nat) (x : Machine.Stream) (g : Strg), (streamOf s n = some x) ∧ (x.phase = StrokePhase.running ∨ x.phase = StrokePhase.stopping) ∧ (x.replan = none) ∧ (List.filter (fun h => decide (h.index = i)) x.strings = [g]) ∧ (g.remap ≠ [] ∨ g.toVariant.isSome = true) ∧ (g.inFlight = []) ∧ (∀ k ∈ (nextString g).tiles, tileReady s k = true) ∧ (granted s x.ctx (List.flatMap tileGranules (nextString g).tiles) = true)) ∧
    (∃ (s : State) (n : Nat) (i : Nat) (x : Machine.Stream) (g : Strg), (streamOf s n = some x) ∧ (x.phase = StrokePhase.running ∨ x.phase = StrokePhase.stopping) ∧ (x.replan = none) ∧ (List.filter (fun h => decide (h.index = i)) x.strings = [g]) ∧ (g.remap ≠ [] ∨ g.toVariant.isSome = true) ∧ (g.inFlight = []) ∧ (∀ k ∈ (nextString g).tiles, tileReady s k = true) ∧ (granted s x.ctx (List.flatMap tileGranules (nextString g).tiles) = false)) ∧
    (∃ (s : State) (n : Nat) (i : Nat) (x : Machine.Stream) (g : Strg), (streamOf s n = some x) ∧ (x.phase = StrokePhase.running ∨ x.phase = StrokePhase.stopping) ∧ (x.replan = none) ∧ (List.filter (fun h => decide (h.index = i)) x.strings = [g]) ∧ (g.remap ≠ [] ∨ g.toVariant.isSome = true) ∧ (g.inFlight = []) ∧ (∃ k ∈ (nextString g).tiles, tileReady s k = false)) ∧
    (∃ (s : State) (n : Nat) (i : Nat) (x : Machine.Stream) (g : Strg), (streamOf s n = some x) ∧ (x.replan = none) ∧ (List.find? (fun h => decide (h.index = i)) x.strings = some g) ∧ (g.remap = [] ∧ g.toVariant = none ∨ g.inFlight ≠ [])) ∧
    (∃ (s : State) (n : Nat) (h : Nat) (v : Nat) (l : List (List Nat)) (x : Machine.Stream), (streamOf s n = some x) ∧ (x.phase = StrokePhase.running ∨ x.phase = StrokePhase.stopping) ∧ (x.replan = some (h, v, l)) ∧ (h = dH x) ∧ (∀ g ∈ x.strings, g.inFlight = [] ∧ g.parked = []) ∧ (∀ k ∈ l.flatten, tileReady s k = true) ∧ (granted s x.ctx (List.flatMap tileGranules l.flatten) = true)) :=
  ⟨⟨{ withStroke (readyStroke false) 0 live with tiles := [(0, tile0)], clk := { up := 20 }, regs := [(gtReg 0 0x10, 0)] }, 0, 2, by decide +kernel, by decide +kernel, by decide +kernel, by decide +kernel, by decide +kernel⟩,
   ⟨{ withStroke (readyStroke false) 0 live with tiles := [(0, tile0)], clk := { up := 19 }, regs := [(gtReg 0 0x10, 0)] }, 0, 2, by decide +kernel, by decide +kernel, by decide +kernel⟩,
   ⟨{ streaming { stroke0 with strings := [{ string0 with remap := [(0, 1)] }] } with granules := tileGrants 1 }, 0, 0, { stroke0 with strings := [{ string0 with remap := [(0, 1)] }] }, { string0 with remap := [(0, 1)] }, by decide +kernel, by decide +kernel, by decide +kernel, by decide +kernel, by decide +kernel, by decide +kernel, by decide +kernel, by decide +kernel⟩,
   ⟨streaming { stroke0 with strings := [{ string0 with remap := [(0, 1)] }] }, 0, 0, { stroke0 with strings := [{ string0 with remap := [(0, 1)] }] }, { string0 with remap := [(0, 1)] }, by decide +kernel, by decide +kernel, by decide +kernel, by decide +kernel, by decide +kernel, by decide +kernel, by decide +kernel, by decide +kernel⟩,
   ⟨{ streaming { stroke0 with strings := [{ string0 with remap := [(0, 1)] }] } with tiles := [(1, tile0)] }, 0, 0, { stroke0 with strings := [{ string0 with remap := [(0, 1)] }] }, { string0 with remap := [(0, 1)] }, by decide +kernel, by decide +kernel, by decide +kernel, by decide +kernel, by decide +kernel, by decide +kernel, by decide +kernel⟩,
   ⟨streaming { stroke0 with strings := [string0] }, 0, 0, { stroke0 with strings := [string0] }, string0, by decide +kernel, by decide +kernel, by decide +kernel, .inl ⟨rfl, rfl⟩⟩,
   ⟨{ streaming { stroke0 with replan := some (8, 0, [[1]]) } with granules := tileGrants 1 }, 0, 8, 0, [[1]], { stroke0 with replan := some (8, 0, [[1]]) }, by decide +kernel, by decide +kernel, by decide +kernel, by decide +kernel, by decide +kernel, by decide +kernel, by decide +kernel⟩⟩

theorem witness_TileFetches :
    (∃ (s : State) (s1 : State) (n : Nat) (st : Nat) (ecc : EccResult) (f : Fetch) (rest : List Fetch) (bs : List Byte), ((tileOf s n).fetch = f :: rest) ∧ (engBusy (tileOf s n).st = true) ∧ (fetchIssued f = true) ∧ (fetchRead n f ecc (fetchPieces f) (setTile s n ({ tileOf s n with fetch := rest })) = (s1, st, bs)) ∧ (st = stOK)) ∧
    (∃ (s : State) (s1 : State) (n : Nat) (st : Nat) (ecc : EccResult) (f : Fetch) (rest : List Fetch) (bs : List Byte), ((tileOf s n).fetch = f :: rest) ∧ (engBusy (tileOf s n).st = true) ∧ (fetchIssued f = true) ∧ (fetchRead n f ecc (fetchPieces f) (setTile s n ({ tileOf s n with fetch := rest })) = (s1, st, bs)) ∧ (st ≠ stOK) ∧ (engBusy (tileOf s1 n).st = true)) ∧
    (∃ (s : State) (n : Nat) (f : Fetch) (rest : List Fetch), ((tileOf s n).fetch = f :: rest) ∧ ((tileOf s n).st = EngState.stopping)) ∧
    (∃ (s : State) (n : Nat) (f : Fetch) (rest : List Fetch), ((tileOf s n).fetch = f :: rest) ∧ ((tileOf s n).st ≠ EngState.stopping) ∧ (fetchIssued f = false)) ∧
    (∃ (s : State) (n : Nat) (a : Nat) (f : Fetch) (rest : List Fetch), ((tileOf s n).fetch = f :: rest) ∧ (fetchAddr s n f 0 = some a) ∧ (engBusy (tileOf s n).st = true) ∧ (meets s (Src.tile n) a = Meets.reset)) ∧
    (∃ (s : State) (n : Nat) (a : Nat), (engBusy (tileOf s n).st = true) ∧ (meets s (Src.tile n) a = Meets.reset)) ∧
    (∃ (s : State) (n : Nat) (f : Fetch) (o : Nat), (List.find? (fun f => !fetchIssued f) (tileOf s n).fetch = some f) ∧ (engBusy (tileOf s n).st = true) ∧ (f.faulted = false) ∧ (fetchFault s n f f.issued (fetchBurst f) = some o)) ∧
    (∃ (s : State) (n : Nat) (resolved : Bool) (f : Fetch), (List.find? (fun f => !fetchIssued f) (tileOf s n).fetch = some f) ∧ (engBusy (tileOf s n).st = true) ∧ (f.faulted = true) ∧ (resolved = true) ∧ (fetchFault s n f f.issued (fetchBurst f) = none)) ∧
    (∃ (s : State) (n : Nat) (resolved : Bool) (f : Fetch), (List.find? (fun f => !fetchIssued f) (tileOf s n).fetch = some f) ∧ (engBusy (tileOf s n).st = true) ∧ (f.faulted = true) ∧ (resolved = false)) ∧
    (∃ (s : State) (n : Nat) (f : Fetch), (List.find? (fun f => !fetchIssued f) (tileOf s n).fetch = some f) ∧ (engBusy (tileOf s n).st = true) ∧ (f.faulted = false) ∧ (fetchFault s n f f.issued (fetchBurst f) = none)) :=
  ⟨⟨fetched, (fetchRead 0 { fetch64 with issued := 64 } .clean (fetchPieces { fetch64 with issued := 64 }) (setTile fetched 0 { tileOf fetched 0 with fetch := [] })).1, 0, stOK, .clean, { fetch64 with issued := 64 }, [], List.replicate 64 0, by decide +kernel, by decide +kernel, by decide +kernel, by decide +kernel, by decide +kernel⟩,
   ⟨{ fetched with regs := [] }, setTile { fetched with regs := [] } 0 { st := .running }, 0, stPAGE, .clean, { fetch64 with issued := 64 }, [], [], by decide +kernel, by decide +kernel, by decide +kernel, by decide +kernel, by decide +kernel, by decide +kernel⟩,
   ⟨{ fetched with tiles := [(0, { st := .stopping, fetch := [fetch64] })] }, 0, fetch64, [], by decide +kernel, by decide +kernel⟩,
   ⟨fetching, 0, fetch64, [], by decide +kernel, by decide +kernel, by decide +kernel⟩,
   ⟨{ fetched with resetting := [.ddr 0] }, 0, 0x2000, { fetch64 with issued := 64 }, [], by decide +kernel, by decide +kernel, by decide +kernel, by decide +kernel⟩,
   ⟨{ fetched with resetting := [.ddr 0] }, 0, 0x2000, by decide +kernel, by decide +kernel⟩,
   ⟨{ live with tiles := fetching.tiles }, 0, fetch64, 0, by decide +kernel, by decide +kernel, by decide +kernel, by decide +kernel⟩,
   ⟨{ fetching with tiles := [(0, { st := .running, fetch := [{ fetch64 with faulted := true }] })] }, 0, true, { fetch64 with faulted := true }, by decide +kernel, by decide +kernel, by decide +kernel, by decide +kernel, by decide +kernel⟩,
   ⟨{ fetching with tiles := [(0, { st := .running, fetch := [{ fetch64 with faulted := true }] })] }, 0, false, { fetch64 with faulted := true }, by decide +kernel, by decide +kernel, by decide +kernel, by decide +kernel⟩,
   ⟨fetching, 0, fetch64, by decide +kernel, by decide +kernel, by decide +kernel, by decide +kernel⟩⟩

theorem witness_TileLayer :
    (∃ (s : State) (n : Nat) (ws : List Word), (tileRuns s n = true) ∧ (tileRec s n = some ws) ∧ (fld (ws.getD 0 0) 3 0 = 1) ∧ (crcWords (List.take 31 (List.drop 1 ws)) ≠ lw (List.drop 1 ws) 31)) ∧
    (∃ (s : State) (n : Nat) (ecc : EccResult) (ws : List Word) (L : List Word) (ring : Fetch → Fetch), (tileRuns s n = true) ∧ (tileRec s n = some ws) ∧ (fld (ws.getD 0 0) 3 0 = 1) ∧ (crcWords (List.take 31 (List.drop 1 ws)) = lw (List.drop 1 ws) 31) ∧ (stripeLayer s n (steppedLayer (tileOf s n) (List.drop 1 ws)) = (L, ring)) ∧ (lEmpty L = true) ∧ (ecc = EccResult.clean)) ∧
    (∃ (s : State) (n : Nat) (ws : List Word) (L : List Word) (ring : Fetch → Fetch) (c : Nat), (tileRuns s n = true) ∧ (tileRec s n = some ws) ∧ (fld (ws.getD 0 0) 3 0 = 1) ∧ (crcWords (List.take 31 (List.drop 1 ws)) = lw (List.drop 1 ws) 31) ∧ (stripeLayer s n (steppedLayer (tileOf s n) (List.drop 1 ws)) = (L, ring)) ∧ (lEmpty L = false) ∧ (layerCause s n L = some c)) ∧
    (∃ (s : State) (n : Nat) (ecc : EccResult) (ws : List Word) (L : List Word) (ring : Fetch → Fetch), (tileRuns s n = true) ∧ (tileRec s n = some ws) ∧ (fld (ws.getD 0 0) 3 0 = 1) ∧ (crcWords (List.take 31 (List.drop 1 ws)) = lw (List.drop 1 ws) 31) ∧ (stripeLayer s n (steppedLayer (tileOf s n) (List.drop 1 ws)) = (L, ring)) ∧ (lEmpty L = false) ∧ (layerCause s n L = none) ∧ (ecc ≠ EccResult.uncorrectable)) ∧
    (∃ (s : State) (n : Nat) (ecc : EccResult) (ws : List Word) (L : List Word) (ring : Fetch → Fetch), (tileRuns s n = true) ∧ (tileRec s n = some ws) ∧ (fld (ws.getD 0 0) 3 0 = 1) ∧ (crcWords (List.take 31 (List.drop 1 ws)) = lw (List.drop 1 ws) 31) ∧ (stripeLayer s n (steppedLayer (tileOf s n) (List.drop 1 ws)) = (L, ring)) ∧ (lEmpty L = true ∨ layerCause s n L = none) ∧ (ecc = EccResult.uncorrectable)) :=
  ⟨⟨layerAt tile0 (1 :: List.replicate 32 1), 0, 1 :: List.replicate 32 1, by decide +kernel, by decide +kernel, by decide +kernel, by decide +kernel⟩,
   ⟨layerAt tile0 (layerRec []), 0, .clean, layerRec [], (stripped (layerAt tile0 (layerRec [])) (layerRec [])).1, (stripped (layerAt tile0 (layerRec [])) (layerRec [])).2, by decide +kernel, by decide +kernel, by decide +kernel, by decide +kernel, rfl, by decide +kernel, by decide +kernel⟩,
   ⟨layerAt { tile0 with fetch := [fetch64] } (layerRec ((0, 0x2000000) :: dims1)), 0, layerRec ((0, 0x2000000) :: dims1), (stripped (layerAt { tile0 with fetch := [fetch64] } (layerRec ((0, 0x2000000) :: dims1))) (layerRec ((0, 0x2000000) :: dims1))).1, (stripped (layerAt { tile0 with fetch := [fetch64] } (layerRec ((0, 0x2000000) :: dims1))) (layerRec ((0, 0x2000000) :: dims1))).2, 5, by decide +kernel, by decide +kernel, by decide +kernel, by decide +kernel, rfl, by decide +kernel, by decide +kernel⟩,
   ⟨layerAt tile0 (layerRec dims1), 0, .corrected, layerRec dims1, (stripped (layerAt tile0 (layerRec dims1)) (layerRec dims1)).1, (stripped (layerAt tile0 (layerRec dims1)) (layerRec dims1)).2, by decide +kernel, by decide +kernel, by decide +kernel, by decide +kernel, rfl, by decide +kernel, by decide +kernel, by decide +kernel⟩,
   ⟨layerAt tile0 (layerRec dims1), 0, .uncorrectable, layerRec dims1, (stripped (layerAt tile0 (layerRec dims1)) (layerRec dims1)).1, (stripped (layerAt tile0 (layerRec dims1)) (layerRec dims1)).2, by decide +kernel, by decide +kernel, by decide +kernel, by decide +kernel, rfl, by decide +kernel, by decide +kernel⟩⟩

theorem witness_TileStartStop :
    (∃ (s : State) (src : Src) (n : Nat), (meets s src (gtReg n 0) = Meets.here) ∧ (tileWriter s src n = true) ∧ ((tileOf s n).st = EngState.idle ∨ (tileOf s n).st = EngState.done)) ∧
    (∃ (s : State) (src : Src) (n : Nat), (meets s src (gtReg n 0) = Meets.here) ∧ (tileWriter s src n = true) ∧ ((tileOf s n).st ≠ EngState.idle) ∧ ((tileOf s n).st ≠ EngState.done)) ∧
    (∃ (s : State) (src : Src) (n : Nat), (meets s src (gtReg n 0) = Meets.here) ∧ (tileWriter s src n = true) ∧ (engBusy (tileOf s n).st = true)) ∧
    (∃ (s : State) (src : Src) (n : Nat), (meets s src (gtReg n 0) = Meets.here) ∧ (tileWriter s src n = true) ∧ (engBusy (tileOf s n).st = false)) ∧
    (∃ (s : State) (src : Src) (n : Nat), (meets s src (gtReg n 384) = Meets.here) ∧ (tileWriter s src n = true)) ∧
    (∃ (s : State) (src : Src) (n : Nat), (meets s src (gtReg n 0) = Meets.here) ∧ (tileWriter s src n = false)) ∧
    (∃ (s : State) (n : Nat), ((tileOf s n).st = EngState.running) ∧ ((tileOf s n).haltAt = true) ∧ ((tileOf s n).rotOut = []) ∧ ((tileOf s n).fetch = []) ∧ (∀ e ∈ s.leaving, e.slow ≠ n) ∧ (Domain.tile n ∉ s.resetting) ∧ (resetDue s n = false) ∧ (∀ (k : Nat) (j : Job), jobOf s k = some j → j.loading = true → n ∉ j.first)) ∧
    (∃ (s : State) (n : Nat), ((tileOf s n).st = EngState.running) ∧ ((tileOf s n).haltAt = true) ∧ ((tileOf s n).rotOut = []) ∧ ((tileOf s n).fetch = []) ∧ (∀ e ∈ s.leaving, e.slow ≠ n) ∧ (Domain.tile n ∈ s.resetting ∨ resetDue s n = true)) ∧
    (∃ (s : State) (n : Nat) (e : Leaving), ((tileOf s n).st = EngState.running) ∧ ((tileOf s n).haltAt = true) ∧ ((tileOf s n).rotOut = []) ∧ ((tileOf s n).fetch = []) ∧ (e ∈ s.leaving) ∧ (e.slow = n)) ∧
    (∃ (s : State) (n : Nat), ((tileOf s n).st = EngState.stopping) ∧ ((tileOf s n).code = stCANCELLED) ∧ (∀ (k : Nat) (j : Job), jobOf s k = some j → j.loading = true → n ∉ j.first)) ∧
    (∃ (s : State) (n : Nat), ((tileOf s n).st = EngState.stopping) ∧ ((tileOf s n).code ≠ stCANCELLED)) :=
  ⟨⟨live, .mgmt 0, 63, by decide +kernel, by decide +kernel, by decide +kernel⟩,
   ⟨tileAt tile0 [] live, .mgmt 0, 0, by decide +kernel, by decide +kernel, by decide +kernel, by decide +kernel⟩,
   ⟨tileAt tile0 [] live, .mgmt 0, 0, by decide +kernel, by decide +kernel, by decide +kernel⟩,
   ⟨live, .mgmt 0, 63, by decide +kernel, by decide +kernel, by decide +kernel⟩,
   ⟨live, .mgmt 0, 63, by decide +kernel, by decide +kernel⟩,
   ⟨tileAt tile0 [] live, .app 0, 0, by decide +kernel, by decide +kernel⟩,
   ⟨tileAt { tile0 with haltAt := true } [] live, 0, by decide +kernel, by decide +kernel, by decide +kernel, by decide +kernel, by decide +kernel, by decide +kernel, by decide +kernel, no_job rfl⟩,
   ⟨tileAt { tile0 with haltAt := true } [] { live with resetting := [.tile 0] }, 0, by decide +kernel, by decide +kernel, by decide +kernel, by decide +kernel, by decide +kernel, by decide +kernel⟩,
   ⟨tileAt { tile0 with haltAt := true } [] { live with leaving := [{ slow := 0, spare := 1, left := 0, wait := 0 }] }, 0, { slow := 0, spare := 1, left := 0, wait := 0 }, by decide +kernel, by decide +kernel, by decide +kernel, by decide +kernel, by decide +kernel, by decide +kernel⟩,
   ⟨tileAt { st := .stopping, code := stCANCELLED } [] live, 0, by decide +kernel, by decide +kernel, no_job rfl⟩,
   ⟨tileAt { st := .stopping, code := stTIMEOUT } [] live, 0, by decide +kernel, by decide +kernel⟩⟩

theorem witness_TileWaitSignal :
    (∃ (s : State) (n : Nat) (f : Nat) (ws : List Word) (s1 : State), (tileRuns s n = true) ∧ (tileRec s n = some ws) ∧ (fld (ws.getD 0 0) 3 0 = 4) ∧ (f = fld (ws.getD 0 0) 31 16) ∧ (leavingWait s n f = some s1)) ∧
    (∃ (s : State) (n : Nat) (f : Nat) (ws : List Word), (tileRuns s n = true) ∧ (tileRec s n = some ws) ∧ (fld (ws.getD 0 0) 3 0 = 4) ∧ (f = fld (ws.getD 0 0) 31 16) ∧ (leavingWait s n f = none) ∧ (flagAllowed s (some ((tileCtx s n).getD 64)) f = true) ∧ (condMet (bitOf (ws.getD 0 0) 4) (flagOf s f) (ws.getD 1 0) = true)) ∧
    (∃ (s : State) (n : Nat) (f : Nat) (ws : List Word), (tileRuns s n = true) ∧ (tileRec s n = some ws) ∧ (fld (ws.getD 0 0) 3 0 = 4) ∧ (f = fld (ws.getD 0 0) 31 16) ∧ (leavingWait s n f = none) ∧ ((flagAllowed s (some ((tileCtx s n).getD 64)) f && condMet (bitOf (ws.getD 0 0) 4) (flagOf s f) (ws.getD 1 0)) = false)) ∧
    (∃ (s : State) (n : Nat) (f : Nat) (ws : List Word), (tileRuns s n = true) ∧ (tileRec s n = some ws) ∧ (fld (ws.getD 0 0) 3 0 = 5) ∧ (f = fld (ws.getD 0 0) 31 16) ∧ ((tileOf s n).rotOut ≠ [])) ∧
    (∃ (s : State) (n : Nat) (f : Nat) (ws : List Word) (s1 : State), (tileRuns s n = true) ∧ (tileRec s n = some ws) ∧ (fld (ws.getD 0 0) 3 0 = 5) ∧ (f = fld (ws.getD 0 0) 31 16) ∧ ((tileOf s n).rotOut = []) ∧ (leavingSignal s n f = some s1)) ∧
    (∃ (s : State) (n : Nat) (f : Nat) (ws : List Word), (tileRuns s n = true) ∧ (tileRec s n = some ws) ∧ (fld (ws.getD 0 0) 3 0 = 5) ∧ (f = fld (ws.getD 0 0) 31 16) ∧ ((tileOf s n).rotOut = []) ∧ (leavingSignal s n f = none) ∧ (stringSignal s n f (BitVec.toNat (ws.getD 1 0)) = none)) ∧
    (∃ (s : State) (n : Nat) (f : Nat) (ws : List Word) (s1 : State), (tileRuns s n = true) ∧ (tileRec s n = some ws) ∧ (fld (ws.getD 0 0) 3 0 = 5) ∧ (f = fld (ws.getD 0 0) 31 16) ∧ ((tileOf s n).rotOut = []) ∧ (leavingSignal s n f = none) ∧ (stringSignal s n f (BitVec.toNat (ws.getD 1 0)) = some s1)) ∧
    (∃ (s : State) (n : Nat) (m : Nat) (r : Rotation), (rotSender s n = some (m, r)) ∧ (0 < (tileOf s n).ringCredits) ∧ (heldInReset s (Domain.tile n) = false) ∧ (heldInReset s (Domain.tile m) = false)) ∧
    (∃ (s : State) (n : Nat), (rotSender s n = none ∨ (tileOf s n).ringCredits = 0)) :=
  ⟨⟨leavingTile [4, 0], 0, 0, [4, 0], (leavingWait (leavingTile [4, 0]) 0 0).getD live, by decide +kernel, by decide +kernel, by decide +kernel, by decide +kernel, get_some (by decide +kernel)⟩,
   ⟨tileAt tile0 [0x3F0004, 0] live, 0, 0x3F, [0x3F0004, 0], by decide +kernel, by decide +kernel, by decide +kernel, by decide +kernel, by decide +kernel, by decide +kernel, by decide +kernel⟩,
   ⟨tileAt tile0 [0x3F0004, 1] live, 0, 0x3F, [0x3F0004, 1], by decide +kernel, by decide +kernel, by decide +kernel, by decide +kernel, by decide +kernel, by decide +kernel⟩,
   ⟨tileAt { tile0 with rotOut := [{ next := 0, src := 0, dst := 0, bytes := 64 }] } [5, 1] live, 0, 0, [5, 1], by decide +kernel, by decide +kernel, by decide +kernel, by decide +kernel, by decide +kernel⟩,
   ⟨leavingTile [5, 1], 0, 0, [5, 1], (leavingSignal (leavingTile [5, 1]) 0 0).getD live, by decide +kernel, by decide +kernel, by decide +kernel, by decide +kernel, by decide +kernel, by decide +kernel⟩,
   ⟨takingTile [0x20005, 1], 0, 2, [0x20005, 1], by decide +kernel, by decide +kernel, by decide +kernel, by decide +kernel, by decide +kernel, by decide +kernel, by decide +kernel⟩,
   ⟨tileAt tile0 [5, 1] live, 0, 0, [5, 1], tileAt tile0 [5, 1] live, by decide +kernel, by decide +kernel, by decide +kernel, by decide +kernel, by decide +kernel, by decide +kernel, by decide +kernel⟩,
   ⟨{ live with regs := [(gtReg 0 0x10, 0), (gtReg 1 0x10, 0x10000)], tiles := [(0, { rotOut := [{ next := 1, src := 0, dst := 0, bytes := 64 }] }), (1, { ringCredits := 1 })] }, 1, 0, { next := 1, src := 0, dst := 0, bytes := 64 }, by decide +kernel, by decide +kernel, by decide +kernel, by decide +kernel⟩,
   ⟨live, 0, by decide +kernel⟩⟩

theorem witness_TriggersAndPhy :
    (∃ (s : State) (pin : Nat), (pin < 16) ∧ (wfld s (intakeBase pin + 512) 1 0 = 3) ∧ (heldInReset s (Domain.port pin) = false)) ∧
    (∃ (s : State) (port : Nat), (portOpen s port = true)) ∧
    (∃ (s : State) (port : Nat), (portOpen s port = true) ∧ (wbit s (intakeBase port + 8) 4 = true)) :=
  ⟨⟨{ live with regs := [(intakeBase 15 + 512, 3)] }, 15, by decide +kernel, by decide +kernel, by decide +kernel⟩,
   ⟨intake {} 0, 0, by decide +kernel⟩,
   ⟨{ live with regs := [(intakeBase 0, 1), (intakeBase 0 + 8, 0x11)] }, 0, by decide +kernel, by decide +kernel⟩⟩

theorem witness_UpdatesAndFlash :
    (∃ (s : State), (s.boot.phase = UpdPhase.staged) ∧ (s.boot.activateAt ≤ s.clk.now) ∧ (heldInReset s Domain.mgmt = false) ∧ (apgilPaused s = false)) ∧
    (∃ (s : State), (s.boot.phase ≠ UpdPhase.staged ∨ s.clk.now < s.boot.activateAt ∨ heldInReset s Domain.mgmt = true ∨ apgilPaused s = true)) ∧
    (∃ (s : State), (s.boot.phase = UpdPhase.handover) ∧ (heldInReset s Domain.mgmt = false)) ∧
    (∃ (s : State), (s.boot.phase ≠ UpdPhase.handover ∨ heldInReset s Domain.mgmt = true)) ∧
    (∃ (s : State) (b : HandOver), (s.boot.phase = UpdPhase.handover ∨ s.boot.phase = UpdPhase.probation) ∧ (heldInReset s Domain.mgmt = false) ∧ (s.boot.handOver = some b)) ∧
    (∃ (s : State), (s.boot.phase ≠ UpdPhase.handover ∧ s.boot.phase ≠ UpdPhase.probation ∨ heldInReset s Domain.mgmt = true ∨ s.boot.handOver = none)) ∧
    (∃ (s : State) (i : FwImage), (s.boot.phase = UpdPhase.probation) ∧ (s.boot.probationEnd ≤ s.clk.up) ∧ (heldInReset s Domain.mgmt = false) ∧ (s.boot.image = some i)) ∧
    (∃ (s : State), (s.boot.phase ≠ UpdPhase.probation ∨ s.clk.up < s.boot.probationEnd ∨ heldInReset s Domain.mgmt = true)) ∧
    (∃ (s : State) (i : FwImage), (s.boot.phase = UpdPhase.rewrite) ∧ (rewriteBusy s.flash = false) ∧ (heldInReset s Domain.mgmt = false) ∧ (apgilPaused s = false) ∧ (s.boot.image = some i)) ∧
    (∃ (s : State), (s.boot.phase ≠ UpdPhase.rewrite ∨ rewriteBusy s.flash = true ∨ heldInReset s Domain.mgmt = true ∨ apgilPaused s = true)) ∧
    (∃ (s : State) (n : Nat) (u : Nat), (n < 2) ∧ ((tget { } s.boot.mgmt n).running = true) ∧ ((tget { } s.boot.mgmt n).restarting = false) ∧ (heldInReset s Domain.mgmt = false) ∧ (s.boot.st = DevState.bringup ∨ s.boot.st = DevState.ready) ∧ (s.boot.phase ≠ UpdPhase.handover) ∧ ((tget { } s.boot.mgmt (1 - n)).firedAt = some u) ∧ (s.clk.up ≤ u + 1000000000) ∧ (s.power.tripped = false)) ∧
    (∃ (s : State) (n : Nat), (n < 2) ∧ ((tget { } s.boot.mgmt n).running = true) ∧ ((tget { } s.boot.mgmt n).restarting = false) ∧ (heldInReset s Domain.mgmt = false) ∧ (s.boot.st = DevState.bringup ∨ s.boot.st = DevState.ready) ∧ (s.boot.phase ≠ UpdPhase.handover) ∧ (∀ (u : Nat), (tget { } s.boot.mgmt (1 - n)).firedAt = some u → u + 1000000000 < s.clk.up) ∧ (s.boot.phase ≠ UpdPhase.probation)) ∧
    (∃ (s : State) (n : Nat) (b : HandOver), (n < 2) ∧ ((tget { } s.boot.mgmt n).running = true) ∧ ((tget { } s.boot.mgmt n).restarting = false) ∧ (heldInReset s Domain.mgmt = false) ∧ (s.boot.st = DevState.bringup ∨ s.boot.st = DevState.ready) ∧ (s.boot.phase ≠ UpdPhase.handover) ∧ (∀ (u : Nat), (tget { } s.boot.mgmt (1 - n)).firedAt = some u → u + 1000000000 < s.clk.up) ∧ (s.boot.phase = UpdPhase.probation) ∧ (s.boot.handOver = some b)) ∧
    (∃ (s : State) (n : Nat), (2 ≤ n ∨ (tget { } s.boot.mgmt n).running = false ∨ (tget { } s.boot.mgmt n).restarting = true ∨ heldInReset s Domain.mgmt = true ∨ s.boot.st ≠ DevState.bringup ∧ s.boot.st ≠ DevState.ready ∨ s.boot.phase = UpdPhase.handover)) ∧
    (∃ (s : State) (n : Nat), ((tget { } s.boot.mgmt n).restarting = true) ∧ (s.boot.phase ≠ UpdPhase.handover) ∧ (heldInReset s Domain.mgmt = false)) ∧
    (∃ (s : State) (n : Nat), ((tget { } s.boot.mgmt n).restarting = false ∨ s.boot.phase = UpdPhase.handover ∨ heldInReset s Domain.mgmt = true)) ∧
    (∃ (s : State), (heldInReset s Domain.mgmt = true ∨ apgilPaused s = true ∨ txBusy s.flash = true)) ∧
    (∃ (s : State), (heldInReset s Domain.mgmt = false) ∧ (apgilPaused s = false) ∧ (txBusy s.flash = false) ∧ (s.flash.step = 0) ∧ (nextTx s = none)) ∧
    (∃ (s : State) (x : FlashTx) (rest : List FlashTx), (heldInReset s Domain.mgmt = false) ∧ (apgilPaused s = false) ∧ (txBusy s.flash = false) ∧ (s.flash.step = 0) ∧ (nextTx s = some (x, rest))) ∧
    (∃ (s : State) (x : FlashTx) (rest : List FlashTx), (heldInReset s Domain.mgmt = false) ∧ (apgilPaused s = false) ∧ (txBusy s.flash = false) ∧ (s.flash.step = 1) ∧ (s.flash.waiting = x :: rest)) ∧
    (∃ (s : State) (x : FlashTx) (rest : List FlashTx), (heldInReset s Domain.mgmt = false) ∧ (apgilPaused s = false) ∧ (txBusy s.flash = false) ∧ (s.flash.step = 2) ∧ (s.flash.waiting = x :: rest)) ∧
    (∃ (s : State) (x : FlashTx) (rest : List FlashTx), (heldInReset s Domain.mgmt = false) ∧ (apgilPaused s = false) ∧ (txBusy s.flash = false) ∧ (3 ≤ s.flash.step) ∧ (s.flash.waiting = x :: rest)) ∧
    (∃ (s : State) (k : Nat) (l : List FlashRec), (l = oldestBlock 65536 (ringRecs s.flash k)) ∧ (4 ≤ k ∨ heldInReset s Domain.mgmt = true ∨ apgilPaused s = true ∨ l = [] ∨ k ∈ s.flash.freeing ∧ (s.flash.waiting ≠ [] ∨ txBusy s.flash = true ∨ ∃ r ∈ l, r.typ = 240 ∧ r.done = false))) ∧
    (∃ (s : State) (k : Nat) (l : List FlashRec), (l = oldestBlock 65536 (ringRecs s.flash k)) ∧ (k < 4) ∧ (heldInReset s Domain.mgmt = false) ∧ (apgilPaused s = false) ∧ (l ≠ []) ∧ (k ∉ s.flash.freeing)) ∧
    (∃ (s : State) (k : Nat) (l : List FlashRec), (l = oldestBlock 65536 (ringRecs s.flash k)) ∧ (k < 4) ∧ (heldInReset s Domain.mgmt = false) ∧ (apgilPaused s = false) ∧ (l ≠ []) ∧ (k ∈ s.flash.freeing) ∧ (s.flash.waiting = []) ∧ (txBusy s.flash = false) ∧ (∀ r ∈ l, r.typ = 240 → r.done = true)) :=
  ⟨⟨updating .staged {}, by decide +kernel, by decide +kernel, by decide +kernel, by decide +kernel⟩,
   ⟨{ updating .staged {} with boot := { (updating .staged {}).boot with activateAt := 1 } }, by decide +kernel⟩,
   ⟨updating .handover {}, by decide +kernel, by decide +kernel⟩,
   ⟨live, by decide +kernel⟩,
   ⟨updating .probation {}, { host := {}, streams := [], groups := [] }, by decide +kernel, by decide +kernel, by decide +kernel⟩,
   ⟨live, by decide +kernel⟩,
   ⟨updating .probation {}, image0, by decide +kernel, by decide +kernel, by decide +kernel, by decide +kernel⟩,
   ⟨live, by decide +kernel⟩,
   ⟨updating .rewrite {}, image0, by decide +kernel, by decide +kernel, by decide +kernel, by decide +kernel, by decide +kernel⟩,
   ⟨updating .rewrite { opsMain := [{ smi := false, erase := true, block := 255 }] }, by decide +kernel⟩,
   ⟨{ live with boot := { live.boot with mgmt := [(0, { running := true, firedAt := some 0 }), (1, { running := true })] }, clk := { up := 1000000000 } }, 1, 0, by decide +kernel, by decide +kernel, by decide +kernel, by decide +kernel, by decide +kernel, by decide +kernel, by decide +kernel, by decide +kernel, by decide +kernel⟩,
   ⟨live, 1, by decide +kernel, by decide +kernel, by decide +kernel, by decide +kernel, by decide +kernel, by decide +kernel, (fun u h => nomatch (show (none : Option Nat) = some u from h)), by decide +kernel⟩,
   ⟨updating .probation {}, 1, { host := {}, streams := [], groups := [] }, by decide +kernel, by decide +kernel, by decide +kernel, by decide +kernel, by decide +kernel, by decide +kernel, (fun u h => nomatch (show (none : Option Nat) = some u from h)), by decide +kernel, by decide +kernel⟩,
   ⟨updating .handover {}, 0, by decide +kernel⟩,
   ⟨{ live with boot := { live.boot with mgmt := [(1, { running := true, restarting := true })] } }, 1, by decide +kernel, by decide +kernel, by decide +kernel⟩,
   ⟨live, 1, by decide +kernel⟩,
   ⟨updating .none { running := some { smi := false, erase := false, block := 416 } }, by decide +kernel⟩,
   ⟨live, by decide +kernel, by decide +kernel, by decide +kernel, by decide +kernel, by decide +kernel⟩,
   ⟨updating .none { waiting := [tx0] }, tx0, [], by decide +kernel, by decide +kernel, by decide +kernel, by decide +kernel, by decide +kernel⟩,
   ⟨updating .none { waiting := [tx0], step := 1 }, tx0, [], by decide +kernel, by decide +kernel, by decide +kernel, by decide +kernel, by decide +kernel⟩,
   ⟨updating .none { waiting := [tx0], step := 2 }, tx0, [], by decide +kernel, by decide +kernel, by decide +kernel, by decide +kernel, by decide +kernel⟩,
   ⟨updating .none { waiting := [tx0], step := 3 }, tx0, [], by decide +kernel, by decide +kernel, by decide +kernel, by decide +kernel, by decide +kernel⟩,
   ⟨live, 4, _, rfl, by decide +kernel⟩,
   ⟨updating .none { journal := [rec0] }, 3, _, rfl, by decide +kernel, by decide +kernel, by decide +kernel, by decide +kernel, by decide +kernel⟩,
   ⟨updating .none { journal := [rec0], freeing := [3] }, 3, _, rfl, by decide +kernel, by decide +kernel, by decide +kernel, by decide +kernel, by decide +kernel, by decide +kernel, by decide +kernel, by decide +kernel⟩⟩

theorem witness_WorkCommands :
    (∃ (s : State) (r : AcpReq) (x : Session) (q : Transfer) (w : Transfer), (asks s r) ∧ (sessionOf s r.sess = some x) ∧ (chunksGood r = true) ∧ (transferOf x r.typ r.ctx = some q) ∧ (w = addChunks q (tlvAll r 32800) 8 8 s.clk.up) ∧ (∀ (n : Nat), w.length = some n → n ≤ 2 ^ 32) ∧ (transferDone w = false)) ∧
    (∃ (s : State) (r : AcpReq) (x : Session) (q : Transfer) (w : Transfer) (b : List Byte) (c : PlanContent) (e : Nat × Nat × Nat), (asks s r) ∧ (sessionOf s r.sess = some x) ∧ (chunksGood r = true) ∧ (transferOf x r.typ r.ctx = some q) ∧ (w = addChunks q (tlvAll r 32800) 8 8 s.clk.up) ∧ (∀ (n : Nat), w.length = some n → n ≤ 2 ^ 32) ∧ (transferDone w = true) ∧ (b = List.take (w.length.getD 0) (assembled w.chunks)) ∧ (r.plan = some c) ∧ (leAt b 4 1 = 4) ∧ (chkLoad s b c = some e)) ∧
    (∃ (s : State) (r : AcpReq) (x : Session) (q : Transfer) (w : Transfer) (b : List Byte) (c : PlanContent), (asks s r) ∧ (sessionOf s r.sess = some x) ∧ (chunksGood r = true) ∧ (transferOf x r.typ r.ctx = some q) ∧ (w = addChunks q (tlvAll r 32800) 8 8 s.clk.up) ∧ (∀ (n : Nat), w.length = some n → n ≤ 2 ^ 32) ∧ (transferDone w = true) ∧ (b = List.take (w.length.getD 0) (assembled w.chunks)) ∧ (r.plan = some c) ∧ (leAt b 4 1 = 4) ∧ (chkLoad s b c = none) ∧ (c.inlet = true) ∧ (inletTaken s r.ctx = true)) ∧
    (∃ (s : State) (r : AcpReq) (x : Session) (q : Transfer) (w : Transfer) (b : List Byte) (c : PlanContent), (asks s r) ∧ (sessionOf s r.sess = some x) ∧ (chunksGood r = true) ∧ (transferOf x r.typ r.ctx = some q) ∧ (w = addChunks q (tlvAll r 32800) 8 8 s.clk.up) ∧ (∀ (n : Nat), w.length = some n → n ≤ 2 ^ 32) ∧ (transferDone w = true) ∧ (b = List.take (w.length.getD 0) (assembled w.chunks)) ∧ (r.plan = some c) ∧ (leAt b 4 1 = 4) ∧ (chkLoad s b c = none) ∧ (c.inlet = true → inletTaken s r.ctx = false)) ∧
    (∃ (s : State) (r : AcpReq) (i : Nat), (asks s r) ∧ (objectOf r = some (3, i)) ∧ (objectStatus s r 3 i = none) ∧ (planUsed s i = true)) ∧
    (∃ (s : State) (r : AcpReq) (i : Nat), (asks s r) ∧ (objectOf r = some (3, i)) ∧ (objectStatus s r 3 i = none) ∧ (planUsed s i = false)) ∧
    (∃ (s : State) (s0 : State) (r : AcpReq) (f : SensorProfile) (v : List Byte) (e : Nat × Nat × Nat), (asks s r) ∧ (s0 = beginReq s r) ∧ (r.profile = some f) ∧ (v = (tlv r 32816).getD []) ∧ (chkStream s0 r v (some f) = some e)) ∧
    (∃ (s : State) (s0 : State) (r : AcpReq) (f : SensorProfile) (v : List Byte) (e : Nat × Nat × Nat) (p : Option Package) (fit : Fit), (asks s r) ∧ (s0 = beginReq s r) ∧ (r.profile = some f) ∧ (v = (tlv r 32816).getD []) ∧ (chkStream s0 r v (some f) = none) ∧ (chkStreamPlan s0 r.ctx v f = (some e, p, fit))) ∧
    (∃ (s : State) (s0 : State) (r : AcpReq) (f : SensorProfile) (v : List Byte) (p : Option Package) (fit : Fit) (n : Nat) (b : Nat) (s2 : State) (x : Machine.Stream), (asks s r) ∧ (s0 = beginReq s r) ∧ (r.profile = some f) ∧ (v = (tlv r 32816).getD []) ∧ (chkStream s0 r v (some f) = none) ∧ (chkStreamPlan s0 r.ctx v f = (none, p, fit)) ∧ (importTlvs r = []) ∧ (exportTlvs r = []) ∧ (nextStream s0 = some n) ∧ (freeBank s0 (leAt v 6 1) = some b) ∧ (x = withRing s0 (withFit { r with desc := newDesc r.ctx n (s.host.strokeIds + 1) (stageOf s0 (leAt v 7 1)) f v, profile := f, bank := b, rate := leAt v 8 4, options := 0, network := leAt v 4 2 } p fit)) ∧ (pipeAll (streamRegs { s0 with host := { s0.host with strokeIds := s0.host.strokeIds + 1 } } n x v) n (tlvAll r 32818) = (s2, none)) ∧ (plBad (plShadow s2 n) = false) ∧ (clBad (clShadow s2 n) = false) ∧ ((mapRing s2 x).isSome = true)) ∧
    (∃ (s : State) (s0 : State) (r : AcpReq) (n : Nat) (x : Machine.Stream), (asks s r) ∧ (s0 = beginReq s r) ∧ (objectOf r = some (1, n)) ∧ (objectStatus s r 1 n = none) ∧ (streamOf s n = some x) ∧ (carries x = true)) ∧
    (∃ (s : State) (s0 : State) (r : AcpReq) (n : Nat) (x : Machine.Stream), (asks s r) ∧ (s0 = beginReq s r) ∧ (objectOf r = some (1, n)) ∧ (objectStatus s r 1 n = none) ∧ (streamOf s n = some x) ∧ (x.phase = StrokePhase.ended) ∧ (x.cut = false)) ∧
    (∃ (s : State) (s0 : State) (r : AcpReq) (n : Nat) (x : Machine.Stream), (asks s r) ∧ (s0 = beginReq s r) ∧ (objectOf r = some (1, n)) ∧ (objectStatus s r 1 n = none) ∧ (streamOf s n = some x) ∧ (x.phase = StrokePhase.ended) ∧ (x.cut = true)) ∧
    (∃ (s : State) (s0 : State) (r : AcpReq) (n : Nat) (x : Machine.Stream), (asks s r) ∧ (s0 = beginReq s r) ∧ (objectOf r = some (1, n)) ∧ (objectStatus s r 1 n = none) ∧ (streamOf s n = some x) ∧ (x.phase = StrokePhase.created)) ∧
    (∃ (s : State) (s0 : State) (r : AcpReq) (n : Nat) (x : Machine.Stream), (asks s r) ∧ (s0 = beginReq s r) ∧ (objectOf r = some (1, n)) ∧ (objectStatus s r 1 n = none) ∧ (streamOf s n = some x) ∧ (carries x = false)) ∧
    (∃ (s : State) (s0 : State) (r : AcpReq) (n : Nat) (x : Machine.Stream), (asks s r) ∧ (s0 = beginReq s r) ∧ (objectOf r = some (1, n)) ∧ (objectStatus s r 1 n = none) ∧ (streamOf s n = some x) ∧ (tlv r 32820 = none) ∧ (x.phase = StrokePhase.ended ∨ x.phase = StrokePhase.stopping)) ∧
    (∃ (s : State) (s0 : State) (r : AcpReq) (n : Nat) (x : Machine.Stream) (s1 : State), (asks s r) ∧ (s0 = beginReq s r) ∧ (objectOf r = some (1, n)) ∧ (objectStatus s r 1 n = none) ∧ (streamOf s n = some x) ∧ (tlv r 32820 = none) ∧ (x.phase ≠ StrokePhase.ended) ∧ (x.phase ≠ StrokePhase.stopping) ∧ (pipeAll s0 n (tlvAll r 32818) = (s1, none))) ∧
    (∃ (s : State) (s0 : State) (r : AcpReq) (n : Nat) (x : Machine.Stream) (v : List Byte), (asks s r) ∧ (s0 = beginReq s r) ∧ (objectOf r = some (1, n)) ∧ (objectStatus s r 1 n = none) ∧ (streamOf s n = some x) ∧ (tlv r 32820 = some v) ∧ (v.length = 6 + 6 * x.profile.exposures) ∧ (tlvAll r 32818 = []) ∧ (x.phase ≠ StrokePhase.ended) ∧ (x.phase ≠ StrokePhase.stopping)) ∧
    (∃ (s : State) (s0 : State) (r : AcpReq) (n : Nat) (x : Machine.Stream) (e : Nat × Nat × Nat), (asks s r) ∧ (s0 = beginReq s r) ∧ (objectOf r = some (1, n)) ∧ (objectStatus s r 1 n = none) ∧ (streamOf s n = some x) ∧ (tlv r 32819 = none) ∧ (carries x = false) ∧ (chkLaunch s n x = some e)) ∧
    (∃ (s : State) (s0 : State) (r : AcpReq) (n : Nat) (x : Machine.Stream) (s1 : State), (asks s r) ∧ (s0 = beginReq s r) ∧ (objectOf r = some (1, n)) ∧ (objectStatus s r 1 n = none) ∧ (streamOf s n = some x) ∧ (tlv r 32819 = none) ∧ (carries x = false) ∧ (chkLaunch s n x = none) ∧ (dReal x = false) ∧ (dWidth x ≠ 0) ∧ (dHeight x ≠ 0) ∧ (mapAll s0 x.ctx (dXlate x) (streamBuffers s0 n x) = some s1)) ∧
    (∃ (s : State) (r : AcpReq), (asks s r) ∧ (objectOf r = none)) ∧
    (∃ (s : State) (r : AcpReq) (n : Nat) (j : Job), (asks s r) ∧ (objectOf r = some (2, n)) ∧ (objectStatus s r 2 n = none) ∧ (jobOf s n = some j) ∧ (j.st = JobState.held)) ∧
    (∃ (s : State) (r : AcpReq) (v : List Byte) (o : List Byte) (e : Nat × Nat × Nat), (asks s r) ∧ (∀ (j : Nat) (y : Job), jobOf s j = some y → y.req ≠ r) ∧ (v = (tlv r 32822).getD []) ∧ (o = (tlv r 32819).getD (List.replicate 12 0)) ∧ (chkJob s r v o = some e)) ∧
    (∃ (s : State) (s0 : State) (r : AcpReq) (v : List Byte) (p : Package) (net : Network) (i : Nat), (asks s r) ∧ (s0 = beginReq s r) ∧ (∀ (j : Nat) (y : Job), jobOf s j = some y → y.req ≠ r) ∧ (v = (tlv r 32822).getD []) ∧ (chkJob s0 r v ((tlv r 32819).getD (List.replicate 12 0)) = none) ∧ (importTlvs r = []) ∧ (exportTlvs r = []) ∧ (packageOf s (jobTlv v).1 = some p) ∧ (List.find? (fun n => decide (n.index = (jobTlv v).2.1)) p.content.networks = some net) ∧ (findFrom (fun i => (jobOf s (i % 65536)).isNone) 65536 s.host.nextJob = some i) ∧ ((jobTlv v).2.2.1.getD 0 0 ≤ net.maxW) ∧ ((jobTlv v).2.2.1.getD 1 0 ≤ net.maxH) ∧ ((jobTlv v).2.2.1.getD 2 0 ≤ net.maxN) ∧ ((jobTlv v).2.2.1.getD 3 0 ≤ net.maxT) ∧ (0 ∈ (jobTlv v).2.2.1)) ∧
    (∃ (s : State) (s0 : State) (s1 : State) (s3 : State) (r : AcpReq) (v : List Byte) (p : Package) (net : Network) (i : Nat) (ch : Nat × Nat), (asks s r) ∧ (s0 = beginReq s r) ∧ (∀ (j : Nat) (y : Job), jobOf s j = some y → y.req ≠ r) ∧ (v = (tlv r 32822).getD []) ∧ (chkJob s0 r v ((tlv r 32819).getD (List.replicate 12 0)) = none) ∧ (importTlvs r = []) ∧ (exportTlvs r = []) ∧ (packageOf s (jobTlv v).1 = some p) ∧ (List.find? (fun n => decide (n.index = (jobTlv v).2.1)) p.content.networks = some net) ∧ (findFrom (fun i => (jobOf s (i % 65536)).isNone) 65536 s.host.nextJob = some i) ∧ ((jobTlv v).2.2.1.getD 0 0 ≤ net.maxW) ∧ ((jobTlv v).2.2.1.getD 1 0 ≤ net.maxH) ∧ ((jobTlv v).2.2.1.getD 2 0 ≤ net.maxN) ∧ ((jobTlv v).2.2.1.getD 3 0 ≤ net.maxT) ∧ (0 ∉ (jobTlv v).2.2.1) ∧ (chkMinTiles s0 p = none) ∧ (jobChoice p.content (List.range p.content.variants.length) s.retire.inService.length (jobTlv v).2.2.1 (jobTlv v).2.2.2.1 = some ch) ∧ (mapAll s0 r.ctx r.ctx (jobTlv v).2.2.2.2 = some s1) ∧ (chkInst s1 r.ctx r.ctx p.content ch.1 ch.2 none (jobTlv v).2.2.1 = none) ∧ (neverFits s1 r.ctx ch.1 p (jobTlv v).2.2.1 = false) ∧ (s3 = { s1 with host := { s1.host with nextJob := i % 65536 + 1 } }) ∧ (othersHeld s3 r.ctx (i % 65536) = true ∨ jobAdmit s3 r.ctx ch.1 p (jobTlv v).2.2.1 (jobTlv v).2.2.2.1 = none)) ∧
    (∃ (s : State) (s0 : State) (s1 : State) (s3 : State) (r : AcpReq) (v : List Byte) (p : Package) (net : Network) (i : Nat) (ch : Nat × Nat) (fit : JobFit), (asks s r) ∧ (s0 = beginReq s r) ∧ (∀ (j : Nat) (y : Job), jobOf s j = some y → y.req ≠ r) ∧ (v = (tlv r 32822).getD []) ∧ (chkJob s0 r v ((tlv r 32819).getD (List.replicate 12 0)) = none) ∧ (importTlvs r = []) ∧ (exportTlvs r = []) ∧ (packageOf s (jobTlv v).1 = some p) ∧ (List.find? (fun n => decide (n.index = (jobTlv v).2.1)) p.content.networks = some net) ∧ (findFrom (fun i => (jobOf s (i % 65536)).isNone) 65536 s.host.nextJob = some i) ∧ ((jobTlv v).2.2.1.getD 0 0 ≤ net.maxW) ∧ ((jobTlv v).2.2.1.getD 1 0 ≤ net.maxH) ∧ ((jobTlv v).2.2.1.getD 2 0 ≤ net.maxN) ∧ ((jobTlv v).2.2.1.getD 3 0 ≤ net.maxT) ∧ (0 ∉ (jobTlv v).2.2.1) ∧ (chkMinTiles s0 p = none) ∧ (jobChoice p.content (List.range p.content.variants.length) s.retire.inService.length (jobTlv v).2.2.1 (jobTlv v).2.2.2.1 = some ch) ∧ (mapAll s0 r.ctx r.ctx (jobTlv v).2.2.2.2 = some s1) ∧ (chkInst s1 r.ctx r.ctx p.content ch.1 ch.2 none (jobTlv v).2.2.1 = none) ∧ (neverFits s1 r.ctx ch.1 p (jobTlv v).2.2.1 = false) ∧ (s3 = { s1 with host := { s1.host with nextJob := i % 65536 + 1 } }) ∧ (s.host.jobs = []) ∧ (jobAdmit s3 r.ctx ch.1 p (jobTlv v).2.2.1 (jobTlv v).2.2.2.1 = some fit)) ∧
    (∃ (s : State) (n : Nat) (j : Job), (jobOf s n = some j) ∧ (j.st = JobState.held) ∧ (s.clk.up ≤ j.heldAt + 1000000000)) ∧
    (∃ (s : State) (n : Nat) (j : Job), (jobOf s n = some j) ∧ (j.st = JobState.held) ∧ (j.heldAt + 1000000000 < s.clk.up) ∧ (unanswered s j.req = true)) :=
  ⟨⟨loadingOf (List.replicate 9 1), request 0x20 [(0x8020, List.replicate 9 1)], loadSessOf (List.replicate 9 1), transfer0, _, ⟨by decide +kernel, by decide +kernel⟩, by decide +kernel, by decide +kernel, by decide +kernel, rfl, by decide +kernel, by decide +kernel⟩,
   ⟨loading [], loadReq, loadSess, transfer0, _, _, plan0, (stSIGN, 0x202, 0), ⟨by decide +kernel, by decide +kernel⟩, by decide +kernel, by decide +kernel, by decide +kernel, rfl, by decide +kernel, by decide +kernel, rfl, by decide +kernel, by decide +kernel, by decide +kernel⟩,
   ⟨{ loading [(0, licKey)] with host := { (askingIn ({ sessionOfReqs [inletReq] with transfers := [transfer0] }) live).host with planKeys := [(0, licKey)] }, regs := [(smReg 0x10, 0x41)] }, inletReq, { sessionOfReqs [inletReq] with transfers := [transfer0] }, transfer0, _, _, { plan0 with inlet := true }, ⟨by decide +kernel, by decide +kernel⟩, by decide +kernel, by decide +kernel, by decide +kernel, rfl, by decide +kernel, by decide +kernel, rfl, by decide +kernel, by decide +kernel, by decide +kernel, by decide +kernel, by decide +kernel⟩,
   ⟨loading [(0, licKey)], loadReq, loadSess, transfer0, _, _, plan0, ⟨by decide +kernel, by decide +kernel⟩, by decide +kernel, by decide +kernel, by decide +kernel, rfl, by decide +kernel, by decide +kernel, rfl, by decide +kernel, by decide +kernel, by decide +kernel, by decide +kernel⟩,
   ⟨{ (withStroke (readyStroke false) 0 live) with host := { (withStroke (readyStroke false) 0 live).host with sessions := (asking (request 1 [objTlv 3 0])).host.sessions } }, request 1 [objTlv 3 0], 0, ⟨by decide +kernel, by decide +kernel⟩, by decide +kernel, by decide +kernel, by decide +kernel⟩,
   ⟨{ live with host := { (asking (request 1 [objTlv 3 0])).host with packages := [pack0] } }, request 1 [objTlv 3 0], 0, ⟨by decide +kernel, by decide +kernel⟩, by decide +kernel, by decide +kernel, by decide +kernel⟩,
   ⟨askingIn (sessionOfReqs [{ streamReq with tlvs := [] }]) mapped, _, { streamReq with tlvs := [] }, prof0, [], (stCOUNT, 5, 0x8030), ⟨by decide +kernel, by decide +kernel⟩, rfl, by decide +kernel, by decide +kernel, by decide +kernel⟩,
   ⟨askingIn (sessionOfReqs [{ streamReq with tlvs := [(0x8030, streamTlv.set 0 1)] }]) mapped, _, { streamReq with tlvs := [(0x8030, streamTlv.set 0 1)] }, prof0, streamTlv.set 0 1, (stCOUNT, 8, 0), none, rawFit, ⟨by decide +kernel, by decide +kernel⟩, rfl, by decide +kernel, by decide +kernel, by decide +kernel, by decide +kernel⟩,
   ⟨creating, _, streamReq, prof0, streamTlv, none, rawFit, 0, 0, begunRegs, newStream, ⟨by decide +kernel, by decide +kernel⟩, rfl, by decide +kernel, by decide +kernel, by decide +kernel, by decide +kernel, by decide +kernel, by decide +kernel, by decide +kernel, by decide +kernel, by decide +kernel, rfl, new_plate, new_colour, new_ring⟩,
   ⟨{ asking (request 1 [objTlv 1 0]) with streams := [(0, some stroke0)] }, _, request 1 [objTlv 1 0], 0, stroke0, ⟨by decide +kernel, by decide +kernel⟩, rfl, by decide +kernel, by decide +kernel, by decide +kernel, by decide +kernel⟩,
   ⟨{ asking (request 1 [objTlv 1 0]) with streams := [(0, some { stroke0 with phase := .ended })] }, _, request 1 [objTlv 1 0], 0, { stroke0 with phase := .ended }, ⟨by decide +kernel, by decide +kernel⟩, rfl, by decide +kernel, by decide +kernel, by decide +kernel, by decide +kernel, by decide +kernel⟩,
   ⟨{ asking (request 1 [objTlv 1 0]) with streams := [(0, some { stroke0 with phase := .ended, cut := true })] }, _, request 1 [objTlv 1 0], 0, { stroke0 with phase := .ended, cut := true }, ⟨by decide +kernel, by decide +kernel⟩, rfl, by decide +kernel, by decide +kernel, by decide +kernel, by decide +kernel, by decide +kernel⟩,
   ⟨{ asking (request 1 [objTlv 1 0]) with streams := [(0, some { stroke0 with phase := .created })] }, _, request 1 [objTlv 1 0], 0, { stroke0 with phase := .created }, ⟨by decide +kernel, by decide +kernel⟩, rfl, by decide +kernel, by decide +kernel, by decide +kernel, by decide +kernel⟩,
   ⟨{ asking (request 1 [objTlv 1 0]) with streams := [(0, some { stroke0 with phase := .created })] }, _, request 1 [objTlv 1 0], 0, { stroke0 with phase := .created }, ⟨by decide +kernel, by decide +kernel⟩, rfl, by decide +kernel, by decide +kernel, by decide +kernel, by decide +kernel⟩,
   ⟨{ asking (request 1 [objTlv 1 0]) with streams := [(0, some { stroke0 with phase := .stopping })] }, _, request 1 [objTlv 1 0], 0, { stroke0 with phase := .stopping }, ⟨by decide +kernel, by decide +kernel⟩, rfl, by decide +kernel, by decide +kernel, by decide +kernel, by decide +kernel, by decide +kernel⟩,
   ⟨{ asking (request 1 [objTlv 1 0]) with streams := [(0, some stroke0)] }, _, request 1 [objTlv 1 0], 0, stroke0, beginReq { asking (request 1 [objTlv 1 0]) with streams := [(0, some stroke0)] } (request 1 [objTlv 1 0]), ⟨by decide +kernel, by decide +kernel⟩, rfl, by decide +kernel, by decide +kernel, by decide +kernel, by decide +kernel, by decide +kernel, by decide +kernel, by decide +kernel⟩,
   ⟨{ asking (request 1 [objTlv 1 0, (0x8034, List.replicate 12 0)]) with streams := [(0, some stroke0)] }, _, request 1 [objTlv 1 0, (0x8034, List.replicate 12 0)], 0, stroke0, List.replicate 12 0, ⟨by decide +kernel, by decide +kernel⟩, rfl, by decide +kernel, by decide +kernel, by decide +kernel, by decide +kernel, by decide +kernel, by decide +kernel, by decide +kernel, by decide +kernel⟩,
   ⟨{ asking (request 1 [objTlv 1 0]) with streams := [(0, some { stroke0 with phase := .created })] }, _, request 1 [objTlv 1 0], 0, { stroke0 with phase := .created }, (stVERSION, 0x101, 0), ⟨by decide +kernel, by decide +kernel⟩, rfl, by decide +kernel, by decide +kernel, by decide +kernel, by decide +kernel, by decide +kernel, by decide +kernel⟩,
   ⟨launching, _, request 0x31 [objTlv 1 0], 0, newStream, (mapAll (beginReq launching (request 0x31 [objTlv 1 0])) 0 0 (streamBuffers (beginReq launching (request 0x31 [objTlv 1 0])) 0 newStream)).getD live, ⟨by decide +kernel, by decide +kernel⟩, rfl, by decide +kernel, by decide +kernel, by decide +kernel, by decide +kernel, by decide +kernel, by decide +kernel, by decide +kernel, by decide +kernel, by decide +kernel, by decide +kernel⟩,
   ⟨asking (request 1 []), request 1 [], ⟨by decide +kernel, by decide +kernel⟩, by decide +kernel⟩,
   ⟨{ (asking (request 0x36 [objTlv 2 0])) with host := { (asking (request 0x36 [objTlv 2 0])).host with jobs := [(0, some job0)] } }, request 0x36 [objTlv 2 0], 0, job0, ⟨by decide +kernel, by decide +kernel⟩, by decide +kernel, by decide +kernel, by decide +kernel, by decide +kernel⟩,
   ⟨asking jobReq, jobReq, jobTlv0, List.replicate 12 0, (stCOUNT, 8, 0), ⟨by decide +kernel, by decide +kernel⟩, no_jobs, by decide +kernel, by decide +kernel, by decide +kernel⟩,
   ⟨{ running with host := { (asking (request 0x35 [(0x8036, leBytes 6 0 ++ [0, 0, 16, 0, 1, 0, 1, 0] ++ leBytes 4 0)])).host with packages := [jobPack] } }, _, request 0x35 [(0x8036, leBytes 6 0 ++ [0, 0, 16, 0, 1, 0, 1, 0] ++ leBytes 4 0)], leBytes 6 0 ++ [0, 0, 16, 0, 1, 0, 1, 0] ++ leBytes 4 0, jobPack, net0, 0, ⟨by decide +kernel, by decide +kernel⟩, rfl, no_job rfl, by decide +kernel, by decide +kernel, by decide +kernel, by decide +kernel, by decide +kernel, by decide +kernel, by decide +kernel, by decide +kernel, by decide +kernel, by decide +kernel, by decide +kernel, by decide +kernel⟩,
   ⟨running, _, (mapAll (beginReq running jobReq) 0 0 (jobTlv jobTlv0).2.2.2.2).getD live, _, jobReq, jobTlv0, jobPack, net0, 0, (0, 1), ⟨by decide +kernel, by decide +kernel⟩, rfl, no_jobs_running, by decide +kernel, by decide +kernel, by decide +kernel, by decide +kernel, by decide +kernel, by decide +kernel, by decide +kernel, by decide +kernel, by decide +kernel, by decide +kernel, by decide +kernel, by decide +kernel, by decide +kernel, by decide +kernel, get_some (by decide +kernel), by decide +kernel, by decide +kernel, rfl, by decide +kernel⟩,
   ⟨rich, _, (mapAll (beginReq rich jobReq) 0 0 (jobTlv jobTlv0).2.2.2.2).getD live, _, jobReq, jobTlv0, jobPack, net0, 0, (0, 1), { variant := 0, strings := [[0]], cores := [], chans := [] }, ⟨by decide +kernel, by decide +kernel⟩, rfl, no_job rfl, by decide +kernel, by decide +kernel, by decide +kernel, by decide +kernel, by decide +kernel, by decide +kernel, by decide +kernel, by decide +kernel, by decide +kernel, by decide +kernel, by decide +kernel, by decide +kernel, by decide +kernel, by decide +kernel, get_some (by decide +kernel), by decide +kernel, by decide +kernel, rfl, by decide +kernel, by decide +kernel⟩,
   ⟨{ live with host := { jobs := [(0, some job0)] }, clk := { up := 1000000000 } }, 0, job0, by decide +kernel, by decide +kernel, by decide +kernel⟩,
   ⟨{ (asking (request 0x36 [])) with host := { (asking (request 0x36 [])).host with jobs := [(0, some job0)] }, clk := { up := 1000000001 } }, 0, job0, by decide +kernel, by decide +kernel, by decide +kernel, by decide +kernel⟩⟩

/-- Commands whose operands are out of range are refused by WellFormed. -/
theorem test_ill_formed_1 : ([
    .registerWrite (.tile 72) 0 0,
    .registerWrite .aon (2 ^ 40) 0,
    .counterClearWrite (.tile 72) 0 0,
    .counterClearWrite .aon (2 ^ 40) 0,
    .misalignedRegisterAccess (.tile 72) 0 0 false,
    .misalignedRegisterAccess .aon (2 ^ 40) 0 false,
    .absentWindowAccess (.tile 72) 0 false,
    .absentWindowAccess .aon (2 ^ 40) false,
    .unmappedWindowAccess (.tile 72) 0 false,
    .unmappedWindowAccess .aon (2 ^ 40) false,
    .pairLowWordRead (.tile 72) 0,
    .pairLowWordRead .aon (2 ^ 40),
    .pairHighWordRead (.tile 72) 0,
    .pairHighWordRead .aon (2 ^ 40),
    .resetEndpointRequest (.tile 72) 0 false,
    .resetEndpointRequest .aon (2 ^ 40) false,
    .slow (.core 8),
    .slowClear (.core 8),
    .segmentMoveSwitch 72,
    .domainReset (.core 8),
    .domainResetDone (.core 8),
    .csiFrameStart 16 0 0 .clean,
    .csiFrameStart 0 16 0 .clean,
    .csiLineStart 16 0 0 .clean,
    .csiLineStart 0 16 0 .clean,
    .csiLongPacket { port := 16, vc := 0, dt := 0, ecc := .clean, crcOk := true, samples := [] },
    .csiLongPacket { port := 0, vc := 16, dt := 0, ecc := .clean, crcOk := true, samples := [] },
    .csiLongPacket { port := 0, vc := 0, dt := 64, ecc := .clean, crcOk := true, samples := [] },
    .csiFrameEnd 16 0 .clean,
    .csiFrameEnd 0 16 .clean,
    .frameTimeout 16 0,
    .frameTimeout 0 16,
    .triggerFrameMissing 16 0,
    .triggerFrameMissing 0 16,
    .externalTrigger 16,
    .trigPulseEnd 16,
    .sensorSettingsWrite 16,
    .sensorWriteNack 16,
    .plateStripeTake 4,
    .plateStripeDone 4] : List Instr).all (fun c => !wf c) = true := by decide +kernel

/-- Commands whose operands are out of range are refused by WellFormed. -/
theorem test_ill_formed_2 : ([
    .statRecordWrite 32,
    .plCommit (.tile 72) 0 0,
    .plCommit .aon 32 0,
    .clCommit (.tile 72) 0 0,
    .clCommit .aon 32 0,
    .colourStripeTake 2,
    .colourFrameEnd 2,
    .strokeLaunch 32,
    .frameAdmit 32,
    .stripeDispatch 32,
    .resultRecordWrite 32,
    .strokeBarrierComplete 32,
    .layer 72 .clean,
    .loop 72,
    .endloop 72,
    .wait 72,
    .signal 72,
    .rotate 72,
    .rotateArrived 72,
    .halt 72,
    .haltComplete 72,
    .fetchDone 72 .clean,
    .outputWriteNack 72 0,
    .outputWriteNack 0 (2 ^ 40),
    .fetchReadNack 72,
    .fetchTranslationFault 72 false,
    .tileStart (.tile 72) 0,
    .tileStart .aon 72,
    .tileCancel (.tile 72) 0,
    .tileCancel .aon 72,
    .tileStopDone 72,
    .tileCounterClear (.tile 72) 0,
    .tileCounterClear .aon 72,
    .tileWatchdog 72,
    .stringRestart 32 0,
    .stringRestart 0 8,
    .bruSubmit (.tile 72) 0,
    .bruCancel (.tile 72) 0,
    .bruSlotRead (.tile 72) 0,
    .bruSlotRead .aon 64] : List Instr).all (fun c => !wf c) = true := by decide +kernel

/-- Commands whose operands are out of range are refused by WellFormed. -/
theorem test_ill_formed_3 : ([
    .bundleIssue 8 .clean,
    .etchStart (.tile 72) 0,
    .etchStart .aon 8,
    .etchCancel (.tile 72) 0,
    .etchCancel .aon 8,
    .etchStopDone 8,
    .etchCounterClear (.tile 72) 0,
    .etchCounterClear .aon 8,
    .dmaStart (.tile 72) 0,
    .dmaStart .aon 128,
    .dmaCancel (.tile 72) 0,
    .dmaCancel .aon 128,
    .dmaResume (.tile 72) 0,
    .dmaResume .aon 128,
    .dmaAbort (.tile 72) 0,
    .dmaAbort .aon 128,
    .dmaClear (.tile 72) 0,
    .dmaClear .aon 128,
    .move 128,
    .burstIssue 4,
    .burstReadReturn 128 .clean .ok,
    .burstWriteAnswer 128 .ok,
    .moveComplete 128,
    .dmaLoop 128,
    .dmaWait 128,
    .dmaSignal 128,
    .dmaProgramEnd 128,
    .dmaTranslationFault 128,
    .dmaStopDone 128,
    .patrolScrubRead 4 .clean,
    .selfRefreshEntry 4,
    .selfRefreshExit 4,
    .ddrChannelFailure 4,
    .shmModeChangeDone 16,
    .shmBankPowerUp 256,
    .iommuInvalidate (.tile 72) 0,
    .granuleGrant 8448 0 false,
    .granuleGrant 0 64 false,
    .granuleRelease 8448 .cancelled,
    .granuleHoldExpiry 8448] : List Instr).all (fun c => !wf c) = true := by decide +kernel

/-- Commands whose operands are out of range are refused by WellFormed. -/
theorem test_ill_formed_4 : ([
    .dirtyGranuleAccess (.tile 72) 0 false,
    .dirtyGranuleAccess .aon (2 ^ 40) false,
    .scrubStart 8448,
    .scrubDone 8448,
    .flagUpdate (.tile 72) 0 false 0,
    .flagUpdate .aon 65536 false 0,
    .flagWrite (.tile 72) 0 0,
    .flagWrite .aon 65536 0,
    .flagRead (.tile 72) 0,
    .flagRead .aon 65536,
    .waitExpiry 1104,
    .deadlockCheck 1104,
    .queueEnable (.tile 72) 0 0,
    .queueEnable .aon 512 0,
    .queueEntryStart 512,
    .launchSlotArm (.tile 72) 0 0,
    .launchSlotArm .aon 256 0,
    .launchSlotDisarm (.tile 72) 0 0,
    .launchSlotDisarm .aon 256 0,
    .launchSlotFire 256,
    .contextCancelWrite (.tile 72) 0,
    .contextCancelApply 64,
    .timeSourceSelect (.tile 72) 0,
    .gptpSyncMessage 4 0,
    .bridgeTimeMessage 4 0 0,
    .networkFrameReceive { frameOfBytes 64 .other with port := 4 },
    .acpMessageReceive { dgram 1 0 1 with bytes := List.replicate 4097 0 },
    .hello (request 2 []),
    .closeContext { request 1 [] with ctx := 64 },
    .setEnergyBudget { request 1 [] with ctx := 64 },
    .loadPackage { request 1 [] with ctx := 64 },
    .unloadPackage { request 1 [] with ctx := 64 },
    .createStream { request 1 [] with ctx := 64 },
    .startStream { request 1 [] with ctx := 64 },
    .stop { request 1 [] with ctx := 64 },
    .cancel { request 1 [] with ctx := 64 },
    .setSettings { request 1 [] with ctx := 64 },
    .launchJob { request 1 [] with ctx := 64 },
    .destroyStream { request 1 [] with ctx := 64 },
    .snapshot { request 1 [] with ctx := 64 }] : List Instr).all (fun c => !wf c) = true := by decide +kernel

/-- Commands whose operands are out of range are refused by WellFormed. -/
theorem test_ill_formed_5 : ([
    .mailboxClaim (.tile 72) 0,
    .mailboxClaim .aon 16,
    .mailboxRing (.tile 72) 0,
    .mailboxRing .aon 16,
    .mailboxAck (.tile 72) 0,
    .mailboxAck .aon 16,
    .mailboxTake 16,
    .noticePlace 16,
    .linkTraining 4 goodTrain,
    .linkRetrain 4 goodTrain,
    .linkRetrainRequest (.tile 72) 0 0,
    .linkRetrainRequest .aon 4 0,
    .routeUpdate 4 0 [],
    .remoteAccess { remoteRead with link := 4 },
    .flagWindowWrite { remoteRead with link := 4 },
    .inletWrite (.tile 72) 0 0,
    .inletWrite .aon 0x40000 0,
    .inletCommit (.tile 72) 0,
    .energySample (List.replicate 53 0),
    .partitionEnable (.tile 72) 0,
    .partitionEnable .aon 48,
    .partitionDisable (.tile 72) 0,
    .partitionDisable .aon 48,
    .partitionPowerUpDone 48,
    .partitionPowerDownDone 48,
    .partitionIdleTimeout 48,
    .parkWake { frameOfBytes 64 .other with port := 4 },
    .temperatureSample (List.replicate 25 0),
    .managementWatchdogFire 2,
    .managementCoreRestartDone 2,
    .ringBlockReclaim 4,
    .avsVoltageSet 2000,
    .faultEvent { code := 0x700, status := 0, src := 0, ctx := 0, detail := 0, extra := 0 },
    .faultEvent { code := 0, status := 256, src := 0, ctx := 0, detail := 0, extra := 0 },
    .colourStripeDone 2,
    .phyLockChange 16 false,
    .deskewSequence 16 false,
    .networkLinkChange 4 false,
    .shmBankPowerDown (.tile 72) 0,
    .shmBankPowerDown .aon 256] : List Instr).all (fun c => !wf c) = true := by decide +kernel

/-- Commands whose operands are out of range are refused by WellFormed. -/
theorem test_ill_formed_6 : ([
    .slow (.tile 72),
    .slow (.core 8),
    .slow (.port 16),
    .slow (.plate 4),
    .slow (.colour 2),
    .slow (.stipple 2),
    .slow (.dma 4),
    .slow (.ddr 4),
    .slow (.bridge 4),
    .slow (.appCluster 2),
    .bruCancel (.tile 72) 0,
    .bruCancel (.core 8) 0,
    .bruCancel (.dma 128) 0,
    .bruCancel (.bru 64) 0,
    .bruCancel (.port 16) 0,
    .bruCancel (.trig 16) 0,
    .bruCancel (.slot 256) 0,
    .bruCancel (.queue 512) 0,
    .bruCancel (.stroke 32) 0,
    .bruCancel (.mgmt 2) 0,
    .bruCancel (.mbox 16) 0,
    .bruCancel (.bridge 4) 0,
    .bruCancel (.ddr 4) 0,
    .bruCancel (.app 8) 0,
    .bruCancel (.plate 4) 0,
    .bruCancel (.colour 2) 0] : List Instr).all (fun c => !wf c) = true := by decide +kernel

/-- In range at the upper ends. -/
theorem test_well_formed : ([.granuleGrant 8447 63 true, .flagRead (.queue 511) 65535, .registerWrite (.mgmt 1) (2 ^ 40 - 4) 0,
    .waitExpiry 1103, .slow (.tile 71), .energySample (List.replicate 52 0), .bruSlotRead (.app 7) 63] : List Instr).all wf = true := by
  decide +kernel

theorem test_reset_memory : Memory.wf State.reset.mem = true ∧ State.reset.pending = [] :=
  ⟨by decide, rfl⟩

/-- CRC-32C of the ASCII digits 1 to 9 (published check value). -/
theorem test_crc32c : crc32c [0x31, 0x32, 0x33, 0x34, 0x35, 0x36, 0x37, 0x38, 0x39] = 0xE3069283 := by decide +kernel

/-- SHA-256 of "abc" (FIPS 180-4), and the ECDSA P-256 signature of "sample" (RFC 6979, A.2.5). -/
theorem test_sha256 : beNat (sha256 [0x61, 0x62, 0x63]) = 0xba7816bf8f01cfea414140de5dae2223b00361a396177a9cb410ff61f20015ad := by
  decide +kernel
theorem test_ecdsa : ecdsaVerify
    (beBytes 64 0x60FED4BA255A9D31C961EB74C6356D68C049B8923B61FA6CE669622E60F29FB67903FE1008B8BC99A41AE9E95628BC64F2F1B20C2D7E9F5177A3C294D4462299)
    (beBytes 64 0xEFD48B2AACB6A8FD1140DD9CD45E81D69D2C877B56AAF991C34D0EA84EAF3716F7CB1C942D657C41D436C7A1B6E29F65F3E900DBB9AFF4064DC4AB2F843ACDA8)
    (sha256 [0x73, 0x61, 0x6D, 0x70, 0x6C, 0x65]) = true := by decide +kernel

/-- The encoding examples of the Etch instruction set. -/
theorem test_etch_ldv : lsOp (opField 0x0C720100) = some .ldv ∧ lRt 0x0C720100 = 7 ∧ lAn 0x0C720100 = 2 ∧ lP 0x0C720100 = 0 ∧
    lImm 0x0C720100 = false ∧ lMm 0x0C720100 = 2 ∧ lLegal 0x0C720100 = true := by decide +kernel
theorem test_etch_xfir : xOp (opField 0x04085480) = some .xfir ∧ xAcc 0x04085480 = 0 ∧ xA 0x04085480 = 4 ∧ xB 0x04085480 = 10 ∧
    xWide 0x04085480 = true ∧ xClr 0x04085480 = true ∧ xSa 0x04085480 = false ∧ xSb 0x04085480 = false ∧ xLegal 0x04085480 = true := by
  decide +kernel
theorem test_etch_xrd_word : xOp (opField 0x20282300) = some .xrd ∧ xAcc 0x20282300 = 0 ∧ xA 0x20282300 = 20 ∧ xB 0x20282300 = 4 ∧
    fld (0x20282300 : Word) 10 9 = 1 ∧ bitOf (0x20282300 : Word) 8 = true ∧ bitOf (0x20282300 : Word) 7 = false ∧
    xLegal 0x20282300 = true := by decide +kernel
theorem test_etch_loopi : isOp 0xC0016010 .loopi = true ∧ fld (0xC0016010 : Word) 25 13 = 11 ∧ sLegal false 0xC0016010 = true := by
  decide +kernel

/-- The worked read-out of a lane: -37 by 3 places is -5 (R242). The word is XRD V20, ACC0, 3, 16 bits, sgn, sat. -/
theorem test_etch_xrd : (match (xExec { core0 with acc := [(0, BitVec.ofInt 48 (-37)), (1, BitVec.ofInt 48 (2 ^ 40))] } 0x20281B80).1 with
    | [.vec 20 v] => decide (sext 16 (elemOf 16 v 0) = -5) && decide (sext 16 (elemOf 16 v 1) = 32767)
    | _ => false) = true := by decide +kernel

/-- The worked merge of two exposures (R67). -/
def mergeFrame : FrameRec :=
  { frame0 with plate := [(0, 0x8000), (0x30, BitVec.ofNat 32 (900000 + 15 * 2 ^ 20)), (0x38, 0x1000)] }
theorem test_merge : mergeExps mergeFrame [880000, 55100] = 880623 ∧ outShift mergeFrame 880623 = 3439 := by decide +kernel

/-- The worked requantisation and nonlinear function (R149, R152, R155): codes 127 and -6. Biases -2000 and 0, M and S of both channels
and the table's segments stand in the tile. -/
def requantState : State :=
  store (store { live with
    regs := [(gtReg 0 0x800, 0xFFFFFFFB), (gtReg 0 0x804, 0xFFFFFFFB), (gtReg 0 0x808, 6554), (gtReg 0 0x80C, 16),
      (gtReg 0 0x810, 0xFFFFFFFC), (gtReg 0 0x814, 0xFFFFFFFC), (gtReg 0 0x818, 1), (gtReg 0 0x81C, 0), (gtReg 0 0x820, 0xFFFFFFFC)] }
    (wmBase 0) (leBytes 4 (2 ^ 32 - 2000))) (wmBase 0 + 64) (bytesOf [1518500250, 40, 1518500250, 40])
def requantLayer : List Word := wordsWith 32 [(0, 0x881110), (60, 64), (64, 0xFFFB0003), (112, 0x7FFF80)]
theorem test_requant : finish requantState 0 requantLayer true 32 0 123457 = .int 127 ∧
    finish requantState 0 requantLayer true 32 1 (2 ^ 32 - 1000) = .int (-6) ∧
    nlf requantState 0 requantLayer (.int (-5)) = .int (-5) := by decide +kernel

/-- The worked INT8 block of a MOVE at ratio 1/2 (R181, R182): 37 comes back as 31, 100 as 100. -/
theorem test_block : (stDecode false 0 1 (stEncode false 0 1 ([some 0xEC, some 37, some 100] ++ List.replicate 61 (some 0))).1).take 3 =
    [0xEC, 31, 100] := by decide +kernel

end Sys2Proof.Tests
end

/-!
SUPPORT. What a flag update changes, what a BRU job's next turn changes, and the empty BRU iteration (R178).
-/
namespace Sys2Proof.Proofs
open Sys2Proof.Machine Sys2Proof.Laws

/-! ### What waking waiters can change (R297) -/

/-- The state less what a woken waiter, a held or refused flag update and a BRU job's turn may change: the clock, the engines and queues,
the wait table, the held updates, the fault collector and the BRU's slots. Flags, registers and memories stay in it. -/
def outsideWork (s : State) : State :=
  { s with clk := {}, tiles := [], cores := [], chans := [], waits := [], updates := [], queues := [], fc := {},
           bru := { s.bru with slots := [] } }

@[simp] theorem outsideWork_flags (s : State) : (outsideWork s).flags = s.flags := rfl
@[simp] theorem outsideWork_regs (s : State) : (outsideWork s).regs = s.regs := rfl
@[simp] theorem outsideWork_running (s : State) : (outsideWork s).bru.running = s.bru.running := rfl

theorem flags_of_outsideWork {s t : State} (h : outsideWork t = outsideWork s) : t.flags = s.flags := by
  simpa only [outsideWork_flags] using congrArg State.flags h

theorem regs_of_outsideWork {s t : State} (h : outsideWork t = outsideWork s) : t.regs = s.regs := by
  simpa only [outsideWork_regs] using congrArg State.regs h

theorem running_of_outsideWork {s t : State} (h : outsideWork t = outsideWork s) : t.bru.running = s.bru.running := by
  simpa only [outsideWork_running] using congrArg (fun u => u.bru.running) h

theorem flagOf_of_outsideWork {s t : State} (h : outsideWork t = outsideWork s) (f : Nat) : flagOf t f = flagOf s f :=
  congrArg (tget 0 · f) (flags_of_outsideWork h)

theorem word_of_outsideWork {s t : State} (h : outsideWork t = outsideWork s) (key : Nat) : word t key = word s key :=
  congrArg (tget (keyReset key) · key) (regs_of_outsideWork h)

/-- The frame that equality outside the work, the registers and the flags amounts to. -/
theorem eq_of_outsideWork {s t : State} (h : outsideWork t = { outsideWork s with regs := t.regs, flags := t.flags }) :
    t = { s with regs := t.regs, clk := t.clk, tiles := t.tiles, cores := t.cores, chans := t.chans, bru := t.bru, flags := t.flags,
                 waits := t.waits, updates := t.updates, queues := t.queues, fc := t.fc } := by
  simpa only [outsideWork] using congrArg (fun u : State => { u with
    clk := t.clk, tiles := t.tiles, cores := t.cores, chans := t.chans, bru := t.bru, waits := t.waits, updates := t.updates,
    queues := t.queues, fc := t.fc }) h

/-- From `s` to `t` only waiters went on: outside the work nothing changed, and a BRU slot at most had its wait met. -/
structure WakesOnly (s t : State) : Prop where
  outside : outsideWork t = outsideWork s
  slot : ∀ j, { bruSlotOf t j with metAt := none } = { bruSlotOf s j with metAt := none }

namespace WakesOnly

theorem of_bru_eq {s t : State} (outside : outsideWork t = outsideWork s) (bru : t.bru = s.bru) : WakesOnly s t :=
  ⟨outside, fun j => by simp only [bruSlotOf, bru]⟩

theorem refl (s : State) : WakesOnly s s := ⟨rfl, fun _ => rfl⟩

theorem trans {s t u : State} (h : WakesOnly s t) (k : WakesOnly t u) : WakesOnly s u :=
  ⟨k.outside.trans h.outside, fun j => (k.slot j).trans (h.slot j)⟩

theorem done_eq {s t : State} (h : WakesOnly s t) (j : Nat) : (bruSlotOf t j).done = (bruSlotOf s j).done := by
  simpa only using congrArg BruSlot.done (h.slot j)

end WakesOnly

theorem stallEnd_wakesOnly (s : State) (n : Nat) : WakesOnly s (stallEnd s n) := by
  dsimp only [stallEnd]
  split
  · exact .of_bru_eq rfl rfl
  · exact .refl s

theorem coreStallEnd_wakesOnly (s : State) (n : Nat) : WakesOnly s (coreStallEnd s n) := by
  dsimp only [coreStallEnd]
  split
  · exact .of_bru_eq rfl rfl
  · exact .refl s

/-- A BRU slot whose wait is met keeps all but the time it was met at. -/
theorem setBruSlot_metAt_wakesOnly (s : State) (j : Nat) (m : Option Nat) :
    WakesOnly s (setBruSlot s j { bruSlotOf s j with metAt := m }) where
  outside := rfl
  slot k := by
    rw [bruSlotOf_setBruSlot]
    split
    next h => rw [h]
    next => rfl

theorem wake_wakesOnly (s : State) (who : Nat) : WakesOnly s (wake s who) := by
  dsimp only [wake]
  split
  case h_1 n _ =>
    split
    · exact (stallEnd_wakesOnly s n).trans (.of_bru_eq rfl rfl)
    · exact .refl s
  case h_2 n _ =>
    split
    · exact (coreStallEnd_wakesOnly s n).trans (.of_bru_eq rfl rfl)
    · exact .refl s
  case h_3 n _ =>
    split
    · exact .of_bru_eq rfl rfl
    · exact .refl s
  case h_4 j _ => exact setBruSlot_metAt_wakesOnly s j _
  case h_5 q _ => exact .of_bru_eq rfl rfl
  case h_6 => exact .refl s

theorem foldl_wake_wakesOnly (ws : List WaitEntry) (s : State) : WakesOnly s (ws.foldl (fun s w => wake s w.who) s) := by
  induction ws generalizing s with
  | nil => exact .refl s
  | cons w ws ih => exact (wake_wakesOnly s w.who).trans (ih _)

theorem meetWaits_wakesOnly (s : State) (f : Nat) : WakesOnly s (meetWaits s f) := by
  dsimp only [meetWaits]
  refine .trans ?_ (foldl_wake_wakesOnly _ _)
  exact .of_bru_eq rfl rfl

/-! ### Flag updates (R296 to R299) -/

/-- An update that its context allows writes the flag; the rest is waiters that go on. -/
theorem applyUpdate_of_allowed (s : State) (u : FlagUpd) (h : flagAllowed s u.ctx u.flag = true) :
    WakesOnly (setFlag s u.flag (if u.add then flagOf s u.flag + u.value else u.value)) (applyUpdate s u) := by
  rw [applyUpdate, if_pos h]
  refine .trans ?_ (meetWaits_wakesOnly _ _)
  exact .of_bru_eq rfl rfl

/-- An update that its context does not allow is reported, and no flag changes. -/
theorem applyUpdate_of_refused (s : State) (u : FlagUpd) (h : ¬ flagAllowed s u.ctx u.flag = true) :
    WakesOnly s (applyUpdate s u) := by
  rw [applyUpdate, if_neg h]
  exact .of_bru_eq rfl rfl

/-- What an update at the flag store can do: write its flag, or leave every flag alone (lost, held or refused). -/
theorem flagUpdateOp_cases (s : State) (u : FlagUpd) :
    WakesOnly s (flagUpdateOp s u) ∨
      WakesOnly (setFlag s u.flag (if u.add then flagOf s u.flag + u.value else u.value)) (flagUpdateOp s u) := by
  unfold flagUpdateOp
  split
  next => exact .inl (.refl s)
  next =>
    split
    next =>
      by_cases h : flagAllowed s u.ctx u.flag = true
      · exact .inr (applyUpdate_of_allowed s u h)
      · exact .inl (applyUpdate_of_refused s u h)
    next => exact .inl (.of_bru_eq rfl rfl)

/-- What an engine's signal can do: add to its flag, or leave every flag alone. -/
theorem signalFlag_cases (s : State) (src : Src) (f : Nat) (v : Word) (hf : f < 65536) :
    WakesOnly s (signalFlag s src f true v) ∨ WakesOnly (setFlag s f (flagOf s f + v)) (signalFlag s src f true v) := by
  simpa [signalFlag, Nat.mod_eq_of_lt hf] using flagUpdateOp_cases s
    { src := srcIndex src, ctx := if isApgil src then none else some ((srcCtx s src).getD 64), flag := f % 65536, add := true, value := v }

/-- A signal that takes effect at once adds its value to its flag (R296, R297). -/
theorem signalFlag_of_flagNow (s : State) (src : Src) (f : Nat) (v : Word) (h : flagNow s src f) :
    WakesOnly (setFlag s f (flagOf s f + v)) (signalFlag s src f true v) := by
  obtain ⟨hOn, hFew, hNone, hf, hAllowed⟩ := h
  have hStore := applyUpdate_of_allowed s
    { src := srcIndex src, ctx := if isApgil src then none else some ((srcCtx s src).getD 64), flag := f, add := true, value := v } hAllowed
  simpa [signalFlag, flagUpdateOp, hOn, hFew, hNone, Nat.mod_eq_of_lt hf] using hStore

theorem flagOf_signalFlag_of_flagNow (s : State) (src : Src) (f : Nat) (v : Word) (h : flagNow s src f) :
    flagOf (signalFlag s src f true v) f = flagOf s f + v := by
  rw [flagOf_of_outsideWork (signalFlag_of_flagNow s src f v h).outside, flagOf_setFlag, if_pos rfl]

theorem flagOf_signalFlag_other (s : State) (src : Src) (f g : Nat) (v : Word) (hf : f < 65536) (hg : g ≠ f) :
    flagOf (signalFlag s src f true v) g = flagOf s g := by
  rcases signalFlag_cases s src f v hf with h | h
  · exact flagOf_of_outsideWork h.outside g
  · rw [flagOf_of_outsideWork h.outside, flagOf_setFlag, if_neg hg]

/-- A signal leaves all but the work and the flags alone. -/
theorem outsideWork_signalFlag (s : State) (src : Src) (f : Nat) (v : Word) (hf : f < 65536) :
    outsideWork (signalFlag s src f true v) = { outsideWork s with flags := (signalFlag s src f true v).flags } := by
  rcases signalFlag_cases s src f v hf with h | h
  · rw [flags_of_outsideWork h.outside, h.outside]; rfl
  · rw [flags_of_outsideWork h.outside, h.outside]; rfl

theorem signalFlag_regs (s : State) (src : Src) (f : Nat) (v : Word) (hf : f < 65536) :
    (signalFlag s src f true v).regs = s.regs := by
  simpa only [outsideWork_regs] using congrArg State.regs (outsideWork_signalFlag s src f v hf)

theorem word_signalFlag (s : State) (src : Src) (f : Nat) (v : Word) (hf : f < 65536) (key : Nat) :
    word (signalFlag s src f true v) key = word s key :=
  congrArg (tget (keyReset key) · key) (signalFlag_regs s src f v hf)

theorem signalFlag_running (s : State) (src : Src) (f : Nat) (v : Word) (hf : f < 65536) :
    (signalFlag s src f true v).bru.running = s.bru.running := by
  simpa only [outsideWork_running] using congrArg (fun u => u.bru.running) (outsideWork_signalFlag s src f v hf)

theorem done_signalFlag (s : State) (src : Src) (f : Nat) (v : Word) (hf : f < 65536) (j : Nat) :
    (bruSlotOf (signalFlag s src f true v) j).done = (bruSlotOf s j).done := by
  rcases signalFlag_cases s src f v hf with h | h
  · exact h.done_eq j
  · rw [h.done_eq, bruSlotOf_setFlag]

/-! ### The next turn of a BRU job (R169, R178) -/

/-- From `s` to `t` the job in slot `j` went on or ended, and stands with this code and count; outside the work nothing changed. -/
structure JobTurned (j code done : Nat) (s t : State) : Prop where
  outside : outsideWork t = outsideWork s
  code : (bruSlotOf t j).code = code
  done : (bruSlotOf t j).done = done

/-- A turn taken from a state that differs in the work only. -/
theorem JobTurned.of_start {j code code' done done' : Nat} {s s' t : State} (h : JobTurned j code done s' t)
    (hStart : outsideWork s' = outsideWork s) (hCode : code = code') (hDone : done = done') : JobTurned j code' done' s t :=
  ⟨h.outside.trans hStart, h.code.trans hCode, h.done.trans hDone⟩

/-- A slot rewritten, and the wait table with it. -/
theorem jobTurned_setBruSlot (s : State) (j : Nat) (b : BruSlot) (ws : List WaitEntry) :
    JobTurned j b.code b.done s { setBruSlot s j b with waits := ws } :=
  have hSlot : bruSlotOf { setBruSlot s j b with waits := ws } j = b := (bruSlotOf_setBruSlot s j b j).trans (if_pos rfl)
  ⟨rfl, congrArg BruSlot.code hSlot, congrArg BruSlot.done hSlot⟩

/-- A wait entered in the table changes the table only. -/
theorem startWait_eq_some {s t : State} {who : Nat} {ctx : Option Nat} {f : Nat} {eq : Bool} {v : Word} {us : Nat}
    (h : startWait s who ctx f eq v us = some t) : t = { s with waits := t.waits } := by
  simp only [startWait] at h
  split at h
  · cases h
  · cases h; rfl

theorem bruWait_jobTurned (s : State) (j : Nat) : JobTurned j (bruSlotOf s j).code (bruSlotOf s j).done s (bruWait s j) := by
  have hReady := jobTurned_setBruSlot s j { bruSlotOf s j with st := .waiting, metAt := some s.clk.up } s.waits
  dsimp only [bruWait]
  split
  · split
    next t hWait =>
      rw [startWait_eq_some hWait]
      exact jobTurned_setBruSlot s j { bruSlotOf s j with st := .waiting, metAt := none } t.waits
    next => exact hReady
  · exact hReady

/-- While no iteration runs, ending a job drops none. -/
theorem bruEnd_jobTurned (s : State) (j code : Nat) (hIdle : s.bru.running = none) :
    JobTurned j code (bruSlotOf s j).done s (bruEnd s j code) := by
  dsimp only [bruEnd]
  rw [if_neg (by simp [withdrawWait, setBruSlot, hIdle])]
  exact jobTurned_setBruSlot s j { bruSlotOf s j with
    st := if code = stOK ∨ code = stEMPTY ∨ code = stCANCELLED then .done else .error, code := code, metAt := none, ended := true } _

/-- After an iteration the job holds its code and counts one more, whether it ends or waits again. -/
theorem bruNext_jobTurned (s : State) (j code : Nat) (hIdle : s.bru.running = none) :
    JobTurned j code (((bruSlotOf s j).done + 1) % 65536) s (bruNext s j code) := by
  dsimp only [bruNext]
  split
  · refine (bruEnd_jobTurned _ j code ?_).of_start rfl rfl (by simp)
    exact hIdle
  · exact (bruWait_jobTurned _ j).of_start rfl (by simp) (by simp)

/-! ### The empty iteration (R178) -/

@[simp] theorem word_bump (s : State) (key key' : Nat) : word (bump s key) key' = if key' = key then satInc (word s key) else word s key' :=
  word_setWord s key _ key'

theorem bSignalFlag_lt (d : List Word) : bSignalFlag d < 65536 := Nat.mod_lt _ (by decide)

theorem bEmpty_of_nothing {d : List Word} (h : (bMode d = 0 ∧ bLevels d = 0) ∨ (bMode d ≠ 0 ∧ bCount d = 0)) : bEmpty d = true := by
  rcases h with ⟨hMode, hLevels⟩ | ⟨hMode, hCount⟩
  · simp [bEmpty, hMode, hLevels]
  · simp [bEmpty, hMode, hCount]

/-- BRU_ITERATION_START on an empty iteration: it is counted and signalled, and its job goes on with EMPTY. -/
theorem exec_bruIterationStart_of_empty (s : State) (j : Nat) (hIdle : s.bru.running = none) (hOn : heldInReset s .bru = false)
    (hPick : bruPick s = some j) (hCheck : crcWords ((bruSlotOf s j).desc.take 31) = bw (bruSlotOf s j).desc 0x7C)
    (hEmpty : bEmpty (bruSlotOf s j).desc = true) :
    exec .bruIterationStart s =
      .next (bruNext (signalFlag (bump s (bruBase + 0x24)) (.bru j) (bSignalFlag (bruSlotOf s j).desc) true 1) j stEMPTY) := by
  change execBruIterationStart s = _
  simp [execBruIterationStart, hIdle, hOn, hPick, hCheck, hEmpty]

/-- Settles O32: the empty iteration is a count, a signal and the job's next turn, each with what it leaves alone. -/
theorem emptyBruIteration : Obligations.EmptyBruIteration := by
  rintro s j d hIdle hOn hPick rfl hCheck hNothing
  have hf := bSignalFlag_lt (bruSlotOf s j).desc
  have hExec := exec_bruIterationStart_of_empty s j hIdle hOn hPick hCheck (bEmpty_of_nothing hNothing)
  generalize bSignalFlag (bruSlotOf s j).desc = f at *
  have hRun := (signalFlag_running (bump s (bruBase + 0x24)) (.bru j) f 1 hf).trans hIdle
  have hTurn := bruNext_jobTurned _ j stEMPTY hRun
  refine ⟨_, hExec, hTurn.code, ?done, (running_of_outsideWork hTurn.outside).trans hRun, ?count, ?words, ?flag, ?flags, ?frame⟩
  case done => rw [hTurn.done, done_signalFlag _ _ _ _ hf]; rfl
  case count => rw [word_of_outsideWork hTurn.outside, word_signalFlag _ _ _ _ hf, word_bump, if_pos rfl]
  case words =>
    intro key hKey
    rw [word_of_outsideWork hTurn.outside, word_signalFlag _ _ _ _ hf, word_bump, if_neg hKey]
  case flag =>
    intro hNow
    exact (flagOf_of_outsideWork hTurn.outside f).trans (flagOf_signalFlag_of_flagNow _ _ f 1 hNow)
  case flags =>
    intro g hg
    exact (flagOf_of_outsideWork hTurn.outside g).trans (flagOf_signalFlag_other _ _ f g 1 hf hg)
  case frame =>
    refine eq_of_outsideWork ?_
    rw [regs_of_outsideWork hTurn.outside, signalFlag_regs _ _ _ _ hf, flags_of_outsideWork hTurn.outside]
    exact hTurn.outside.trans (outsideWork_signalFlag _ _ f 1 hf)

end Sys2Proof.Proofs

/-!
SUPPORT. What Apgil's examination of the jobs leaves alone when an engine has ended, and the abort of a FAULTED channel (R264).
-/
namespace Sys2Proof.Proofs
open Sys2Proof.Machine Sys2Proof.Laws

/-! ### Flags and channels in ERROR -/

/-- From `s` to `t` no flag changed, and every channel that stood in ERROR stands as it did. -/
structure KeepsErrors (s t : State) : Prop where
  flags : t.flags = s.flags
  chan : ∀ c, (chanOf s c).st = .error → chanOf t c = chanOf s c

namespace KeepsErrors

theorem of_eq {s t : State} (flags : t.flags = s.flags) (chans : t.chans = s.chans) : KeepsErrors s t :=
  ⟨flags, fun c _ => by rw [chanOf, chanOf, chans]⟩

theorem refl (s : State) : KeepsErrors s s := ⟨rfl, fun _ _ => rfl⟩

theorem trans {s t u : State} (h : KeepsErrors s t) (k : KeepsErrors t u) : KeepsErrors s u where
  flags := k.flags.trans h.flags
  chan c hc := (k.chan c (by rwa [h.chan c hc])).trans (h.chan c hc)

/-- An update that touches neither flags nor channels, and an operation after it. -/
theorem after {s t u : State} (h : KeepsErrors t u) (flags : t.flags = s.flags) (chans : t.chans = s.chans) : KeepsErrors s u :=
  (of_eq flags chans).trans h

/-- An operation that keeps them keeps them along a list. -/
theorem forAll {α : Type} {f : State → α → State} (h : ∀ s a, KeepsErrors s (f s a)) (l : List α) (s : State) :
    KeepsErrors s (forAll l f s) := by
  induction l generalizing s with
  | nil => exact refl s
  | cons a l ih => exact (h s a).trans (ih (f s a))

theorem ite {s t u : State} {p : Prop} [Decidable p] (ht : KeepsErrors s t) (hu : KeepsErrors s u) :
    KeepsErrors s (if p then t else u) := by
  split
  · exact ht
  · exact hu

end KeepsErrors

/-- A channel written that did not stand in ERROR. -/
theorem setChan_keepsErrors (s : State) (c : Nat) (x : Chan) (h : (chanOf s c).st ≠ .error) : KeepsErrors s (setChan s c x) where
  flags := rfl
  chan k hk := by rw [chanOf_setChan, if_neg (by rintro rfl; exact h hk)]

/-! ### Tiles and cores (R137, R141, R218, R223) -/

theorem setWord_keepsErrors (s : State) (key : Nat) (v : Word) : KeepsErrors s (setWord s key v) := .of_eq rfl rfl

theorem releaseGranule_keepsErrors (s : State) (g : Nat) (how : LetGo) : KeepsErrors s (releaseGranule s g how) := by
  dsimp only [releaseGranule]
  split
  · exact .of_eq rfl rfl
  · exact .refl s

theorem releaseAll_keepsErrors (s : State) (gs : List Nat) (how : LetGo) : KeepsErrors s (releaseAll s gs how) :=
  .forAll (fun s g => releaseGranule_keepsErrors s g how) gs s

/-- The end of a stall changes tiles only (R110). -/
theorem stallEnd_eq (s : State) (n : Nat) : stallEnd s n = { s with tiles := (stallEnd s n).tiles } := by
  dsimp only [stallEnd]
  split <;> rfl

/-- The end of a core's stall changes cores only (R224). -/
theorem coreStallEnd_eq (s : State) (n : Nat) : coreStallEnd s n = { s with cores := (coreStallEnd s n).cores } := by
  dsimp only [coreStallEnd]
  split <;> rfl

theorem stallEnd_keepsErrors (s : State) (n : Nat) : KeepsErrors s (stallEnd s n) := by
  rw [stallEnd_eq]
  exact .of_eq rfl rfl

theorem coreStallEnd_keepsErrors (s : State) (n : Nat) : KeepsErrors s (coreStallEnd s n) := by
  rw [coreStallEnd_eq]
  exact .of_eq rfl rfl

theorem tileStop_keepsErrors (s : State) (n code : Nat) : KeepsErrors s (tileStop s n code) :=
  .ite ((stallEnd_keepsErrors s n).trans (.of_eq rfl rfl)) (.refl s)

theorem coreStop_keepsErrors (s : State) (n code : Nat) : KeepsErrors s (coreStop s n code) :=
  .ite ((coreStallEnd_keepsErrors s n).trans (.of_eq rfl rfl)) (.refl s)

theorem tileCancel_keepsErrors (s : State) (n : Nat) : KeepsErrors s (tileCancel s n) :=
  .ite ((tileStop_keepsErrors s n _).trans (releaseAll_keepsErrors _ _ _)) (.refl s)

theorem coreCancel_keepsErrors (s : State) (n : Nat) : KeepsErrors s (coreCancel s n) :=
  .ite ((coreStop_keepsErrors s n _).trans (releaseAll_keepsErrors _ _ _)) (.refl s)

theorem tileGo_keepsErrors (s : State) (n : Nat) : KeepsErrors s (tileGo s n) := .ite (.of_eq rfl rfl) (.of_eq rfl rfl)

theorem coreGo_keepsErrors (s : State) (n : Nat) : KeepsErrors s (coreGo s n) := .ite (.of_eq rfl rfl) (.of_eq rfl rfl)

/-! ### Channels (R255, R266, R268, R270) -/

theorem ne_error_of_chanFree {x : Chan} (h : chanFree x = true) : x.st ≠ .error := by
  intro he
  simp [chanFree, he] at h

theorem ne_error_of_chanBusy {x : Chan} (h : chanBusy x = true) : x.st ≠ .error := by
  intro he
  simp [chanBusy, he] at h

/-- A channel that stops was busy, so it did not stand in ERROR. -/
theorem chanStop_keepsErrors (s : State) (c code : Nat) : KeepsErrors s (chanStop s c code) := by
  dsimp only [chanStop]
  split
  next hBusy => exact (setChan_keepsErrors s c _ (ne_error_of_chanBusy hBusy)).trans (.of_eq rfl rfl)
  next => exact .refl s

theorem markDirty_keepsErrors (s : State) (g : Nat) : KeepsErrors s (markDirty s g) := .ite (.refl s) (.of_eq rfl rfl)

theorem clearLines_keepsErrors (s : State) (c : Nat) : KeepsErrors s (clearLines s c) :=
  .forAll (fun s _ => .ite (setWord_keepsErrors s _ _) (.refl s)) _ s

theorem chanCancel_keepsErrors (s : State) (c : Nat) : KeepsErrors s (chanCancel s c) :=
  .ite (((chanStop_keepsErrors s c _).trans (.forAll markDirty_keepsErrors _ _)).trans (clearLines_keepsErrors _ c)) (.refl s)

theorem unbindChan_keepsErrors (s : State) (c : Nat) : KeepsErrors s (unbindChan s c) := by
  refine KeepsErrors.trans (t := setWord s (dmReg c 0x10) 0) (.of_eq rfl rfl) (.forAll (fun s l => ?_) _ _)
  exact .ite (.of_eq rfl rfl) (.refl s)

theorem chanFault_keepsErrors (s : State) (c a : Nat) (write fetch : Bool) (h : (chanOf s c).st ≠ .error) :
    KeepsErrors s (chanFault s c a write fetch) :=
  (setChan_keepsErrors s c _ h).trans (.of_eq rfl rfl)

theorem chanFetchReset_keepsErrors (s : State) (c a : Nat) : KeepsErrors s (chanFetchReset s c a) :=
  (chanStop_keepsErrors _ c stRESET).after rfl rfl

theorem chanRecordBad_keepsErrors (s : State) (c : Nat) : KeepsErrors s (chanRecordBad s c) :=
  (chanStop_keepsErrors s c stCHECK).trans (.of_eq rfl rfl)

/-- A start acts on a channel in IDLE or DONE; on any other it sets err_start. -/
theorem chanGo_keepsErrors (s : State) (c : Nat) : KeepsErrors s (chanGo s c) := by
  unfold chanGo
  extract_lets x s1
  split
  case isTrue hFree =>
    have hStart : KeepsErrors s s1 := setChan_keepsErrors s c _ (ne_error_of_chanFree hFree)
    have hRunning : (chanOf s1 c).st ≠ .error := by simp [s1]
    refine hStart.trans ?_
    split
    · exact chanFault_keepsErrors s1 c _ _ _ hRunning
    · split
      · exact chanFetchReset_keepsErrors s1 c _
      · exact .ite (.refl s1) ((setChan_keepsErrors s1 c _ hRunning).trans (chanRecordBad_keepsErrors _ c))
  case isFalse => exact setWord_keepsErrors s _ _

/-! ### Pages and translation tables (R283, R284, R292) -/

theorem subTable_keepsErrors {s t : State} {at' a : Nat} (h : subTable s at' = some (a, t)) : KeepsErrors s t := by
  simp only [subTable, allocPages] at h
  split at h
  · cases h; exact .refl s
  · split at h
    next hAlloc =>
      split at hAlloc
      · cases hAlloc
      · cases hAlloc; cases h; exact .of_eq rfl rfl
    next => cases h

theorem mapBig_keepsErrors {s t : State} {xlate io pa flags : Nat} (h : mapBig s xlate io pa flags = some t) : KeepsErrors s t := by
  simp only [mapBig] at h
  split at h
  · cases h
  next hTable =>
    cases h
    exact (subTable_keepsErrors hTable).trans (.of_eq rfl rfl)

theorem unmapEngine_keepsErrors (s : State) (xlate io : Nat) : KeepsErrors s (unmapEngine s xlate io) := by
  unfold unmapEngine
  cases hBoth : (mapBig s xlate io 0 0).bind (fun s => mapBig s xlate (io + 0x200000) 0 0) with
  | none => exact .refl s
  | some t =>
    obtain ⟨s1, hLow, hHigh⟩ := Option.bind_eq_some_iff.mp hBoth
    exact (mapBig_keepsErrors hLow).trans (mapBig_keepsErrors hHigh)

theorem unmapPage_keepsErrors (s : State) (xlate io : Nat) : KeepsErrors s (unmapPage s xlate io) := by
  unfold unmapPage
  split
  · exact .refl s
  · exact .of_eq rfl rfl

/-! ### Messages of the device (R318, R327 to R330) -/

theorem deliverTo_keepsErrors (s : State) (o : Origin) (major minor : Nat) (m : Sent) :
    KeepsErrors s (deliverTo s o major minor m) := by
  unfold deliverTo
  split
  · exact .ite (.of_eq rfl rfl) (.of_eq rfl rfl)
  · exact .of_eq rfl rfl

theorem answer_keepsErrors (s : State) (n seq typ ctx status : Nat) (tlvs : List (Nat × List Byte)) :
    KeepsErrors s (answer s n seq typ ctx status tlvs) := by
  unfold answer
  split
  · exact (deliverTo_keepsErrors _ _ _ _ _).after rfl rfl
  · exact .refl s

theorem deliver_keepsErrors (s : State) (n : Nat) (m : Sent) : KeepsErrors s (deliver s n m) := by
  unfold deliver
  split
  · exact deliverTo_keepsErrors s _ _ _ m
  · exact .refl s

theorem noticeTo_keepsErrors (s : State) (n : Nat) (m : Sent) : KeepsErrors s (noticeTo s n m) := by
  unfold noticeTo
  split
  · exact .ite ((deliver_keepsErrors _ n _).after rfl rfl) (.refl s)
  · exact .refl s

theorem notify_keepsErrors (s : State) (c typ status code kind index : Nat) (detail : List Byte) (more : List (Nat × List Byte)) :
    KeepsErrors s (notify s c typ status code kind index detail more) := by
  unfold notify noticeCtx
  split
  · exact .refl s
  · split
    · exact .ite (noticeTo_keepsErrors s _ _) (.of_eq rfl rfl)
    · exact .of_eq rfl rfl

theorem itemDone_keepsErrors (s : State) (ident v measured est : Nat) : KeepsErrors s (itemDone s ident v measured est) := by
  unfold itemDone
  split
  · exact .refl s
  · exact .ite ((notify_keepsErrors _ _ _ _ _ _ _ _ _).after rfl rfl) (.of_eq rfl rfl)

/-! ### Jobs (R202, R388, R446) -/

theorem unmapJob_keepsErrors (s : State) (j : Job) : KeepsErrors s (unmapJob s j) :=
  .ite (.refl s) (KeepsErrors.trans (.forAll (fun s n => unmapEngine_keepsErrors s j.ctx (tileIo n)) _ s)
    (.forAll (fun s n => unmapEngine_keepsErrors s j.ctx (coreIo n)) _ _))

theorem unmapLaunch_keepsErrors (s : State) (j : Job) : KeepsErrors s (unmapLaunch s j) :=
  .forAll (fun s a => unmapPage_keepsErrors s j.ctx a) _ s

theorem nextTurns_keepsErrors (s : State) (jn : Nat) (j : Job) : KeepsErrors s (nextTurns s jn j) := by
  unfold nextTurns
  split
  · exact .refl s
  · refine .forAll (fun s n => ?_) j.cores s
    split
    · exact .refl s
    · split
      · split
        · split
          · exact (coreGo_keepsErrors _ n).after rfl rfl
          · exact .refl s
        · exact .refl s
      · exact .refl s

theorem goJob_keepsErrors (s : State) (jn : Nat) (j : Job) : KeepsErrors s (goJob s jn j) :=
  have hTiles := KeepsErrors.forAll (f := fun s t => tileGo (setWbit s (gtReg t 0) 2 j.drain) t)
    (fun s t => (tileGo_keepsErrors (setWbit s (gtReg t 0) 2 j.drain) t).after rfl rfl) j.first
    (setJob s jn (some { j with loading := false }))
  have hCores := hTiles.trans (.forAll coreGo_keepsErrors j.cores _)
  (hCores.trans (.forAll chanGo_keepsErrors _ _)).after rfl rfl

theorem endJob_keepsErrors (s : State) (jn status : Nat) : KeepsErrors s (endJob s jn status) := by
  unfold endJob
  split
  · exact .refl s
  next j _ =>
    extract_lets how s1 s2 s3 s4 s5 s6
    have hTiles : KeepsErrors s s1 := .forAll (fun s n =>
      ((tileCancel_keepsErrors s n).trans (releaseAll_keepsErrors _ _ how)).trans (setWord_keepsErrors _ _ _)) j.tiles s
    have hCores : KeepsErrors s1 s2 := .forAll (fun s n =>
      ((coreCancel_keepsErrors s n).trans (releaseAll_keepsErrors _ _ how)).trans (setWord_keepsErrors _ _ _)) j.cores s1
    have hChans : KeepsErrors s2 s3 := .forAll (fun s c =>
      (chanCancel_keepsErrors s c).trans (unbindChan_keepsErrors _ c)) j.chans s2
    have hGone : KeepsErrors s3 s4 := (unmapJob_keepsErrors s3 j).trans (.of_eq rfl rfl)
    have hCounted : KeepsErrors s4 s5 := .ite (itemDone_keepsErrors s4 _ _ _ _) (.refl s4)
    have hAnswered : KeepsErrors s5 s6 :=
      .ite ((unmapLaunch_keepsErrors s5 j).trans (answer_keepsErrors _ _ _ _ _ _ _)) (.refl s5)
    have hWork := (hTiles.trans hCores).trans hChans
    exact (((hWork.trans hGone).trans hCounted).trans hAnswered).trans (notify_keepsErrors s6 _ _ _ _ _ _ _ _)

theorem jobCheck_keepsErrors (s : State) (jn : Nat) (j : Job) : KeepsErrors s (jobCheck s jn j) := by
  unfold jobCheck
  refine (nextTurns_keepsErrors s jn j).trans (.ite (goJob_keepsErrors _ jn j) ?_)
  split
  · exact endJob_keepsErrors _ jn _
  · exact .refl _

/-- The jobs examined: engines start and jobs end, and a channel in ERROR stays as it is. -/
theorem jobsCheck_keepsErrors (s : State) : KeepsErrors s (jobsCheck s) := by
  refine .forAll (fun s jn => ?_) (jobList s) s
  split
  · exact .ite (jobCheck_keepsErrors s jn _) (.refl s)
  · exact .refl s

/-! ### The abort (R264, R268) -/

theorem chanStop_of_busy {s : State} {c : Nat} (code : Nat) (h : chanBusy (chanOf s c) = true) :
    chanStop s c code =
      withdrawWait (setChan s c { chanOf s c with st := .stopping, code := code, move := none, resuming := false }) (80 + c) :=
  if_pos h

/-- DMA_ABORT of Apgil on a FAULTED channel stops it with PAGE_FAULT. -/
theorem exec_dmaAbort_of_faulted {s : State} {src : Src} {c : Nat} (hApgil : isApgil src = true)
    (hHere : meets s src (dmReg c 0) = .here) (hFaulted : (chanOf s c).st = .faulted) :
    exec (.dmaAbort src c) s = .next (chanStop s c stPAGE) := by
  change execDmaAbort src c s = _
  simp [execDmaAbort, chanControl, hHere, hApgil, hFaulted]

/-- DMA_STOP_DONE of a channel that stops for a fault, its tags returned: it stands in ERROR, and the jobs are examined. -/
theorem exec_dmaStopDone_of_fault {s : State} {c : Nat} (hStopping : (chanOf s c).st = .stopping) (hTags : (chanOf s c).bursts = [])
    (hCode : (chanOf s c).code ≠ stCANCELLED) :
    exec (.dmaStopDone c) s = .next (jobsCheck (setChan s c { chanOf s c with st := .error, fault := true })) := by
  change execDmaStopDone c s = _
  simp [execDmaStopDone, hStopping, hTags, hCode]

/-- Settles O36: the abort is a stop with PAGE_FAULT, and the end of that stop examines the jobs, which keeps the channel's ERROR. -/
theorem dmaAbort : Obligations.DmaAbort := by
  intro s src c hApgil hHere hFaulted
  have hStop := chanStop_of_busy (s := s) (c := c) stPAGE (by simp [chanBusy, hFaulted])
  generalize hAborted : chanStop s c stPAGE = t at hStop
  have hChan : ∀ k, chanOf t k =
      if k = c then { chanOf s c with st := .stopping, code := stPAGE, move := none, resuming := false } else chanOf s k := by
    intro k
    rw [hStop]
    exact chanOf_setChan s c _ k
  have hSelf := (hChan c).trans (if_pos rfl)
  have hFlags : t.flags = s.flags := by rw [hStop]; rfl
  refine ⟨t, ?exec, hSelf, fun k hk => (hChan k).trans (if_neg hk), by rw [hStop]; rfl, hFlags, by rw [hStop]; rfl,
    by rw [hStop]; rfl, by rw [hStop]; rfl, ?stopDone⟩
  case exec => rw [exec_dmaAbort_of_faulted hApgil hHere hFaulted, hAborted]
  case stopDone =>
    intro hTags
    have hEnd := exec_dmaStopDone_of_fault (s := t) (c := c) (by rw [hSelf]) (by rw [hSelf, hTags]) (by simp [hSelf, stPAGE, stCANCELLED])
    have hJobs := jobsCheck_keepsErrors (setChan t c { chanOf t c with st := .error, fault := true })
    have hError := chanOf_setChan t c { chanOf t c with st := .error, fault := true } c
    rw [if_pos rfl] at hError
    have hKept := (hJobs.chan c (by rw [hError])).trans hError
    exact ⟨_, hEnd, by rw [hKept], by rw [hKept, hSelf], by rw [hKept], hJobs.flags.trans hFlags⟩

end Sys2Proof.Proofs

/-!
SUPPORT. The event pulse of a MOVE, and the empty MOVE from its start to its completion (R252, R255, R259).
-/
namespace Sys2Proof.Proofs
open Sys2Proof.Machine Sys2Proof.Laws

/-! ### What an event pulse leaves alone -/

/-- From `s` to `t` no byte of memory and no bus answer changed, and every channel has the MOVE in work and the count of MOVEs run that it
had. -/
structure KeepsMoves (s t : State) : Prop where
  mem : t.mem = s.mem
  bus : t.bus = s.bus
  move : ∀ c, (chanOf t c).move = (chanOf s c).move
  full : ∀ c, (chanOf t c).movesFull = (chanOf s c).movesFull

namespace KeepsMoves

theorem of_eq {s t : State} (mem : t.mem = s.mem) (bus : t.bus = s.bus) (chans : t.chans = s.chans) : KeepsMoves s t where
  mem := mem
  bus := bus
  move c := by rw [chanOf, chanOf, chans]
  full c := by rw [chanOf, chanOf, chans]

theorem refl (s : State) : KeepsMoves s s := ⟨rfl, rfl, fun _ => rfl, fun _ => rfl⟩

theorem trans {s t u : State} (h : KeepsMoves s t) (k : KeepsMoves t u) : KeepsMoves s u :=
  ⟨k.mem.trans h.mem, k.bus.trans h.bus, fun c => (k.move c).trans (h.move c), fun c => (k.full c).trans (h.full c)⟩

/-- An update that touches neither memory nor bus nor channels, and an operation after it. -/
theorem after {s t u : State} (h : KeepsMoves t u) (mem : t.mem = s.mem) (bus : t.bus = s.bus) (chans : t.chans = s.chans) :
    KeepsMoves s u :=
  (of_eq mem bus chans).trans h

end KeepsMoves

/-- A channel written with the MOVE and the count it had. -/
theorem setChan_keepsMoves (s : State) (c : Nat) (x : Chan) (hMove : x.move = (chanOf s c).move)
    (hFull : x.movesFull = (chanOf s c).movesFull) : KeepsMoves s (setChan s c x) where
  mem := rfl
  bus := rfl
  move k := by
    rw [chanOf_setChan]
    split
    next h => rw [hMove, h]
    next => rfl
  full k := by
    rw [chanOf_setChan]
    split
    next h => rw [hFull, h]
    next => rfl

/-- Loops left and gone round again change neither the MOVE in work nor the count (R251). -/
theorem dmaNext_move_movesFull (fuel : Nat) (x : Chan) (pc : Nat) :
    (dmaNext fuel x pc).move = x.move ∧ (dmaNext fuel x pc).movesFull = x.movesFull := by
  induction fuel generalizing x with
  | zero => exact ⟨rfl, rfl⟩
  | succ fuel ih =>
    unfold dmaNext
    split
    · split
      · split
        · exact ⟨rfl, rfl⟩
        · exact ih _
      · exact ⟨rfl, rfl⟩
    · exact ⟨rfl, rfl⟩

@[simp] theorem dmaNext_move (fuel : Nat) (x : Chan) (pc : Nat) : (dmaNext fuel x pc).move = x.move :=
  (dmaNext_move_movesFull fuel x pc).1

@[simp] theorem dmaNext_movesFull (fuel : Nat) (x : Chan) (pc : Nat) : (dmaNext fuel x pc).movesFull = x.movesFull :=
  (dmaNext_move_movesFull fuel x pc).2

theorem stallEnd_keepsMoves (s : State) (n : Nat) : KeepsMoves s (stallEnd s n) := by
  rw [stallEnd_eq]
  exact .of_eq rfl rfl rfl

theorem coreStallEnd_keepsMoves (s : State) (n : Nat) : KeepsMoves s (coreStallEnd s n) := by
  rw [coreStallEnd_eq]
  exact .of_eq rfl rfl rfl

/-- A woken channel goes on behind its wait, with the MOVE and the count it had. -/
theorem wake_keepsMoves (s : State) (who : Nat) : KeepsMoves s (wake s who) := by
  dsimp only [wake]
  split
  case h_1 n _ =>
    split
    · exact (stallEnd_keepsMoves s n).trans (.of_eq rfl rfl rfl)
    · exact .refl s
  case h_2 n _ =>
    split
    · exact (coreStallEnd_keepsMoves s n).trans (.of_eq rfl rfl rfl)
    · exact .refl s
  case h_3 n _ =>
    split
    · exact setChan_keepsMoves s n _ (dmaNext_move _ _ _) (dmaNext_movesFull _ _ _)
    · exact .refl s
  case h_4 => exact .of_eq rfl rfl rfl
  case h_5 => exact .of_eq rfl rfl rfl
  case h_6 => exact .refl s

theorem foldl_wake_keepsMoves (ws : List WaitEntry) (s : State) : KeepsMoves s (ws.foldl (fun s w => wake s w.who) s) := by
  induction ws generalizing s with
  | nil => exact .refl s
  | cons w ws ih => exact (wake_keepsMoves s w.who).trans (ih _)

theorem meetWaits_keepsMoves (s : State) (f : Nat) : KeepsMoves s (meetWaits s f) :=
  (foldl_wake_keepsMoves _ _).after rfl rfl rfl

theorem flagUpdateOp_keepsMoves (s : State) (u : FlagUpd) : KeepsMoves s (flagUpdateOp s u) := by
  unfold flagUpdateOp applyUpdate
  split
  · exact .refl s
  · split
    · split
      · exact (meetWaits_keepsMoves _ _).after rfl rfl rfl
      · exact .of_eq rfl rfl rfl
    · exact .of_eq rfl rfl rfl

theorem signalFlag_keepsMoves (s : State) (src : Src) (f : Nat) (add : Bool) (v : Word) :
    KeepsMoves s (signalFlag s src f add v) := flagUpdateOp_keepsMoves s _

theorem eventPulse_keepsMoves (s : State) (n k : Nat) : KeepsMoves s (eventPulse s n k) := by
  dsimp only [eventPulse]
  split
  · exact (coreStallEnd_keepsMoves s n).trans (.of_eq rfl rfl rfl)
  · split
    · exact .of_eq rfl rfl rfl
    · exact .of_eq rfl rfl rfl

/-- A pulse on a request line adds the credits, and the line's channel goes on at most (R255). -/
theorem pulseLine_cases (s : State) (l n : Nat) :
    pulseLine s l n = setWord s (lineReg l 4) (BitVec.ofNat 32 (lineCredit s l + n)) ∨
      ∃ c, pulseLine s l n = setChan (setWord s (lineReg l 4) (BitVec.ofNat 32 (lineCredit s l + n))) c
        { chanOf s c with st := .running } := by
  unfold pulseLine
  extract_lets s1
  split
  next c _ =>
    extract_lets x
    split_ifs
    · exact .inr ⟨c, rfl⟩
    · exact .inl rfl
  next => exact .inl rfl

theorem pulseLine_keepsMoves (s : State) (l n : Nat) : KeepsMoves s (pulseLine s l n) := by
  rcases pulseLine_cases s l n with h | ⟨c, h⟩
  · rw [h]
    exact .of_eq rfl rfl rfl
  · rw [h]
    exact KeepsMoves.after (setChan_keepsMoves (setWord s _ _) c _ rfl rfl) rfl rfl rfl

theorem pulseLine_regs (s : State) (l n : Nat) :
    (pulseLine s l n).regs = (setWord s (lineReg l 4) (BitVec.ofNat 32 (lineCredit s l + n))).regs := by
  rcases pulseLine_cases s l n with h | ⟨c, h⟩
  · rw [h]
  · rw [h, setChan_regs]

/-! ### The kinds of event pulse (R252) -/

theorem movePulse_of_flag {s : State} {c : Nat} {m : MoveWork} (h : mEvent m = 1) :
    movePulse s c m = some (signalFlag s (.dma c) m.target true 1) := if_pos h

theorem movePulse_of_core {s : State} {c k : Nat} {m : MoveWork} (h : mEvent m = 2)
    (hCore : chanCore s c (m.target / 16 % 8) = some k) (hOn : heldInReset s (.core k) = false) :
    movePulse s c m = some (eventPulse s k (m.target % 8)) := by
  simp [movePulse, h, hCore, hOn]

theorem movePulse_of_line {s : State} {c : Nat} {m : MoveWork} (h : mEvent m = 3) (hFits : pulseFits s (m.target % 256) 1 = true) :
    movePulse s c m = some (pulseLine s (m.target % 256) 1) := by
  simp [movePulse, h, hFits]

/-- Only a request-line pulse without room waits at its source (R255); every other is made, and no pulse touches a MOVE. -/
theorem exists_movePulse {s : State} {c : Nat} {m : MoveWork} (hFits : mEvent m = 3 → pulseFits s (m.target % 256) 1 = true) :
    ∃ u, movePulse s c m = some u ∧ KeepsMoves s u := by
  unfold movePulse
  split
  · exact ⟨_, rfl, signalFlag_keepsMoves s _ _ _ _⟩
  · split
    · split
      · split
        · exact ⟨_, rfl, .of_eq rfl rfl rfl⟩
        · exact ⟨_, rfl, eventPulse_keepsMoves s _ _⟩
      · exact ⟨s, rfl, .refl s⟩
    · split
      next hLine =>
        rw [if_pos (hFits hLine)]
        exact ⟨_, rfl, pulseLine_keepsMoves s _ 1⟩
      next => exact ⟨s, rfl, .refl s⟩

/-- A pulse that no wait takes is counted (R222). -/
theorem events_eventPulse_of_counted {s : State} {n k : Nat} (hWait : ¬ ((coreOf s n).st = .waiting ∧ (coreOf s n).waitEv = some k))
    (hRoom : tget 0 (coreOf s n).events k ≠ 0xFFFF) :
    tget 0 (coreOf (eventPulse s n k) n).events k = tget 0 (coreOf s n).events k + 1 := by
  dsimp only [eventPulse]
  rw [if_neg hWait, if_neg hRoom, coreOf_setCore, if_pos rfl, tget_tset_same]

/-- A pulse that fits adds its credits to its line, whether the line's channel goes on or not (R255). -/
theorem lineCredit_pulseLine {s : State} {l n : Nat} (hFits : pulseFits s l n = true) :
    lineCredit (pulseLine s l n) l = lineCredit s l + n := by
  have hWord : word (pulseLine s l n) (lineReg l 4) = BitVec.ofNat 32 (lineCredit s l + n) := by
    rw [word, pulseLine_regs]
    exact (word_setWord s _ _ _).trans (if_pos rfl)
  have hRoom : lineCredit s l + n ≤ 65535 := of_decide_eq_true hFits
  rw [lineCredit, wfld, hWord, fld, BitVec.toNat_ofNat, Nat.shiftRight_zero]
  omega

/-! ### The empty MOVE (R252, R256, R259) -/

/-- A MOVE one of whose used sizes is 0 moves nothing. -/
theorem mEmpty_of_mSize_eq_zero {m : MoveWork} {d : Nat} (hUsed : d < mDims m) (hSize : mSize m d = 0) : mEmpty m = true :=
  List.any_eq_true.mpr ⟨d, List.mem_range.mpr hUsed, decide_eq_true hSize⟩

/-- The sizes of a MOVE by its words (R252, R253). -/
theorem mEmpty_of_words {m : MoveWork} (h : fld (mw m 6) 23 0 = 0 ∨ (1 ≤ fld (mw m 0) 5 4 ∧ fld (mw m 7) 15 0 = 0) ∨
    (2 ≤ fld (mw m 0) 5 4 ∧ fld (mw m 7) 31 16 = 0) ∨ (3 ≤ fld (mw m 0) 5 4 ∧ fld (mw m 8) 15 0 = 0)) : mEmpty m = true := by
  rcases h with hSize | ⟨hDims, hSize⟩ | ⟨hDims, hSize⟩ | ⟨hDims, hSize⟩
  · exact mEmpty_of_mSize_eq_zero (d := 0) (by simp [mDims]) (by simp [mSize, mDims, hSize])
  · exact mEmpty_of_mSize_eq_zero (d := 1) (by simp only [mDims]; omega) (by simp [mSize, mDims, hSize]; omega)
  · exact mEmpty_of_mSize_eq_zero (d := 2) (by simp only [mDims]; omega) (by simp [mSize, mDims, hSize]; omega)
  · exact mEmpty_of_mSize_eq_zero (d := 3) (by simp only [mDims]; omega) (by simp [mSize, mDims, hSize]; omega)

/-- A channel that has begun an empty MOVE: every burst still out belongs to an earlier MOVE. -/
def emptyBegun (x : Chan) (m : MoveWork) : Chan :=
  { x with move := some m, moves := x.moves + 1, resuming := false, bursts := x.bursts.map (fun b => { b with old := true }) }

/-- A channel behind a MOVE. -/
def moveDone (x : Chan) : Chan :=
  dmaNext 5 { x with move := none, bursts := x.bursts.map (fun b => { b with old := true }) } (x.pc + 16)

theorem moveDone_move (x : Chan) : (moveDone x).move = none := dmaNext_move _ _ _

theorem moveDone_movesFull (x : Chan) : (moveDone x).movesFull = x.movesFull := dmaNext_movesFull _ _ _

theorem running_of_chanRuns {s : State} {c : Nat} (h : chanRuns s c = true) :
    (chanOf s c).st = .running ∧ heldInReset s (.dma (c / 32)) = false := by
  simp only [chanRuns, Bool.and_eq_true, decide_eq_true_eq, Bool.not_eq_true'] at h
  obtain ⟨⟨⟨hRunning, _⟩, _⟩, hOn⟩ := h
  exact ⟨hRunning, hOn⟩

/-- MOVE on an empty one: it begins with nothing to issue. Its element format, and the free value that gives it, are open (log 1). -/
theorem exec_move_of_empty {s : State} {c : Nat} {ws : List Word} (hRuns : chanRuns s c = true) (hRec : dmaRec s c = .words ws)
    (hOp : fld (ws.getD 0 0) 3 0 = 1) (hEmpty : mEmpty (moveOf (chanOf s c) ws 0) = true) :
    ∃ free fmt, exec (.move c) s =
      .next (setChan { s with free := free } c (emptyBegun (chanOf s c) { moveOf (chanOf s c) ws 0 with fmt := fmt })) := by
  have hAnyFmt : ∀ fmt, mEmpty (moveOf (chanOf s c) ws fmt) = true := fun _ => hEmpty
  simp only [show exec (.move c) s = execMove c s from rfl, execMove, onMoveWord, hRuns, hRec, hOp, hAnyFmt, if_true, Bool.not_true,
    Bool.and_false, Bool.false_eq_true, if_false]
  split
  · exact ⟨s.free, 0, rfl⟩
  · exact ⟨s.free + 1, Config.freeNat 20 s.free % 3, rfl⟩

/-- MOVE_COMPLETE of a MOVE whose last write is issued and, with barrier, has arrived (R255, R256). -/
theorem exec_moveComplete_of_due {s u : State} {c : Nat} {m : MoveWork} (hMove : (chanOf s c).move = some m)
    (hRunning : (chanOf s c).st = .running) (hOn : heldInReset s (.dma (c / 32)) = false) (hIssued : m.issuedAll = true)
    (hAnswered : m.nacked = false) (hBarrier : mBarrier m = true → (chanOf s c).bursts = [])
    (hGot : ∀ b ∈ (chanOf s c).bursts, b.got = true) (hPulse : movePulse (setChan s c (moveDone (chanOf s c))) c m = some u) :
    exec (.moveComplete c) s = .next u := by
  have hReady : (decide ((chanOf s c).st = .running) && !heldInReset s (.dma (c / 32)) && m.issuedAll &&
      (if mBarrier m then decide ((chanOf s c).bursts = []) else (chanOf s c).bursts.all (fun b => b.got))) = true := by
    rw [hRunning, hOn, hIssued]
    split
    next h => simp [hBarrier h]
    next => simpa using hGot
  rw [moveDone] at hPulse
  simp only [show exec (.moveComplete c) s = execMoveComplete c s from rfl, execMoveComplete, hMove, hReady, hAnswered, hPulse,
    Bool.and_false, Bool.false_eq_true, if_true, if_false]

theorem target_moveOf_lt (x : Chan) (ws : List Word) (fmt : Nat) : (moveOf x ws fmt).target < 65536 := by
  change wrapI 16 _ < 65536
  unfold wrapI
  omega

/-- Of a running channel with nothing out that the completion waits for, an empty MOVE completes as soon as its pulse is made, in a state
that differs from the one it began in by channels and the count of free values. -/
theorem exec_move_moveComplete_of_empty {s : State} {c : Nat} {ws : List Word} {m : MoveWork} (hRuns : chanRuns s c = true)
    (hRec : dmaRec s c = .words ws) (hOp : fld (ws.getD 0 0) 3 0 = 1) (hm : m = moveOf (chanOf s c) ws 0) (hEmpty : mEmpty m = true)
    (hBarrier : mBarrier m = true → (chanOf s c).bursts = []) (hGot : ∀ b ∈ (chanOf s c).bursts, b.got = true) :
    ∃ t free chans fmt, exec (.move c) s = .next t ∧ t.mem = s.mem ∧ t.bus = s.bus ∧ (tget {} chans c).move = none ∧
      (tget {} chans c).movesFull = (chanOf s c).movesFull ∧
      ∀ u, movePulse { s with free := free, chans := chans } c { m with fmt := fmt } = some u → exec (.moveComplete c) t = .next u := by
  subst hm
  obtain ⟨free, fmt, hBegin⟩ := exec_move_of_empty hRuns hRec hOp hEmpty
  generalize ht : setChan { s with free := free } c _ = t at hBegin
  have hChan : chanOf t c = emptyBegun (chanOf s c) { moveOf (chanOf s c) ws 0 with fmt := fmt } := by
    rw [← ht, chanOf_setChan, if_pos rfl]
  have hDone : chanOf (setChan t c (moveDone (chanOf t c))) c = moveDone (chanOf t c) :=
    (chanOf_setChan t c _ c).trans (if_pos rfl)
  refine ⟨t, free, (setChan t c (moveDone (chanOf t c))).chans, fmt, hBegin, by rw [← ht]; rfl, by rw [← ht]; rfl,
    ?move, ?full, ?complete⟩
  case move => exact (congrArg Chan.move hDone).trans (moveDone_move _)
  case full =>
    refine (congrArg Chan.movesFull hDone).trans ((moveDone_movesFull _).trans ?_)
    rw [hChan]
    rfl
  case complete =>
    intro u hPulse
    obtain ⟨hRunning, hOn⟩ := running_of_chanRuns hRuns
    refine exec_moveComplete_of_due (m := { moveOf (chanOf s c) ws 0 with fmt := fmt }) (by rw [hChan]; rfl) (by rw [hChan]; exact hRunning)
      (by rw [← ht]; exact hOn) hEmpty rfl (fun h => ?_) ?_ (by rw [← ht] at hPulse ⊢; exact hPulse)
    · rw [hChan, emptyBegun, hBarrier h]
      rfl
    · rw [hChan, emptyBegun]
      simpa using hGot

/-- Settles O38: the empty MOVE begins with nothing to issue, so its completion is the event pulse alone. -/
theorem emptyMove : Obligations.EmptyMove := by
  intro s c ws m hRuns hRec hOp hm hNothing hBarrier hGot hFits
  have hEmpty : mEmpty m = true := mEmpty_of_words (by rw [hm]; exact hNothing)
  have hTarget : m.target < 65536 := by rw [hm]; exact target_moveOf_lt _ _ _
  obtain ⟨t, free, chans, fmt, hBegin, hMem, hBus, hMove, hFull, hComplete⟩ :=
    exec_move_moveComplete_of_empty hRuns hRec hOp hm hEmpty hBarrier hGot
  obtain ⟨u, hPulse, hKeeps⟩ :=
    exists_movePulse (s := { s with free := free, chans := chans }) (c := c) (m := { m with fmt := fmt }) hFits
  refine ⟨t, u, hBegin, hComplete u hPulse, hMem, hKeeps.mem, hBus, hKeeps.bus, (hKeeps.move c).trans hMove,
    (hKeeps.full c).trans hFull, ?flag, ?core, ?line⟩
  case flag =>
    intro hEvent hNow
    obtain rfl := Option.some.inj (hPulse.symm.trans (movePulse_of_flag hEvent))
    exact ⟨flagOf_signalFlag_of_flagNow _ _ _ 1 hNow, fun f hf => flagOf_signalFlag_other _ _ _ f 1 hTarget hf⟩
  case core =>
    intro hEvent k hCore hOn hWait hRoom
    obtain rfl := Option.some.inj (hPulse.symm.trans (movePulse_of_core hEvent hCore hOn))
    exact events_eventPulse_of_counted hWait hRoom
  case line =>
    intro hEvent
    obtain rfl := Option.some.inj (hPulse.symm.trans (movePulse_of_line hEvent (hFits hEvent)))
    exact lineCredit_pulseLine (hFits hEvent)

end Sys2Proof.Proofs
